-- ==== Sys2Proof/Word.lean ====
section
/-! DEFINITION. The word types of the Gelesh G96 (spec/00_scope.md R3): bytes, 32-bit words,
64-bit doubles, 128-byte lines. -/

namespace Sys2Proof

/-- A byte. -/
abbrev Byte := BitVec 8
/-- A 32-bit register or instruction word (R34). -/
abbrev Word := BitVec 32
/-- A 64-bit value: a register pair (R43), a VA (R57), CLK (R392). -/
abbrev DWord := BitVec 64
/-- A 7-bit register field of an instruction (R38). -/
abbrev Field := BitVec 7
/-- The data of one 128-byte line; byte `i` of the line is bits `[8i+7:8i]` (R3, R94). -/
abbrev Line := BitVec 1024
/-- One bit for each byte of a line (R94). -/
abbrev LineMask := BitVec 128

end Sys2Proof
end

