-- ==== Sys2Proof/Syntax.lean ====
section
/-! DEFINITION. The one type of steps of the G96: one constructor for each row of
spec/opcode_table.json. The first 87 rows are steps without an instruction word (events of the
command processor, the L2 slices, the management core, ...); a constructor of such a row names the
wave (`b` block, `w` wave), operation, core or outside input the event is about. The other rows are
instruction words; their fields are those of spec/02_instruction_word.md R38. -/

namespace Sys2Proof

/-- What an inbound access from the host or a peer does (R429): reads, writes bytes, or an atomic. -/
inductive InAct where
  | read (size : Nat)
  | write (bytes : List (BitVec 8))
  | atomic (op : Nat) (wide : Bool) (operand compare : BitVec 64)
deriving DecidableEq, Repr, Inhabited

/-- How a boot fails (R432, R433): at step 2 by a configuration record, at step 4 by the Shethar image. -/
inductive BootFail where
  | signature (record : BitVec 8)
  | unreadable (record : BitVec 8)
  | image
  | mismatch
deriving DecidableEq, Repr, Inhabited

/-- What Shethar holds for region 12 once it is loaded (R60, R64, R95): root table, grant, way mask. -/
structure SharedRegion where
  root : Option Nat := none
  grant : List (Nat × Nat) := []
  ways : BitVec 16 := 0
deriving DecidableEq, Repr, Inhabited

/-- How a boot ends (R432, R433): with Shethar loaded and what it holds for region 12, or in a failure. -/
inductive BootEnd where
  | up (shared : SharedRegion)
  | failed (why : BootFail)
deriving DecidableEq, Repr, Inhabited

/-- What the command processor's read of a slot meets (R426): the bytes that host memory holds; those that the host writes
there before the read; or a link on which the read fails. -/
inductive SlotRead where
  | held
  | written (r : BitVec 2048)
  | failed
deriving DecidableEq, Repr, Inhabited

/-- The steps of the machine. -/
inductive Instr where
  /-- `CLAUSE_ISSUE` (R26): Control arrives at a clause header: the G96 fetches it, checks signature, COUNT, reserved bits and M against the open melded region, and waits on the four counter thresholds before the clause's words issue. -/
  | clauseIssue
  /-- `ISSUE_ARBITRATION` (R337): Each cycle every free lane pair and the group-wide unit choose the least recently issued READY wave, with 64-cycle waiters first. -/
  | issueArbitration (core unit : Nat)
  /-- `ASYNC_RESULT_RETURN` (R36): An asynchronous load, atomic, co-processor, matrix or status result returns; it is written to its destination and its counter is lowered when the whole instruction is done. -/
  | asyncResultReturn (b w op lane : Nat)
  /-- `STORE_ACKNOWLEDGE` (R165): A store, reduction, STL, EVICT or RST is acknowledged at the level its instruction names, and SC is lowered when every lane is done. -/
  | storeAcknowledge (b w op : Nat)
  /-- `DEFERRED_FAULT_SPLIT` (R73): A lane's access returns TRANS or DATA; the lane leaves its path into a FAULT path and the access joins the deferred-access list. -/
  | deferredFaultSplit (b w op : Nat)
  /-- `DELIVERY_POINT` (R76): When no path can issue and all counters are zero the wave starts run-ahead of its lowest FAULT path from a checkpoint. -/
  | deliveryPoint (b w : Nat)
  /-- `RUN_AHEAD_END` (R77): When run-ahead stops and its accesses have returned, the checkpoint is restored, fault records are written and FAULT paths park. -/
  | runAheadEnd (b w : Nat)
  /-- `FAULT_RING_SPACE_FREED` (R79): A wave waiting on a full fault ring resumes writing its records once FRPOP has freed space. -/
  | faultRingSpaceFreed (b w : Nat)
  /-- `REPLAY_APPLY` (R86): A REPLAY reaches a core, which marks the matching wait-table entry as replayed and releases or delivers the paths parked under it. -/
  | replayApply (core : Nat)
  /-- `FAULT_PATH_RESUME` (R81): When the re-issued deferred accesses have all returned, the path issues at its resume point. -/
  | faultPathResume (b w p : Nat)
  /-- `TRANSLATION_WALK` (R66): A home-slice translator completes a four-level walk, ending in a translation that sets ACC and DIRTY or in a TRANS or DATA fault. -/
  | translationWalk (world ia : Nat) (store : Bool)
  /-- `L2_REQUEST` (R98): A request reaches an L2 slice and is looked up, served, allocated by policy, forwarded by a cairn or recalled. -/
  | l2Request (b w op lane : Nat)
  /-- `OWNED_LINE_SERVE` (R105): When copy ownership of a line ends, the waiting thread accesses are served on it in arrival order. -/
  | ownedLineServe (line : Nat)
  /-- `WAY_WAKE_COMPLETE` (R111): A re-enabled L2 way finishes its 1.2 µs wake and the misses parked on it allocate. -/
  | wayWakeComplete (slice way : Nat)
  /-- `BANK_WAKE_COMPLETE` (R160): A gated lane-store bank finishes its 1.2 µs wake, zeroed, and waiting dispatches and accesses proceed. -/
  | bankWakeComplete (core bank : Nat)
  /-- `COPY_SEGMENT_START` (R127): The copy unit checks a segment's VAs, walks and pins its granules and takes ownership of its destination lines, all or none. -/
  | copySegmentStart (b w c : Nat)
  /-- `PIN_RETRY` (R71): A refused pin or ownership request, holding nothing, takes all its entries again once the refusing table has room. -/
  | pinRetry (b w c : Nat)
  /-- `COPY_SEGMENT_MOVE` (R127): Once steps 1-3 have succeeded for it and every earlier segment, the segment's data is moved with conversion and checks. -/
  | copySegmentMove (b w c : Nat)
  /-- `COPY_SEGMENT_COMPLETE` (R127): When a segment's reads have returned and writes reached L2, its pins are lowered and its ownership ends. -/
  | copySegmentComplete (b w c : Nat)
  /-- `BATCH_COMPLETE` (R129): When all copies of a batch have completed or stopped, the completion record is written, BATCHDONE advances and the failure latch may fill. -/
  | batchComplete (b w : Nat)
  /-- `SADDLE_RELEASE` (R240): When every quorum member is held and the matrix queue has room, the latch compares words, descriptors and QUORUMREG and releases the members or raises QUORUM. -/
  | saddleRelease (core : Nat)
  /-- `MATRIX_OP_APPLY` (R248): The matrix engine applies the next accepted MMA or TILE operation in acceptance order and lowers MC in its waves. -/
  | matrixOpApply (core : Nat)
  /-- `FEEDBACK_REPORT_APPEND` (R279): A residency fallback report reaches the home slice of the feedback-ring header and is appended or dropped, with a reply. -/
  | feedbackReportAppend (core : Nat)
  /-- `TOKEN_NOTICE` (R316): A 'published' or 'aborted' notice reaches a core and resolves the SCWAIT entries keyed by that token. -/
  | tokenNotice (core : Nat)
  /-- `RESOURCE_RELEASE` (R458): A retired wave's or block's slot, registers, scratchpad, tile rows and barriers are freed as each one's conditions are met. -/
  | resourceRelease (b : Nat)
  /-- `BLOCK_DISPATCH` (R369): The command processor places the next block or cluster of the highest-priority ready launch on a core of a ridge its world holds. -/
  | blockDispatch (world : Nat) (cores : List Nat)
  /-- `LAUNCH_COMPLETE` (R370): When every block, access, batch and operation of a launch is done, the CP arrives on CNTVA, SUCC0 and SUCC1 with its status. -/
  | launchComplete (l : Nat)
  /-- `COUNTER_ARRIVE` (R361): An arrival on a counter object is applied indivisibly at its home slice, completing, diverting or propagating to PARENT. -/
  | counterArrive (world : Nat)
  /-- `GRID_LATCH_REPLY` (R382): The CP's reply to a GBAR.ARR sets the wave's grid latch to APPLIED or DIVERTED. -/
  | gridLatchReply (b w : Nat)
  /-- `CANCEL_FINISH` (R371): When the waves of marked launches have been stopped, marked counters are written with STATUS 2 and v arrives on its PARENT. -/
  | cancelFinish (c : Nat)
  /-- `QUEUE_DOORBELL` (R425): A host write of a queue's TAIL rings the doorbell, or clears ERR, or is refused with ERR 4. -/
  | queueDoorbell (vf q : Nat) (tail : BitVec 32)
  /-- `QUEUE_CONFIG_WRITE` (R426): A host write of a queue's BASE or CAP is applied only while TAIL equals HEAD, otherwise it sets ERR 3. -/
  | queueConfigWrite (vf q : Nat) (cap : Bool) (value : BitVec 64)
  /-- `REGISTER_WRITE` (R6): A write to a register with no behaviour of its own stores its writable fields. -/
  | registerWrite (vf off : Nat) (value : BitVec 32)
  /-- `CP_SLOT_READ` (R426): The CP reads the host-queue slot at HEAD and submits the record, or sets ERR 1 or 2 on failure. -/
  | cpSlotRead (vf q : Nat) (slot : SlotRead)
  /-- `TDISP_STOP` (R426): A TDISP stop of a TDI resets all its queue registers and drops unread slots. -/
  | tdispStop (vf : Nat)
  /-- `TDI_RUN_RESUME` (R426): A TDI returning to RUN clears ERR 2 and the CP resumes reading its queues at HEAD. -/
  | tdiRunResume (vf : Nat)
  /-- `IDE_INTEGRITY_FAILURE` (R422): An IDE integrity failure moves the stream's TDI to ERROR and stops its queues. -/
  | ideIntegrityFailure (vf : Nat)
  /-- `FLIT_TAG_FAILURE` (R430): A Qororn flit that fails its tag is retried, and after the third failure its accesses get DATA and the link retrains. -/
  | flitTagFailure (port : Nat) (carried : List (Nat × Nat × Nat × Nat))
  /-- `INBOUND_ACCESS` (R429): A host DMA or peer flit access to G96 memory is checked against the world's grant and served, or completed with an error and logged. -/
  | inboundAccess (peer : Bool) (unit world pa : Nat) (act : InAct)
  /-- `PORT_CAS_LOOP` (R428): At the host-link port a CAS completion for an emulated atomic either ends it or retries, giving DATA after 64 failures. -/
  | portCasLoop (b w op lane : Nat) (success : Bool)
  /-- `STAGE_ENQUEUE` (R372): A job is enqueued indivisibly at a stage-queue header's home slice, or fails when the queue is closed or full. -/
  | stageEnqueue (b w op : Nat)
  /-- `STAGE_CLOSED_POLL` (R372): At least every 50 µs and when a queue empties, the CP reads the stage's CLOSED bit. -/
  | stageClosedPoll (l : Nat)
  /-- `STAGE_CORE_DIVISION` (R374): Every 50 µs each ridge dispatcher divides its cores among active stage launches by pending jobs. -/
  | stageCoreDivision (ridge : Nat)
  /-- `DISPLACE_BLOCK` (R383): The CP pre-empts a displaceable resident block and dispatches a waiting block of the same launch in its place. -/
  | displaceBlock (b : Nat)
  /-- `PREEMPT_SAVE` (R403): Once the block has drained, its save area is written and its waves become SAVED. -/
  | preemptSave (b : Nat)
  /-- `BLOCK_RESTORE` (R404): A saved block is restored to an eligible core, re-issues its copies, retries FAULT paths and delivers pending events before the first issue. -/
  | blockRestore (b core : Nat)
  /-- `WAITCYCLE_PROBE_SEND` (R384): A wave parked 1 ms on a followed wait sends a wait-cycle probe, and again every further 1 ms. -/
  | waitcycleProbeSend (b w : Nat)
  /-- `WAITCYCLE_PROBE_RECEIVE` (R384): A probe reaching a wave is forwarded to the waves it awaits or answered free. -/
  | waitcycleProbeReceive
  /-- `SLEEP_END` (R329): A sleeping wave's n × 64 cycles elapse and it becomes eligible again. -/
  | sleepEnd (b w : Nat)
  /-- `SLOT_ENTRY_EDGE` (R413): The running slot-table entry's duration expires and the next entry takes effect, shuttering every ridge whose world changes. -/
  | slotEntryEdge
  /-- `SHUTTER_DRAIN_COMPLETE` (R413): All outstanding work of the outgoing world has drained, and the ridge enters SEAL. -/
  | shutterDrainComplete (ridge : Nat)
  /-- `DRAIN_BUDGET_EXPIRY` (R416): At E + DRAIN the incomplete items are stopped and resolved, and the blocks holding them are discarded as OVERRUN. -/
  | drainBudgetExpiry (ridge : Nat)
  /-- `SEAL_COMPLETE` (R413): The remaining blocks' contexts are saved to the shadow store or spill region, and the ridge enters SCRUB. -/
  | sealComplete (ridge : Nat)
  /-- `SCRUB_COMPLETE` (R420): The ridge's cores are re-keyed, zeroed and invalidated, and OPEN restores the incoming world's blocks. -/
  | scrubComplete (ridge : Nat)
  /-- `THERMAL_WARNING` (R435): A die above 100 °C or package power above 3,300 W logs a thermal event. -/
  | thermalWarning (die : Nat)
  /-- `THERMAL_SHUTTER` (R435): A die above 105 °C for 1 ms causes an immediate edge on every ridge and leaves all ridges idle. -/
  | thermalShutter (die : Nat)
  /-- `THERMAL_RESUME` (R435): Every die falling below 95 °C after a thermal shutter resumes the slot table at entry 0. -/
  | thermalResume
  /-- `THERMAL_POWER_REMOVE` (R435): A die above 115 °C removes package power and logs a fatal event. -/
  | thermalPowerRemove (die : Nat)
  /-- `POWER_ON` (R432): Power-on runs the boot sequence: measurements, signed configuration records, Shethar, training and opening the PF. -/
  | powerOn (how : BootEnd) (fw cfg shethar : List (BitVec 8))
  /-- `WARM_RESET` (R432): A warm reset runs the boot sequence with the last-events record kept. -/
  | warmReset (how : BootEnd) (fw cfg shethar : List (BitVec 8))
  /-- `WCREATE` (R431): Shethar creates a world: keys, world record and measurement 16 + w. -/
  | wcreate (w : Nat) (rec : BitVec 4096)
  /-- `WSET` (R431): Shethar replaces a world's record when it has no blocks and no locked VF. -/
  | wset (w : Nat) (rec : BitVec 4096)
  /-- `WDESTROY` (R431): Shethar erases a world's keys and sealed set and clears V. -/
  | wdestroy (w : Nat)
  /-- `SLOTS` (R411): Shethar loads a slot table, which the G96 checks whole and puts in force at the end of the running entry. -/
  | slots (table : List (BitVec 512))
  /-- `HEAP` (R431): Shethar sets the shading heap, object table and clock world, resetting FRAME, entries and generations. -/
  | heap (hslots heapia otia objcount clockw : Nat)
  /-- `OBJSET` (R431): Shethar writes or updates an object record. -/
  | objset (h : Nat) (rec : BitVec 256)
  /-- `OBJCLR` (R431): Shethar invalidates an object, invalidates its tag entries and aborts its live tokens. -/
  | objclr (h : Nat)
  /-- `ROUTE` (R427): Shethar writes the Qororn route-table entry for a peer. -/
  | route (p : Nat) (ports : List Nat)
  /-- `GATE` (R110): Shethar gates or wakes an L2 way or a lane-store bank, writing back and invalidating its lines first. -/
  | gate (bank : Bool) (unit sub : Nat) (on : Bool)
  /-- `EVENTS` (R434): Shethar returns 4 KiB of the last-events record. -/
  | events (offset : BitVec 32)
  /-- `EVENTS_UNFREEZE` (R434): EVENTS with offset 0xFFFF_FFFF unfreezes the last-events record. -/
  | eventsUnfreeze
  /-- `MEASUREMENT_REQUEST` (R424): The SPDM responder answers a measurement request from live registers, the sealed set or the always-on store. -/
  | measurementRequest (index : Nat)
  /-- `MEXT_REQUEST` (R393): SWR of MEXT with 1 checks and reads the 64-byte value and passes it to the management core, holding the wave. -/
  | mextRequest (y g : Bool) (d : BitVec 7)
  /-- `MEXT_RESPONSE` (R393): The management core applies or refuses a measurement extension and the waiting wave resumes with the outcome in MEXT. -/
  | mextResponse (world : Nat)
  /-- `CLKLO_READ` (R392): A read of CLKLO returns CLK[31:0] and latches CLK[63:32]. -/
  | clkloRead (y g : Bool) (d : BitVec 7)
  /-- `DEBUG_ATTACH` (R437): An STL.128 to the attachment record attaches or detaches the debugger block to a target block. -/
  | debugAttach (b w op lane : Nat)
  /-- `PROFILING_CONTROL_WRITE` (R444): An STL to the profiling control sets sampling, tracing and exit rings or raises RANGE. -/
  | profilingControlWrite (b w op lane : Nat)
  /-- `TRACE_SAMPLE` (R445): At each CLK multiple of PERIOD every bound wave of the launch appends a sample record. -/
  | traceSample (l : Nat)
  /-- `DBGHALT_APPLY` (R440): The target core applies a DBGHALT or DBGRES between issue slots and returns its status. -/
  | dbghaltApply (core : Nat)
  /-- `MIGR_DEMOTE` (R88): The migration engine compresses and encrypts HBM frames into packed foothill images. -/
  | migrDemote (world : Nat)
  /-- `MIGR_PROMOTE` (R88): The migration engine expands packed foothill images into HBM frames. -/
  | migrPromote (world : Nat)
  /-- `MIGR_COPYF` (R88): The migration engine copies HBM frames unchanged. -/
  | migrCopyf (world : Nat)
  /-- `MIGR_MAPSET` (R88): The migration engine sets a residency bit and invalidates that word in every residency cache. -/
  | migrMapset (world : Nat)
  /-- `MIGR_MAPCLR` (R88): The migration engine clears a residency bit, invalidates cached copies and waits for lookups that used the old bit. -/
  | migrMapclr (world : Nat)
  /-- `INVR_ACKNOWLEDGE` (R85): When pins in range are zero and earlier-translated accesses have completed, INVR is acknowledged and SC falls. -/
  | invrAcknowledge (b w op : Nat)
  /-- `ADD` (R209): 32-bit wrapping add. -/
  | add (y : Bool) (g : Bool) (d : BitVec 7) (a : BitVec 7) (b : BitVec 7)
  /-- `SUB` (R209): 32-bit wrapping subtract. -/
  | sub (y : Bool) (g : Bool) (d : BitVec 7) (a : BitVec 7) (b : BitVec 7)
  /-- `MIN_S` (R209): Signed minimum. -/
  | minS (y : Bool) (g : Bool) (d : BitVec 7) (a : BitVec 7) (b : BitVec 7)
  /-- `MIN_N` (R209): Unsigned minimum. -/
  | minN (y : Bool) (g : Bool) (d : BitVec 7) (a : BitVec 7) (b : BitVec 7)
  /-- `MAX_S` (R209): Signed maximum. -/
  | maxS (y : Bool) (g : Bool) (d : BitVec 7) (a : BitVec 7) (b : BitVec 7)
  /-- `MAX_N` (R209): Unsigned maximum. -/
  | maxN (y : Bool) (g : Bool) (d : BitVec 7) (a : BitVec 7) (b : BitVec 7)
  /-- `ABSD_S` (R209): Absolute difference of signed values as N32. -/
  | absdS (y : Bool) (g : Bool) (d : BitVec 7) (a : BitVec 7) (b : BitVec 7)
  /-- `NEG` (R209): Wrapping negation. -/
  | neg (y : Bool) (g : Bool) (d : BitVec 7) (a : BitVec 7)
  /-- `AND` (R209): Bitwise AND. -/
  | and_ (y : Bool) (g : Bool) (d : BitVec 7) (a : BitVec 7) (b : BitVec 7)
  /-- `OR` (R209): Bitwise OR. -/
  | or_ (y : Bool) (g : Bool) (d : BitVec 7) (a : BitVec 7) (b : BitVec 7)
  /-- `XOR` (R209): Bitwise XOR. -/
  | xor (y : Bool) (g : Bool) (d : BitVec 7) (a : BitVec 7) (b : BitVec 7)
  /-- `ANDN` (R209): a AND NOT b. -/
  | andn (y : Bool) (g : Bool) (d : BitVec 7) (a : BitVec 7) (b : BitVec 7)
  /-- `ORN` (R209): a OR NOT b. -/
  | orn (y : Bool) (g : Bool) (d : BitVec 7) (a : BitVec 7) (b : BitVec 7)
  /-- `XNOR` (R209): NOT (a XOR b). -/
  | xnor (y : Bool) (g : Bool) (d : BitVec 7) (a : BitVec 7) (b : BitVec 7)
  /-- `NOT` (R209): Bitwise NOT. -/
  | not_ (y : Bool) (g : Bool) (d : BitVec 7) (a : BitVec 7)
  /-- `SHL` (R210): Shift left by b[5:0]. -/
  | shl (y : Bool) (g : Bool) (d : BitVec 7) (a : BitVec 7) (b : BitVec 7)
  /-- `SHR` (R210): Logical shift right. -/
  | shr (y : Bool) (g : Bool) (d : BitVec 7) (a : BitVec 7) (b : BitVec 7)
  /-- `SAR` (R210): Arithmetic shift right. -/
  | sar (y : Bool) (g : Bool) (d : BitVec 7) (a : BitVec 7) (b : BitVec 7)
  /-- `ROL` (R210): Rotate left. -/
  | rol (y : Bool) (g : Bool) (d : BitVec 7) (a : BitVec 7) (b : BitVec 7)
  /-- `ROR` (R210): Rotate right. -/
  | ror (y : Bool) (g : Bool) (d : BitVec 7) (a : BitVec 7) (b : BitVec 7)
  /-- `SHL_W` (R210): 64-bit shift left. -/
  | shlW (y : Bool) (g : Bool) (d : BitVec 7) (a : BitVec 7) (b : BitVec 7)
  /-- `SHR_W` (R210): 64-bit logical shift right. -/
  | shrW (y : Bool) (g : Bool) (d : BitVec 7) (a : BitVec 7) (b : BitVec 7)
  /-- `SAR_W` (R210): 64-bit arithmetic shift right. -/
  | sarW (y : Bool) (g : Bool) (d : BitVec 7) (a : BitVec 7) (b : BitVec 7)
  /-- `MUL` (R211): Low 32 bits of the product. -/
  | mul (y : Bool) (g : Bool) (d : BitVec 7) (a : BitVec 7) (b : BitVec 7)
  /-- `MULH_S` (R211): High 32 bits of the signed product. -/
  | mulhS (y : Bool) (g : Bool) (d : BitVec 7) (a : BitVec 7) (b : BitVec 7)
  /-- `MULH_N` (R211): High 32 bits of the unsigned product. -/
  | mulhN (y : Bool) (g : Bool) (d : BitVec 7) (a : BitVec 7) (b : BitVec 7)
  /-- `MAD` (R211): (a × b + d) mod 2^32. -/
  | mad (y : Bool) (g : Bool) (d : BitVec 7) (a : BitVec 7) (b : BitVec 7)
  /-- `MULW_S` (R211): Exact signed 64-bit product. -/
  | mulwS (y : Bool) (g : Bool) (d : BitVec 7) (a : BitVec 7) (b : BitVec 7)
  /-- `MULW_N` (R211): Exact unsigned 64-bit product. -/
  | mulwN (y : Bool) (g : Bool) (d : BitVec 7) (a : BitVec 7) (b : BitVec 7)
  /-- `MADW_S` (R211): Signed 64-bit multiply-add. -/
  | madwS (y : Bool) (g : Bool) (d : BitVec 7) (a : BitVec 7) (b : BitVec 7)
  /-- `MADW_N` (R211): Unsigned 64-bit multiply-add. -/
  | madwN (y : Bool) (g : Bool) (d : BitVec 7) (a : BitVec 7) (b : BitVec 7)
  /-- `POPC` (R212): Population count. -/
  | popc (y : Bool) (g : Bool) (d : BitVec 7) (a : BitVec 7)
  /-- `CLZ` (R212): Count leading zeros. -/
  | clz (y : Bool) (g : Bool) (d : BitVec 7) (a : BitVec 7)
  /-- `CTZ` (R212): Count trailing zeros. -/
  | ctz (y : Bool) (g : Bool) (d : BitVec 7) (a : BitVec 7)
  /-- `BREV` (R212): Bit reverse. -/
  | brev (y : Bool) (g : Bool) (d : BitVec 7) (a : BitVec 7)
  /-- `BFE_S` (R213): Sign-extended bit-field extract. -/
  | bfeS (y : Bool) (g : Bool) (d : BitVec 7) (a : BitVec 7) (b : BitVec 7)
  /-- `BFE_Z` (R213): Zero-extended bit-field extract. -/
  | bfeZ (y : Bool) (g : Bool) (d : BitVec 7) (a : BitVec 7) (b : BitVec 7)
  /-- `BFI` (R213): Bit-field insert into d. -/
  | bfi (y : Bool) (g : Bool) (d : BitVec 7) (a : BitVec 7) (b : BitVec 7)
  /-- `PRMT` (R214): Byte permute selected by the old d. -/
  | prmt (y : Bool) (g : Bool) (d : BitVec 7) (a : BitVec 7) (b : BitVec 7)
  /-- `ICMP_EQ` (R215): Equality compare into a lane mask or predicate. -/
  | icmpEq (y : Bool) (g : Bool) (d : BitVec 7) (a : BitVec 7) (b : BitVec 7)
  /-- `ICMP_NE` (R215): Inequality compare. -/
  | icmpNe (y : Bool) (g : Bool) (d : BitVec 7) (a : BitVec 7) (b : BitVec 7)
  /-- `ICMP_LT_S` (R215): Signed less-than compare. -/
  | icmpLtS (y : Bool) (g : Bool) (d : BitVec 7) (a : BitVec 7) (b : BitVec 7)
  /-- `ICMP_LE_S` (R215): Signed less-or-equal compare. -/
  | icmpLeS (y : Bool) (g : Bool) (d : BitVec 7) (a : BitVec 7) (b : BitVec 7)
  /-- `ICMP_LT_N` (R215): Unsigned less-than compare. -/
  | icmpLtN (y : Bool) (g : Bool) (d : BitVec 7) (a : BitVec 7) (b : BitVec 7)
  /-- `ICMP_LE_N` (R215): Unsigned less-or-equal compare. -/
  | icmpLeN (y : Bool) (g : Bool) (d : BitVec 7) (a : BitVec 7) (b : BitVec 7)
  /-- `ICMP_TEST` (R215): True when a AND b is non-zero. -/
  | icmpTest (y : Bool) (g : Bool) (d : BitVec 7) (a : BitVec 7) (b : BitVec 7)
  /-- `ADD64` (R216): 64-bit add. -/
  | add64 (y : Bool) (g : Bool) (d : BitVec 7) (a : BitVec 7) (b : BitVec 7)
  /-- `SUB64` (R216): 64-bit subtract. -/
  | sub64 (y : Bool) (g : Bool) (d : BitVec 7) (a : BitVec 7) (b : BitVec 7)
  /-- `LEA_2` (R216): a + 2 × unsigned b. -/
  | lea2 (y : Bool) (g : Bool) (d : BitVec 7) (a : BitVec 7) (b : BitVec 7)
  /-- `LEA_4` (R216): a + 4 × unsigned b. -/
  | lea4 (y : Bool) (g : Bool) (d : BitVec 7) (a : BitVec 7) (b : BitVec 7)
  /-- `LEA_8` (R216): a + 8 × unsigned b. -/
  | lea8 (y : Bool) (g : Bool) (d : BitVec 7) (a : BitVec 7) (b : BitVec 7)
  /-- `LEA_16` (R216): a + 16 × unsigned b. -/
  | lea16 (y : Bool) (g : Bool) (d : BitVec 7) (a : BitVec 7) (b : BitVec 7)
  /-- `SEXT8` (R217): Sign-extend a byte. -/
  | sext8 (y : Bool) (g : Bool) (d : BitVec 7) (a : BitVec 7)
  /-- `SEXT16` (R217): Sign-extend a half-word. -/
  | sext16 (y : Bool) (g : Bool) (d : BitVec 7) (a : BitVec 7)
  /-- `ZEXT8` (R217): Zero-extend a byte. -/
  | zext8 (y : Bool) (g : Bool) (d : BitVec 7) (a : BitVec 7)
  /-- `ZEXT16` (R217): Zero-extend a half-word. -/
  | zext16 (y : Bool) (g : Bool) (d : BitVec 7) (a : BitVec 7)
  /-- `SEXT32` (R217): Sign-extend to 64 bits. -/
  | sext32 (y : Bool) (g : Bool) (d : BitVec 7) (a : BitVec 7)
  /-- `ZEXT32` (R217): Zero-extend to 64 bits. -/
  | zext32 (y : Bool) (g : Bool) (d : BitVec 7) (a : BitVec 7)
  /-- `TRUNC64` (R217): Low word of a 64-bit pair. -/
  | trunc64 (y : Bool) (g : Bool) (d : BitVec 7) (a : BitVec 7)
  /-- `FADD` (R227): FP32 add rounded by FCTRL. -/
  | fadd (y : Bool) (g : Bool) (d : BitVec 7) (a : BitVec 7) (b : BitVec 7)
  /-- `FSUB` (R227): FP32 subtract. -/
  | fsub (y : Bool) (g : Bool) (d : BitVec 7) (a : BitVec 7) (b : BitVec 7)
  /-- `FMUL` (R227): FP32 multiply. -/
  | fmul (y : Bool) (g : Bool) (d : BitVec 7) (a : BitVec 7) (b : BitVec 7)
  /-- `FMIN` (R227): FP32 IEEE minimum. -/
  | fmin (y : Bool) (g : Bool) (d : BitVec 7) (a : BitVec 7) (b : BitVec 7)
  /-- `FMAX` (R227): FP32 IEEE maximum. -/
  | fmax (y : Bool) (g : Bool) (d : BitVec 7) (a : BitVec 7) (b : BitVec 7)
  /-- `FMINN` (R227): FP32 minimumNumber. -/
  | fminn (y : Bool) (g : Bool) (d : BitVec 7) (a : BitVec 7) (b : BitVec 7)
  /-- `FMAXN` (R227): FP32 maximumNumber. -/
  | fmaxn (y : Bool) (g : Bool) (d : BitVec 7) (a : BitVec 7) (b : BitVec 7)
  /-- `FCOPYSIGN` (R227): a with the sign of b, bitwise. -/
  | fcopysign (y : Bool) (g : Bool) (d : BitVec 7) (a : BitVec 7) (b : BitVec 7)
  /-- `FMA` (R228): FP32 a × b + d, one rounding. -/
  | fma (y : Bool) (d : BitVec 7) (a : BitVec 7) (b : BitVec 7)
  /-- `FMS` (R228): FP32 a × b − d. -/
  | fms (y : Bool) (d : BitVec 7) (a : BitVec 7) (b : BitVec 7)
  /-- `FNMA` (R228): FP32 −(a × b) + d. -/
  | fnma (y : Bool) (d : BitVec 7) (a : BitVec 7) (b : BitVec 7)
  /-- `FNMS` (R228): FP32 −(a × b) − d. -/
  | fnms (y : Bool) (d : BitVec 7) (a : BitVec 7) (b : BitVec 7)
  /-- `FMA_F64` (R228): FP64 fused multiply-add. -/
  | fmaF64 (y : Bool) (d : BitVec 7) (a : BitVec 7) (b : BitVec 7)
  /-- `FMS_F64` (R228): FP64 a × b − d. -/
  | fmsF64 (y : Bool) (d : BitVec 7) (a : BitVec 7) (b : BitVec 7)
  /-- `FNMA_F64` (R228): FP64 −(a × b) + d. -/
  | fnmaF64 (y : Bool) (d : BitVec 7) (a : BitVec 7) (b : BitVec 7)
  /-- `FNMS_F64` (R228): FP64 −(a × b) − d. -/
  | fnmsF64 (y : Bool) (d : BitVec 7) (a : BitVec 7) (b : BitVec 7)
  /-- `HADD2_F16` (R230): Packed FP16 add. -/
  | hadd2F16 (y : Bool) (d : BitVec 7) (a : BitVec 7) (b : BitVec 7)
  /-- `HMUL2_F16` (R230): Packed FP16 multiply. -/
  | hmul2F16 (y : Bool) (d : BitVec 7) (a : BitVec 7) (b : BitVec 7)
  /-- `HFMA2_F16` (R230): Packed FP16 fused multiply-add. -/
  | hfma2F16 (y : Bool) (d : BitVec 7) (a : BitVec 7) (b : BitVec 7)
  /-- `HADD2_BF16` (R230): Packed BF16 add. -/
  | hadd2Bf16 (y : Bool) (d : BitVec 7) (a : BitVec 7) (b : BitVec 7)
  /-- `HMUL2_BF16` (R230): Packed BF16 multiply. -/
  | hmul2Bf16 (y : Bool) (d : BitVec 7) (a : BitVec 7) (b : BitVec 7)
  /-- `HFMA2_BF16` (R230): Packed BF16 fused multiply-add. -/
  | hfma2Bf16 (y : Bool) (d : BitVec 7) (a : BitVec 7) (b : BitVec 7)
  /-- `HMIN2_F16` (R230): Packed FP16 minimum. -/
  | hmin2F16 (y : Bool) (d : BitVec 7) (a : BitVec 7) (b : BitVec 7)
  /-- `HMAX2_F16` (R230): Packed FP16 maximum. -/
  | hmax2F16 (y : Bool) (d : BitVec 7) (a : BitVec 7) (b : BitVec 7)
  /-- `FEQ` (R232): FP32 equality compare into a lane mask. -/
  | feq (y : Bool) (d : BitVec 7) (a : BitVec 7) (b : BitVec 7)
  /-- `FNE` (R232): FP32 not-equal compare. -/
  | fne (y : Bool) (d : BitVec 7) (a : BitVec 7) (b : BitVec 7)
  /-- `FLT` (R232): FP32 less-than compare. -/
  | flt (y : Bool) (d : BitVec 7) (a : BitVec 7) (b : BitVec 7)
  /-- `FLE` (R232): FP32 less-or-equal compare. -/
  | fle (y : Bool) (d : BitVec 7) (a : BitVec 7) (b : BitVec 7)
  /-- `FUN` (R232): FP32 unordered compare. -/
  | fun (y : Bool) (d : BitVec 7) (a : BitVec 7) (b : BitVec 7)
  /-- `FEQ_F64` (R232): FP64 equality compare. -/
  | feqF64 (y : Bool) (d : BitVec 7) (a : BitVec 7) (b : BitVec 7)
  /-- `FLT_F64` (R232): FP64 less-than compare. -/
  | fltF64 (y : Bool) (d : BitVec 7) (a : BitVec 7) (b : BitVec 7)
  /-- `FLE_F64` (R232): FP64 less-or-equal compare. -/
  | fleF64 (y : Bool) (d : BitVec 7) (a : BitVec 7) (b : BitVec 7)
  /-- `RCP` (R233): FP32 reciprocal. -/
  | rcp (y : Bool) (g : Bool) (d : BitVec 7) (a : BitVec 7)
  /-- `RSQ` (R233): FP32 reciprocal square root. -/
  | rsq (y : Bool) (g : Bool) (d : BitVec 7) (a : BitVec 7)
  /-- `SQRT` (R233): FP32 square root, correctly rounded. -/
  | sqrt (y : Bool) (g : Bool) (d : BitVec 7) (a : BitVec 7)
  /-- `EXP2` (R233): FP32 2^a. -/
  | exp2 (y : Bool) (g : Bool) (d : BitVec 7) (a : BitVec 7)
  /-- `LOG2` (R233): FP32 log2 a. -/
  | log2 (y : Bool) (g : Bool) (d : BitVec 7) (a : BitVec 7)
  /-- `SINPI` (R233): FP32 sin(πa). -/
  | sinpi (y : Bool) (g : Bool) (d : BitVec 7) (a : BitVec 7)
  /-- `COSPI` (R233): FP32 cos(πa). -/
  | cospi (y : Bool) (g : Bool) (d : BitVec 7) (a : BitVec 7)
  /-- `TANH` (R233): FP32 tanh a. -/
  | tanh (y : Bool) (g : Bool) (d : BitVec 7) (a : BitVec 7)
  /-- `CVT_F32_S32` (R234): S32 to FP32 conversion. -/
  | cvtF32S32 (y : Bool) (g : Bool) (d : BitVec 7) (a : BitVec 7) (s : BitVec 1) (m : BitVec 3)
  /-- `CVT_F32_N32` (R234): N32 to FP32 conversion. -/
  | cvtF32N32 (y : Bool) (g : Bool) (d : BitVec 7) (a : BitVec 7) (s : BitVec 1) (m : BitVec 3)
  /-- `CVT_S32_F32` (R234): FP32 to saturated S32. -/
  | cvtS32F32 (y : Bool) (g : Bool) (d : BitVec 7) (a : BitVec 7) (s : BitVec 1) (m : BitVec 3)
  /-- `CVT_N32_F32` (R234): FP32 to saturated N32. -/
  | cvtN32F32 (y : Bool) (g : Bool) (d : BitVec 7) (a : BitVec 7) (s : BitVec 1) (m : BitVec 3)
  /-- `CVT_F64_F32` (R234): FP32 to FP64, exact. -/
  | cvtF64F32 (y : Bool) (g : Bool) (d : BitVec 7) (a : BitVec 7) (s : BitVec 1) (m : BitVec 3)
  /-- `CVT_F32_F64` (R234): FP64 to FP32 rounded. -/
  | cvtF32F64 (y : Bool) (g : Bool) (d : BitVec 7) (a : BitVec 7) (s : BitVec 1) (m : BitVec 3)
  /-- `CVT_F64_S32` (R234): S32 to FP64, exact. -/
  | cvtF64S32 (y : Bool) (g : Bool) (d : BitVec 7) (a : BitVec 7) (s : BitVec 1) (m : BitVec 3)
  /-- `CVT_S32_F64` (R234): FP64 to saturated S32. -/
  | cvtS32F64 (y : Bool) (g : Bool) (d : BitVec 7) (a : BitVec 7) (s : BitVec 1) (m : BitVec 3)
  /-- `FADD_F64` (R229): FP64 add. -/
  | faddF64 (y : Bool) (d : BitVec 7) (a : BitVec 7) (b : BitVec 7)
  /-- `FSUB_F64` (R229): FP64 subtract. -/
  | fsubF64 (y : Bool) (d : BitVec 7) (a : BitVec 7) (b : BitVec 7)
  /-- `FMUL_F64` (R229): FP64 multiply. -/
  | fmulF64 (y : Bool) (d : BitVec 7) (a : BitVec 7) (b : BitVec 7)
  /-- `FMIN_F64` (R229): FP64 IEEE minimum. -/
  | fminF64 (y : Bool) (d : BitVec 7) (a : BitVec 7) (b : BitVec 7)
  /-- `FMAX_F64` (R229): FP64 IEEE maximum. -/
  | fmaxF64 (y : Bool) (d : BitVec 7) (a : BitVec 7) (b : BitVec 7)
  /-- `FRND_F32` (R229): Round FP32 to an integral value by the given mode. -/
  | frndF32 (y : Bool) (d : BitVec 7) (a : BitVec 7) (m : BitVec 3)
  /-- `FRND_F64` (R229): Round FP64 to an integral value by the given mode. -/
  | frndF64 (y : Bool) (d : BitVec 7) (a : BitVec 7) (m : BitVec 3)
  /-- `PACK_F16` (R231): Round two FP32 values into packed FP16. -/
  | packF16 (y : Bool) (d : BitVec 7) (a : BitVec 7) (b : BitVec 7)
  /-- `PACK_BF16` (R231): Round two FP32 values into packed BF16. -/
  | packBf16 (y : Bool) (d : BitVec 7) (a : BitVec 7) (b : BitVec 7)
  /-- `DOT2_F16` (R231): FP16 two-term dot product accumulated into FP32. -/
  | dot2F16 (y : Bool) (d : BitVec 7) (a : BitVec 7) (b : BitVec 7)
  /-- `DOT2_BF16` (R231): BF16 two-term dot product into FP32. -/
  | dot2Bf16 (y : Bool) (d : BitVec 7) (a : BitVec 7) (b : BitVec 7)
  /-- `DOT4_E4M3` (R231): E4M3 four-term dot product into FP32. -/
  | dot4E4m3 (y : Bool) (d : BitVec 7) (a : BitVec 7) (b : BitVec 7)
  /-- `DOT4_E5M2` (R231): E5M2 four-term dot product into FP32. -/
  | dot4E5m2 (y : Bool) (d : BitVec 7) (a : BitVec 7) (b : BitVec 7)
  /-- `DOT4_S8` (R231): Signed byte dot product into S32. -/
  | dot4S8 (y : Bool) (d : BitVec 7) (a : BitVec 7) (b : BitVec 7)
  /-- `DOT4_Z8` (R231): Unsigned byte dot product into S32. -/
  | dot4Z8 (y : Bool) (d : BitVec 7) (a : BitVec 7) (b : BitVec 7)
  /-- `CVTB_E4M3` (R235): Encode four FP32 registers into packed E4M3. -/
  | cvtbE4m3 (y : Bool) (d : BitVec 7) (a : BitVec 7) (s : BitVec 1) (m : BitVec 3)
  /-- `CVTB_E5M2` (R235): Encode four FP32 registers into packed E5M2. -/
  | cvtbE5m2 (y : Bool) (d : BitVec 7) (a : BitVec 7) (s : BitVec 1) (m : BitVec 3)
  /-- `CVTB_E2M3` (R235): Encode four FP32 registers into packed E2M3. -/
  | cvtbE2m3 (y : Bool) (d : BitVec 7) (a : BitVec 7) (s : BitVec 1) (m : BitVec 3)
  /-- `CVTB_E3M2` (R235): Encode four FP32 registers into packed E3M2. -/
  | cvtbE3m2 (y : Bool) (d : BitVec 7) (a : BitVec 7) (s : BitVec 1) (m : BitVec 3)
  /-- `CVTB_E2M1` (R235): Encode four FP32 registers into packed E2M1. -/
  | cvtbE2m1 (y : Bool) (d : BitVec 7) (a : BitVec 7) (s : BitVec 1) (m : BitVec 3)
  /-- `XCVT_E4M3` (R235): Decode packed E4M3 elements exactly. -/
  | xcvtE4m3 (y : Bool) (d : BitVec 7) (a : BitVec 7) (f : BitVec 2)
  /-- `XCVT_E5M2` (R235): Decode packed E5M2 elements exactly. -/
  | xcvtE5m2 (y : Bool) (d : BitVec 7) (a : BitVec 7) (f : BitVec 2)
  /-- `XCVT_E2M1` (R235): Decode packed E2M1 elements exactly. -/
  | xcvtE2m1 (y : Bool) (d : BitVec 7) (a : BitVec 7) (f : BitVec 2)
  /-- `ADDI` (R218): Add a sign-extended 10-bit immediate. -/
  | addi (y : Bool) (g : Bool) (d : BitVec 7) (a : BitVec 7) (i : BitVec 10)
  /-- `ANDI` (R218): AND with a sign-extended 10-bit immediate. -/
  | andi (y : Bool) (g : Bool) (d : BitVec 7) (a : BitVec 7) (i : BitVec 10)
  /-- `ORI` (R218): OR with a zero-extended 10-bit immediate. -/
  | ori (y : Bool) (g : Bool) (d : BitVec 7) (a : BitVec 7) (i : BitVec 10)
  /-- `MOVI` (R218): Load a sign-extended 17-bit immediate. -/
  | movi (y : Bool) (g : Bool) (d : BitVec 7) (i : BitVec 17)
  /-- `LIT32` (R219): Write the following literal word to d. -/
  | lit32 (y : Bool) (g : Bool) (d : BitVec 7)
  /-- `LIT64` (R219): Write the following two literal words to the even pair d. -/
  | lit64 (y : Bool) (g : Bool) (d : BitVec 7)
  /-- `SHLI` (R210): Shift left by an immediate. -/
  | shli (y : Bool) (g : Bool) (d : BitVec 7) (a : BitVec 7) (s : BitVec 6)
  /-- `SHRI` (R210): Logical shift right by an immediate. -/
  | shri (y : Bool) (g : Bool) (d : BitVec 7) (a : BitVec 7) (s : BitVec 6)
  /-- `SARI` (R210): Arithmetic shift right by an immediate. -/
  | sari (y : Bool) (g : Bool) (d : BitVec 7) (a : BitVec 7) (s : BitVec 6)
  /-- `ROLI` (R210): Rotate left by an immediate. -/
  | roli (y : Bool) (g : Bool) (d : BitVec 7) (a : BitVec 7) (s : BitVec 6)
  /-- `RORI` (R210): Rotate right by an immediate. -/
  | rori (y : Bool) (g : Bool) (d : BitVec 7) (a : BitVec 7) (s : BitVec 6)
  /-- `SHL_WI` (R210): 64-bit shift left by an immediate. -/
  | shlWi (y : Bool) (g : Bool) (d : BitVec 7) (a : BitVec 7) (s : BitVec 6)
  /-- `SHR_WI` (R210): 64-bit logical shift right by an immediate. -/
  | shrWi (y : Bool) (g : Bool) (d : BitVec 7) (a : BitVec 7) (s : BitVec 6)
  /-- `SAR_WI` (R210): 64-bit arithmetic shift right by an immediate. -/
  | sarWi (y : Bool) (g : Bool) (d : BitVec 7) (a : BitVec 7) (s : BitVec 6)
  /-- `SHFL_IDX` (R220): Read a from the lane indexed by b. -/
  | shflIdx (y : Bool) (d : BitVec 7) (a : BitVec 7) (b : BitVec 7)
  /-- `SHFL_UP` (R220): Read a from lane ln − k. -/
  | shflUp (y : Bool) (d : BitVec 7) (a : BitVec 7) (b : BitVec 7)
  /-- `SHFL_DN` (R220): Read a from lane ln + k. -/
  | shflDn (y : Bool) (d : BitVec 7) (a : BitVec 7) (b : BitVec 7)
  /-- `SHFL_XOR` (R220): Read a from lane ln XOR k. -/
  | shflXor (y : Bool) (d : BitVec 7) (a : BitVec 7) (b : BitVec 7)
  /-- `BCAST` (R220): Copy the lowest active lane's a into a g-register. -/
  | bcast (y : Bool) (d : BitVec 7) (a : BitVec 7)
  /-- `VSET` (R220): Expand a g mask into all-ones or zero lane values. -/
  | vset (y : Bool) (d : BitVec 7) (a : BitVec 4)
  /-- `REDADD` (R220): Sum a over active lanes into a g-register. -/
  | redadd (y : Bool) (d : BitVec 7) (a : BitVec 7)
  /-- `REDMAX_S` (R220): Signed maximum of a over active lanes into a g-register. -/
  | redmaxS (y : Bool) (d : BitVec 7) (a : BitVec 7)
  /-- `MPOPC` (R221): Count the 1 bits of a mask. -/
  | mpopc (y : Bool) (d : BitVec 7) (a : BitVec 7)
  /-- `MFFS` (R221): Index of the lowest set bit of a mask. -/
  | mffs (y : Bool) (d : BitVec 7) (a : BitVec 7)
  /-- `MFLS` (R221): Index of the highest set bit of a mask. -/
  | mfls (y : Bool) (d : BitVec 7) (a : BitVec 7)
  /-- `MTEST` (R221): Predicate := (ga AND gb) ≠ 0. -/
  | mtest (y : Bool) (d : BitVec 3) (a : BitVec 7) (b : BitVec 7)
  /-- `QAND` (R221): Predicate AND. -/
  | qand (y : Bool) (d : BitVec 3) (a : BitVec 3) (b : BitVec 3)
  /-- `QOR` (R221): Predicate OR. -/
  | qor (y : Bool) (d : BitVec 3) (a : BitVec 3) (b : BitVec 3)
  /-- `QXOR` (R221): Predicate XOR. -/
  | qxor (y : Bool) (d : BitVec 3) (a : BitVec 3) (b : BitVec 3)
  /-- `QNOT` (R221): Predicate NOT. -/
  | qnot (y : Bool) (d : BitVec 3) (a : BitVec 3)
  /-- `MOV` (R222): Copy a value into a v-register in active lanes. -/
  | mov (y : Bool) (d : BitVec 7) (a : BitVec 7)
  /-- `MOVG` (R222): Copy a g-register. -/
  | movg (y : Bool) (d : BitVec 7) (a : BitVec 7)
  /-- `MOVV` (R222): Copy a 64-bit v pair. -/
  | movv (y : Bool) (d : BitVec 7) (a : BitVec 7)
  /-- `MOVQ` (R222): Predicate := g-register ≠ 0. -/
  | movq (y : Bool) (d : BitVec 3) (a : BitVec 7)
  /-- `QMOV` (R222): g-register := predicate as 0 or 1. -/
  | qmov (y : Bool) (d : BitVec 7) (a : BitVec 3)
  /-- `LD_S8` (R171): Load a sign-extended byte through a record. -/
  | ldS8 (y : Bool) (g : Bool) (d : BitVec 7) (a : BitVec 7) (r : BitVec 7)
  /-- `LD_Z8` (R171): Load a zero-extended byte. -/
  | ldZ8 (y : Bool) (g : Bool) (d : BitVec 7) (a : BitVec 7) (r : BitVec 7)
  /-- `LD_S16` (R171): Load a sign-extended half-word. -/
  | ldS16 (y : Bool) (g : Bool) (d : BitVec 7) (a : BitVec 7) (r : BitVec 7)
  /-- `LD_Z16` (R171): Load a zero-extended half-word. -/
  | ldZ16 (y : Bool) (g : Bool) (d : BitVec 7) (a : BitVec 7) (r : BitVec 7)
  /-- `LD_32` (R171): Load a word. -/
  | ld32 (y : Bool) (g : Bool) (d : BitVec 7) (a : BitVec 7) (r : BitVec 7)
  /-- `LD_64` (R171): Load a double word into a pair. -/
  | ld64 (y : Bool) (g : Bool) (d : BitVec 7) (a : BitVec 7) (r : BitVec 7)
  /-- `LD_128` (R171): Load 16 bytes into four registers. -/
  | ld128 (y : Bool) (g : Bool) (d : BitVec 7) (a : BitVec 7) (r : BitVec 7)
  /-- `LD_E` (R171): Load EPA elements converted by the record's encoding and format. -/
  | ldE (y : Bool) (g : Bool) (d : BitVec 7) (a : BitVec 7) (r : BitVec 7)
  /-- `ST_8` (R172): Store a byte. -/
  | st8 (y : Bool) (g : Bool) (d : BitVec 7) (a : BitVec 7) (r : BitVec 7)
  /-- `ST_16` (R172): Store a half-word. -/
  | st16 (y : Bool) (g : Bool) (d : BitVec 7) (a : BitVec 7) (r : BitVec 7)
  /-- `ST_32` (R172): Store a word. -/
  | st32 (y : Bool) (g : Bool) (d : BitVec 7) (a : BitVec 7) (r : BitVec 7)
  /-- `ST_64` (R172): Store a double word. -/
  | st64 (y : Bool) (g : Bool) (d : BitVec 7) (a : BitVec 7) (r : BitVec 7)
  /-- `ST_128` (R172): Store 16 bytes. -/
  | st128 (y : Bool) (g : Bool) (d : BitVec 7) (a : BitVec 7) (r : BitVec 7)
  /-- `ST_E` (R172): Store EPA elements converted into the record's encoding. -/
  | stE (y : Bool) (g : Bool) (d : BitVec 7) (a : BitVec 7) (r : BitVec 7)
  /-- `ATOM_ADD` (R177): Atomic wrapping add returning the old value. -/
  | atomAdd (y : Bool) (d : BitVec 7) (a : BitVec 7) (s : BitVec 2) (r : BitVec 5)
  /-- `ATOM_MIN_S` (R177): Atomic signed minimum. -/
  | atomMinS (y : Bool) (d : BitVec 7) (a : BitVec 7) (s : BitVec 2) (r : BitVec 5)
  /-- `ATOM_MAX_S` (R177): Atomic signed maximum. -/
  | atomMaxS (y : Bool) (d : BitVec 7) (a : BitVec 7) (s : BitVec 2) (r : BitVec 5)
  /-- `ATOM_MIN_N` (R177): Atomic unsigned minimum. -/
  | atomMinN (y : Bool) (d : BitVec 7) (a : BitVec 7) (s : BitVec 2) (r : BitVec 5)
  /-- `ATOM_MAX_N` (R177): Atomic unsigned maximum. -/
  | atomMaxN (y : Bool) (d : BitVec 7) (a : BitVec 7) (s : BitVec 2) (r : BitVec 5)
  /-- `ATOM_AND` (R177): Atomic AND. -/
  | atomAnd (y : Bool) (d : BitVec 7) (a : BitVec 7) (s : BitVec 2) (r : BitVec 5)
  /-- `ATOM_OR` (R177): Atomic OR. -/
  | atomOr (y : Bool) (d : BitVec 7) (a : BitVec 7) (s : BitVec 2) (r : BitVec 5)
  /-- `ATOM_EXCH` (R177): Atomic exchange. -/
  | atomExch (y : Bool) (d : BitVec 7) (a : BitVec 7) (s : BitVec 2) (r : BitVec 5)
  /-- `ATOMX_CAS` (R177): Atomic 32-bit compare-and-swap. -/
  | atomxCas (y : Bool) (d : BitVec 7) (a : BitVec 7) (s : BitVec 2) (r : BitVec 5)
  /-- `ATOMX_XOR` (R177): Atomic XOR. -/
  | atomxXor (y : Bool) (d : BitVec 7) (a : BitVec 7) (s : BitVec 2) (r : BitVec 5)
  /-- `ATOMX_FADD` (R176): Atomic FP32 add at the location. -/
  | atomxFadd (y : Bool) (d : BitVec 7) (a : BitVec 7) (s : BitVec 2) (r : BitVec 5)
  /-- `ATOMX_FMIN` (R176): Atomic FP32 minimum. -/
  | atomxFmin (y : Bool) (d : BitVec 7) (a : BitVec 7) (s : BitVec 2) (r : BitVec 5)
  /-- `ATOMX_FMAX` (R176): Atomic FP32 maximum. -/
  | atomxFmax (y : Bool) (d : BitVec 7) (a : BitVec 7) (s : BitVec 2) (r : BitVec 5)
  /-- `ATOMX_ADD64` (R177): Atomic 64-bit add. -/
  | atomxAdd64 (y : Bool) (d : BitVec 7) (a : BitVec 7) (s : BitVec 2) (r : BitVec 5)
  /-- `ATOMX_CAS64` (R177): Atomic 64-bit compare-and-swap. -/
  | atomxCas64 (y : Bool) (d : BitVec 7) (a : BitVec 7) (s : BitVec 2) (r : BitVec 5)
  /-- `ATOMX_INCW` (R177): Atomic wrapping increment bounded by op. -/
  | atomxIncw (y : Bool) (d : BitVec 7) (a : BitVec 7) (s : BitVec 2) (r : BitVec 5)
  /-- `RED_ADD` (R177): Non-returning atomic add. -/
  | redAdd (y : Bool) (d : BitVec 7) (a : BitVec 7) (s : BitVec 2) (r : BitVec 5)
  /-- `RED_MIN_S` (R177): Non-returning signed minimum. -/
  | redMinS (y : Bool) (d : BitVec 7) (a : BitVec 7) (s : BitVec 2) (r : BitVec 5)
  /-- `RED_MAX_S` (R177): Non-returning signed maximum. -/
  | redMaxS (y : Bool) (d : BitVec 7) (a : BitVec 7) (s : BitVec 2) (r : BitVec 5)
  /-- `RED_MIN_N` (R177): Non-returning unsigned minimum. -/
  | redMinN (y : Bool) (d : BitVec 7) (a : BitVec 7) (s : BitVec 2) (r : BitVec 5)
  /-- `RED_MAX_N` (R177): Non-returning unsigned maximum. -/
  | redMaxN (y : Bool) (d : BitVec 7) (a : BitVec 7) (s : BitVec 2) (r : BitVec 5)
  /-- `RED_AND` (R177): Non-returning AND. -/
  | redAnd (y : Bool) (d : BitVec 7) (a : BitVec 7) (s : BitVec 2) (r : BitVec 5)
  /-- `RED_OR` (R177): Non-returning OR. -/
  | redOr (y : Bool) (d : BitVec 7) (a : BitVec 7) (s : BitVec 2) (r : BitVec 5)
  /-- `RED_FADD` (R176): Non-returning FP32 add. -/
  | redFadd (y : Bool) (d : BitVec 7) (a : BitVec 7) (s : BitVec 2) (r : BitVec 5)
  /-- `LDL_S8` (R179): Local load of a sign-extended byte. -/
  | ldlS8 (y : Bool) (d : BitVec 7) (a : BitVec 7) (o : BitVec 7)
  /-- `LDL_Z8` (R179): Local load of a zero-extended byte. -/
  | ldlZ8 (y : Bool) (d : BitVec 7) (a : BitVec 7) (o : BitVec 7)
  /-- `LDL_S16` (R179): Local load of a sign-extended half-word. -/
  | ldlS16 (y : Bool) (d : BitVec 7) (a : BitVec 7) (o : BitVec 7)
  /-- `LDL_Z16` (R179): Local load of a zero-extended half-word. -/
  | ldlZ16 (y : Bool) (d : BitVec 7) (a : BitVec 7) (o : BitVec 7)
  /-- `LDL_32` (R179): Local load of a word. -/
  | ldl32 (y : Bool) (d : BitVec 7) (a : BitVec 7) (o : BitVec 7)
  /-- `LDL_64` (R179): Local load of a double word. -/
  | ldl64 (y : Bool) (d : BitVec 7) (a : BitVec 7) (o : BitVec 7)
  /-- `LDL_128` (R179): Local load of 16 bytes. -/
  | ldl128 (y : Bool) (d : BitVec 7) (a : BitVec 7) (o : BitVec 7)
  /-- `STL_8` (R179): Local store of a byte. -/
  | stl8 (y : Bool) (d : BitVec 7) (a : BitVec 7) (o : BitVec 7)
  /-- `STL_16` (R179): Local store of a half-word. -/
  | stl16 (y : Bool) (d : BitVec 7) (a : BitVec 7) (o : BitVec 7)
  /-- `STL_32` (R179): Local store of a word. -/
  | stl32 (y : Bool) (d : BitVec 7) (a : BitVec 7) (o : BitVec 7)
  /-- `STL_64` (R179): Local store of a double word. -/
  | stl64 (y : Bool) (d : BitVec 7) (a : BitVec 7) (o : BitVec 7)
  /-- `STL_128` (R179): Local store of 16 bytes. -/
  | stl128 (y : Bool) (d : BitVec 7) (a : BitVec 7) (o : BitVec 7)
  /-- `ATOML_ADD` (R179): Local atomic add. -/
  | atomlAdd (y : Bool) (d : BitVec 7) (a : BitVec 7) (o : BitVec 7)
  /-- `ATOML_MIN_S` (R179): Local atomic signed minimum. -/
  | atomlMinS (y : Bool) (d : BitVec 7) (a : BitVec 7) (o : BitVec 7)
  /-- `ATOML_MAX_S` (R179): Local atomic signed maximum. -/
  | atomlMaxS (y : Bool) (d : BitVec 7) (a : BitVec 7) (o : BitVec 7)
  /-- `ATOML_AND` (R179): Local atomic AND. -/
  | atomlAnd (y : Bool) (d : BitVec 7) (a : BitVec 7) (o : BitVec 7)
  /-- `ATOML_OR` (R179): Local atomic OR. -/
  | atomlOr (y : Bool) (d : BitVec 7) (a : BitVec 7) (o : BitVec 7)
  /-- `ATOML_EXCH` (R179): Local atomic exchange. -/
  | atomlExch (y : Bool) (d : BitVec 7) (a : BitVec 7) (o : BitVec 7)
  /-- `ATOML_CAS` (R179): Local atomic compare-and-swap. -/
  | atomlCas (y : Bool) (d : BitVec 7) (a : BitVec 7) (o : BitVec 7)
  /-- `ATOML_FADD` (R179): Local atomic FP32 add. -/
  | atomlFadd (y : Bool) (d : BitVec 7) (a : BitVec 7) (o : BitVec 7)
  /-- `PREF` (R180): Prefetch a line into L2 and L1. -/
  | pref (y : Bool) (a : BitVec 7) (r : BitVec 7)
  /-- `PREFX` (R180): Prefetch a line into L2 and move it to the near slice. -/
  | prefx (y : Bool) (a : BitVec 7) (r : BitVec 7)
  /-- `EVICT` (R180): Recall, write back and invalidate a line. -/
  | evict (y : Bool) (a : BitVec 7) (r : BitVec 7)
  /-- `CPY_GL` (R139): Enqueue a byte copy from global memory to scratchpad. -/
  | cpyGl (y : Bool) (d : BitVec 4) (a : BitVec 4) (b : BitVec 4)
  /-- `CPY_LG` (R139): Enqueue a byte copy from scratchpad to global memory. -/
  | cpyLg (y : Bool) (d : BitVec 4) (a : BitVec 4) (b : BitVec 4)
  /-- `CPY_GG` (R139): Enqueue a global-to-global byte copy. -/
  | cpyGg (y : Bool) (d : BitVec 4) (a : BitVec 4) (b : BitVec 4)
  /-- `CPT_GL` (R139): Snapshot a shape record and enqueue a tensor box copy into scratchpad. -/
  | cptGl (y : Bool) (d : BitVec 4) (a : BitVec 4) (b : BitVec 2)
  /-- `CPT_LG` (R139): Snapshot a shape record and enqueue a tensor box copy to global memory. -/
  | cptLg (y : Bool) (d : BitVec 4) (a : BitVec 4) (b : BitVec 2)
  /-- `CPBATCH` (R140): Close the open copy batch, optionally naming a completion record. -/
  | cpbatch (y : Bool) (a : BitVec 4)
  /-- `CPWAIT` (R141): Wait until a batch has completed and return and clear the failure latch. -/
  | cpwait (y : Bool) (d : BitVec 7) (a : BitVec 4)
  /-- `RECFENCE` (R142): Wait for SC and invalidate the core's record-cache entries of the ASID. -/
  | recfence (y : Bool)
  /-- `TLD` (R252): Load n tile elements per lane into registers. -/
  | tld (y : Bool) (d : BitVec 7) (a : BitVec 4) (n : BitVec 4)
  /-- `TST` (R252): Store n registers per lane into the tile. -/
  | tst (y : Bool) (d : BitVec 7) (a : BitVec 4) (n : BitVec 4)
  /-- `TLDG` (R254): Copy global memory into a tile region. -/
  | tldg (y : Bool) (d : BitVec 4) (a : BitVec 4) (b : BitVec 4)
  /-- `TSTG` (R254): Copy a tile region into global memory. -/
  | tstg (y : Bool) (d : BitVec 4) (a : BitVec 4) (b : BitVec 4)
  /-- `TZERO` (R255): Write +0 to a tile region. -/
  | tzero (y : Bool) (d : BitVec 4) (b : BitVec 4)
  /-- `TCVT` (R256): Convert an FP32 tile region into a narrow format. -/
  | tcvt (y : Bool) (d : BitVec 4) (a : BitVec 4) (b : BitVec 4)
  /-- `MMA_E4M3` (R247): Quorum matrix multiply-accumulate of E4M3 fragments. -/
  | mmaE4m3 (y : Bool) (d : BitVec 4) (a : BitVec 7) (b : BitVec 7)
  /-- `MMA_E5M2` (R247): Quorum MMA of E5M2 fragments. -/
  | mmaE5m2 (y : Bool) (d : BitVec 4) (a : BitVec 7) (b : BitVec 7)
  /-- `MMA_BF16` (R247): Quorum MMA of BF16 fragments. -/
  | mmaBf16 (y : Bool) (d : BitVec 4) (a : BitVec 7) (b : BitVec 7)
  /-- `MMA_F16` (R247): Quorum MMA of FP16 fragments. -/
  | mmaF16 (y : Bool) (d : BitVec 4) (a : BitVec 7) (b : BitVec 7)
  /-- `MMA_MXE4M3` (R247): Quorum MMA of MX-scaled E4M3 fragments. -/
  | mmaMxe4m3 (y : Bool) (d : BitVec 4) (a : BitVec 7) (b : BitVec 7)
  /-- `MMA_MXE2M3` (R247): Quorum MMA of MX-scaled E2M3 fragments. -/
  | mmaMxe2m3 (y : Bool) (d : BitVec 4) (a : BitVec 7) (b : BitVec 7)
  /-- `MMA_MXE2M1` (R247): Quorum MMA of MX-scaled E2M1 fragments. -/
  | mmaMxe2m1 (y : Bool) (d : BitVec 4) (a : BitVec 7) (b : BitVec 7)
  /-- `MMA_S8` (R247): Quorum MMA of S8 fragments into S32. -/
  | mmaS8 (y : Bool) (d : BitVec 4) (a : BitVec 7) (b : BitVec 7)
  /-- `QSET` (R258): Set QUORUMREG and reset the arrival count. -/
  | qset (y : Bool) (a : BitVec 4)
  /-- `QARR` (R259): Wait for MC and add 1 to the arrival count. -/
  | qarr (y : Bool)
  /-- `QWAIT` (R259): Wait until every member's arrival count reaches this wave's. -/
  | qwait (y : Bool)
  /-- `QDROP` (R260): Wait for MC and clear QUORUMREG. -/
  | qdrop (y : Bool)
  /-- `SAMP` (R281): Filtered texture sample with quad gradients. -/
  | samp (y : Bool) (d : BitVec 7) (a : BitVec 7) (r : BitVec 7)
  /-- `SAMPG` (R281): Filtered sample with given gradients. -/
  | sampg (y : Bool) (d : BitVec 7) (a : BitVec 7) (r : BitVec 7)
  /-- `SAMPB` (R281): Filtered sample with quad gradients and bias. -/
  | sampb (y : Bool) (d : BitVec 7) (a : BitVec 7) (r : BitVec 7)
  /-- `FETCH` (R281): Read one texel at a given level. -/
  | fetch (y : Bool) (d : BitVec 7) (a : BitVec 7) (r : BitVec 7)
  /-- `FETCHF` (R281): Read one texel with a fallback status word. -/
  | fetchf (y : Bool) (d : BitVec 7) (a : BitVec 7) (r : BitVec 7)
  /-- `GATH4` (R281): Gather one channel of the four bilinear texels. -/
  | gath4 (y : Bool) (d : BitVec 7) (a : BitVec 7) (r : BitVec 7)
  /-- `RESQ` (R281): Return a level's size, level count and format. -/
  | resq (y : Bool) (d : BitVec 7) (a : BitVec 7) (r : BitVec 7)
  /-- `RAYLD` (R282): Load each active lane's ray. -/
  | rayld (y : Bool) (a : BitVec 7)
  /-- `BOXT` (R283): Test each lane's ray against eight child boxes. -/
  | boxt (y : Bool) (d : BitVec 7) (a : BitVec 7)
  /-- `TRIT` (R284): Test each lane's ray against a triangle. -/
  | trit (y : Bool) (d : BitVec 7) (a : BitVec 7)
  /-- `STKINIT` (R285): Set up the traversal stack run and spill area. -/
  | stkinit (y : Bool) (d : BitVec 7) (a : BitVec 4) (b : BitVec 4)
  /-- `STKPUSH` (R285): Push a value on each active lane's stack. -/
  | stkpush (y : Bool) (a : BitVec 7)
  /-- `STKPOP` (R285): Pop each active lane's stack. -/
  | stkpop (y : Bool) (d : BitVec 7)
  /-- `ORDB_PX` (R291): Wait on earlier fragments of the pixel, then acquire. -/
  | ordbPx (y : Bool)
  /-- `ORDB_SMP` (R291): Wait on earlier fragments of the covered samples, then acquire. -/
  | ordbSmp (y : Bool)
  /-- `ORDE` (R291): Release and free the active lanes' order places. -/
  | orde (y : Bool)
  /-- `FRAG` (R289): Release the previous batch and hand out the next fragment batch of a raster job. -/
  | frag (y : Bool) (d : BitVec 7) (a : BitVec 4)
  /-- `COVER` (R290): Return a fragment's coverage, barycentrics and depth. -/
  | cover (y : Bool) (d : BitVec 7) (a : BitVec 7)
  /-- `SCQ` (R301): Query the shading-cache tag store for each lane's key. -/
  | scq (y : Bool) (d : BitVec 7) (a : BitVec 7)
  /-- `SCWAIT` (R316): Wait until each lane's token is published, aborted or dead. -/
  | scwait (y : Bool) (d : BitVec 7) (a : BitVec 7)
  /-- `SCPUB` (R305): Fence and publish a live token's tile. -/
  | scpub (y : Bool) (d : BitVec 7) (a : BitVec 4)
  /-- `SCABORT` (R306): Abort a live token's tile job. -/
  | scabort (y : Bool) (d : BitVec 7) (a : BitVec 4)
  /-- `SCINV` (R318): Advance an object's epoch. -/
  | scinv (y : Bool) (d : BitVec 7) (a : BitVec 7)
  /-- `SCPIN` (R319): Raise the pin of a key's VALID entry. -/
  | scpin (y : Bool) (d : BitVec 7) (a : BitVec 7)
  /-- `SCUNPIN` (R319): Lower the pin of a key's VALID entry. -/
  | scunpin (y : Bool) (d : BitVec 7) (a : BitVec 7)
  /-- `SCTICK` (R308): Advance FRAME, age entries, clear ABORTED entries and free quarantined slots. -/
  | sctick (y : Bool)
  /-- `BR` (R348): Unconditional branch of the whole path. -/
  | br (y : Bool) (o : BitVec 18)
  /-- `BR_Q` (R348): Branch when a predicate is true. -/
  | brQ (y : Bool) (q : BitVec 3) (o : BitVec 18)
  /-- `BR_NQ` (R348): Branch when a predicate is false. -/
  | brNq (y : Bool) (q : BitVec 3) (o : BitVec 18)
  /-- `BR_Z` (R348): Branch when the path's EXM is zero. -/
  | brZ (y : Bool) (o : BitVec 18)
  /-- `BR_NZ` (R348): Branch when the path's EXM is non-zero. -/
  | brNz (y : Bool) (o : BitVec 18)
  /-- `BR_FULL` (R348): Branch when EXM equals the path's full mask. -/
  | brFull (y : Bool) (o : BitVec 18)
  /-- `JMP` (R350): Jump the whole path to a g-register target. -/
  | jmp (y : Bool) (a : BitVec 4)
  /-- `CALL` (R350): Check the entry word's budget, write the link and call one target. -/
  | call (y : Bool) (d : BitVec 7) (a : BitVec 4)
  /-- `CALLI` (R351): Indirect per-lane call, splitting the path by target after budget checks. -/
  | calli (y : Bool) (d : BitVec 7) (a : BitVec 7)
  /-- `RET` (R351): Return to per-lane targets, splitting the path by target. -/
  | ret (y : Bool) (a : BitVec 7)
  /-- `JMPI` (R351): Per-lane indirect jump, splitting the path by target. -/
  | jmpi (y : Bool) (a : BitVec 7)
  /-- `PSPLIT` (R354): Move masked lanes into a new path at a target header. -/
  | psplit (y : Bool) (d : BitVec 7) (i : BitVec 14)
  /-- `PJOIN` (R344): Wait at a join and merge with children and parent. -/
  | pjoin (y : Bool)
  /-- `PYIELD` (R355): Mark the path to be passed over once. -/
  | pyield (y : Bool)
  /-- `MELD` (R357): Open a melded region of n instructions with a side mask and rename pair. -/
  | meld (y : Bool) (d : BitVec 7) (p : BitVec 2) (n : BitVec 6)
  /-- `MELDE` (R358): Close the melded region. -/
  | melde (y : Bool)
  /-- `PREN` (R356): Write one rename-table entry. -/
  | pren (y : Bool) (a : BitVec 7) (e : BitVec 4) (p : BitVec 2) (s : BitVec 1) (b : BitVec 7)
  /-- `BAR_SYNC` (R381): Release, arrive at a block barrier and wait, then acquire. -/
  | barSync (y : Bool) (k : BitVec 4)
  /-- `BAR_ARR` (R381): Release and arrive at a block barrier. -/
  | barArr (y : Bool) (k : BitVec 4)
  /-- `BAR_WAIT` (R381): Wait for the block barrier generation of the latest arrival. -/
  | barWait (y : Bool) (k : BitVec 4)
  /-- `CBAR_SYNC` (R381): Release, ticket-check, arrive at a cluster barrier and wait. -/
  | cbarSync (y : Bool) (k : BitVec 3)
  /-- `CBAR_ARR` (R381): Release, ticket-check and arrive at a cluster barrier. -/
  | cbarArr (y : Bool) (k : BitVec 3)
  /-- `CBAR_WAIT` (R381): Wait for a cluster barrier generation. -/
  | cbarWait (y : Bool) (k : BitVec 3)
  /-- `GBAR_ARR` (R382): Release, set the grid latch and send an arrival to the CP. -/
  | gbarArr (y : Bool) (d : BitVec 7)
  /-- `GBAR_WAIT` (R382): Wait for the grid latch's release, raising STALE when diverted. -/
  | gbarWait (y : Bool)
  /-- `FENCE_ACQ` (R326): Acquire fence at a scope. -/
  | fenceAcq (y : Bool) (s : BitVec 2)
  /-- `FENCE_REL` (R326): Release fence at a scope. -/
  | fenceRel (y : Bool) (s : BitVec 2)
  /-- `FENCE_AR` (R326): Release then acquire fence. -/
  | fenceAr (y : Bool) (s : BitVec 2)
  /-- `FENCE_SC` (R326): Release, take a place in the scope's total order, then acquire. -/
  | fenceSc (y : Bool) (s : BitVec 2)
  /-- `YIELD` (R329): Give way to another wave of the lane pair. -/
  | yield_ (y : Bool)
  /-- `SLEEP` (R329): Issue nothing for n × 64 cycles. -/
  | sleep (y : Bool) (n : BitVec 14)
  /-- `WATCH_PHASE` (R334): Retire the wave's watch-mode writer records. -/
  | watchPhase (y : Bool)
  /-- `RPUSH` (R377): Release and push an entry onto a scratchpad stage ring. -/
  | rpush (y : Bool) (a : BitVec 7) (b : BitVec 7)
  /-- `RPOP` (R377): Pop an entry from a stage ring, then acquire. -/
  | rpop (y : Bool) (d : BitVec 7) (a : BitVec 7)
  /-- `RPEEK` (R377): Read a stage ring's fill, closed and phase state. -/
  | rpeek (y : Bool) (d : BitVec 7) (a : BitVec 7)
  /-- `RCLOSE` (R377): Release and close a stage ring. -/
  | rclose (y : Bool) (a : BitVec 7)
  /-- `TRAP` (R397): Take a SOFT trap to the handler. -/
  | trap (y : Bool) (n : BitVec 14)
  /-- `TFENCE` (R398): Raise ARITH when floating traps are pending. -/
  | tfence (y : Bool)
  /-- `BRK` (R397): Take a BRK trap, or a debugger hold when attached. -/
  | brk (y : Bool) (n : BitVec 14)
  /-- `EXIT` (R399): Make the issuing path DONE, retiring the wave with its last path. -/
  | exit (y : Bool)
  /-- `TCLR` (R398): Clear selected flags and pending traps. -/
  | tclr (y : Bool) (m : BitVec 5) (m2 : BitVec 5)
  /-- `TRET` (R400): Return from the trap handler to TPC and CPOS. -/
  | tret (y : Bool)
  /-- `XREG_ACQ` (R150): Acquire the pair's extended-register lock. -/
  | xregAcq (y : Bool)
  /-- `XREG_REL` (R150): Wait for LC, CC and MC and release the extended-register lock. -/
  | xregRel (y : Bool)
  /-- `SRD` (R401): Read a special register. -/
  | srd (y : Bool) (g : Bool) (d : BitVec 7) (i : BitVec 8)
  /-- `SWR` (R402): Write a special register, checking its rules. -/
  | swr (y : Bool) (g : Bool) (d : BitVec 7) (i : BitVec 8)
  /-- `SRDL` (R401): Read a special-register pair in one step. -/
  | srdl (y : Bool) (g : Bool) (d : BitVec 7) (i : BitVec 8)
  /-- `INVR` (R85): Invalidate translations and cached lines of an IA range, kind TRANS. -/
  | invr (y : Bool) (a : BitVec 4) (b : BitVec 4)
  /-- `INVR_RANGEDESC` (R85): Reload range descriptors of an ASID in every core holding them. -/
  | invrRangedesc (y : Bool) (a : BitVec 4) (b : BitVec 4)
  /-- `REPLAY_BY_PAGE` (R86): Replay wait-table entries of a granule in every core, through its home translator. -/
  | replayByPage (y : Bool) (a : BitVec 4) (b : BitVec 4)
  /-- `REPLAY_BY_TOKEN` (R86): Replay the one wait-table entry named by a token. -/
  | replayByToken (y : Bool) (a : BitVec 4) (b : BitVec 4)
  /-- `PIN` (R87): Walk and raise the pin counts of a granule range, all or nothing. -/
  | pin (y : Bool) (d : BitVec 7) (a : BitVec 4) (b : BitVec 4)
  /-- `UNPIN` (R87): Lower the pin counts of a granule range. -/
  | unpin (y : Bool) (d : BitVec 7) (a : BitVec 4) (b : BitVec 4)
  /-- `MIGR` (R88): Read a 32-byte migration command, check it and hand it to the migration engine. -/
  | migr (y : Bool) (d : BitVec 7) (a : BitVec 4)
  /-- `FRPOP` (R89): Pop the record at HEAD of the world's fault ring. -/
  | frpop (y : Bool) (d : BitVec 7)
  /-- `DBGHALT` (R439): Request a halt of a path of the attached block. -/
  | dbghalt (y : Bool) (d : BitVec 7) (a : BitVec 4)
  /-- `DBGRES` (R439): Request the resumption of a held path. -/
  | dbgres (y : Bool) (d : BitVec 7) (a : BitVec 4)
  /-- `RST` (R182): Remote store sent past L2 to a fabric port. -/
  | rst (y : Bool) (d : BitVec 7) (a : BitVec 7) (r : BitVec 7)
  /-- `RLD` (R182): Remote load through a fabric port. -/
  | rld (y : Bool) (d : BitVec 7) (a : BitVec 7) (r : BitVec 7)
  /-- `RATOM` (R182): Remote atomic with its op from vd+1. -/
  | ratom (y : Bool) (d : BitVec 7) (a : BitVec 7) (r : BitVec 7)
  /-- `RFENCE` (R183): Wait until every earlier remote access is acknowledged. -/
  | rfence (y : Bool)
  /-- `TLAUNCH` (R386): Submit a launch record to the CP as from the issuing world. -/
  | tlaunch (y : Bool) (d : BitVec 7) (a : BitVec 4) (b : BitVec 4)
  /-- `TLAUNCH_JOB` (R386): Enqueue a 32-byte job into a stage of the issuing launch's pipeline. -/
  | tlaunchJob (y : Bool) (d : BitVec 7) (a : BitVec 4) (b : BitVec 4)
  /-- `TDEC` (R387): Arrive on a counter object. -/
  | tdec (y : Bool) (d : BitVec 7) (a : BitVec 4) (b : BitVec 4)
  /-- `TCANCEL` (R387): Cancel every launch and task whose chain contains the counter. -/
  | tcancel (y : Bool) (d : BitVec 7) (a : BitVec 4)
  /-- `TSTAT` (R387): Read a counter object's generation, status, kind and dependents. -/
  | tstat (y : Bool) (d : BitVec 7) (a : BitVec 4)
  /-- `TDISP_LOCK` (R423): A TDISP lock request moves a VF's TDI from CONFIG_UNLOCKED to CONFIG_LOCKED, binds it to its world and extends measurement 32 + v. -/
  | tdispLock (vf : Nat) (config : List (BitVec 8))
  /-- `LINK_RETRAIN` (R430): A Qororn link that retrained after a third flit tag failure completes its retraining and carries flits again. -/
  | linkRetrain (port : Nat)
deriving DecidableEq, Repr, Inhabited

end Sys2Proof
end

