-- ==== Sys2Proof/Machine/State.lean ====
section
/-! DEFINITION. The state of the G96: plain data. Every structure names the rules of spec/ that give its
fields; the reset value of each field is its default, which `State.reset` takes
(notes/assumptions/2.md for the values the spec does not state). Maps are association lists with rising
keys that list no entry equal to what an unlisted key reads as. -/

namespace Sys2Proof.Machine

open Sys2Proof

/-- A finite map: keys rising, no entry equal to the default. -/
abbrev SMap (α : Type) := List (Nat × α)

/-- A v-register row: the word of each of the 32 lanes (R146). -/
abbrev Row := List Word

/-! ### Stalls, paths and waves -/

/-- The reasons a wave does not issue (R443), in number order. -/
inductive Stall where
  | park | waitLd | waitSt | waitCo | waitMx | batch | barrier | cbarrier | ring | quorum | xreg
  | token | ordered | pair | fetch | slot
deriving DecidableEq, Repr, Inhabited

/-- STATE of a path entry (R341). -/
inductive PathSt where
  | free | run | wait | fault | held | done
deriving DecidableEq, Repr, Inhabited

/-- MODE of a path entry (R341). -/
inductive MeldMode where
  | plain | melded | sideA | sideB
deriving DecidableEq, Repr, Inhabited

/-- What a WAIT path waits at (R341, R344, R345). -/
inductive WaitOn where
  | none
  /-- a PJOIN word, or its parent -/
  | join
  /-- generation `gen` of block barrier `k` -/
  | bar (k gen : Nat)
deriving DecidableEq, Repr, Inhabited

/-- One of the 8 path entries of a wave (R341), and what the spec says of a path beside its entry. -/
structure Path where
  /-- PC: VA of the next word (R341). -/
  pc : DWord := 0
  /-- JOIN: VA of the PJOIN or barrier word waited at (R341). -/
  join : DWord := 0
  /-- MODE (R341). -/
  mode : MeldMode := .plain
  /-- PAIR: rename pair of the open region (R341). -/
  pair : Nat := 0
  /-- COUNT: instructions of the region still to issue (R341, R358). -/
  count : Nat := 0
  /-- CPOS: word index in the clause, 0 at a header (R341). -/
  cpos : Nat := 0
  /-- Header word of the clause the path is in (R26, R394). -/
  hdr : Word := 0
  /-- The model's own: the instruction word that the path issues, as fetched. -/
  word : Word := 0
  /-- The words of the clause, as its issue fetched them (R28, R33); `none` where that fetch did not succeed, and empty after
  an entry into the middle of a clause. -/
  words : List (Option Word) := []
  /-- STATE (R341). -/
  st : PathSt := .free
  /-- PV and PARENT (R341). -/
  parent : Option Nat := none
  /-- HSTATE (R341). -/
  hst : PathSt := .free
  /-- SIDE: lanes on side B (R341). -/
  side : Word := 0
  /-- FULL (R340). -/
  full : Word := 0
  /-- EXM, the path's g127 (R340). -/
  exm : Word := 0
  /-- What the path waits at while WAIT (R343). -/
  waitOn : WaitOn := .none
  /-- How far a held instruction has come (R403 step 1). -/
  phase : Nat := 0
  /-- Why the path's next word cannot issue now (R443). -/
  blocked : Option Stall := none
  /-- The path's word has been held, and what it waited for has come: it can issue now (R336). -/
  again : Bool := false
  /-- PYIELD mark (R355). -/
  ymark : Bool := false
  /-- Latest outstanding block-barrier arrivals: (k, generation) (R381). -/
  barArr : List (Nat × Nat) := []
  /-- Latest outstanding cluster-barrier arrivals: (k, generation) (R381). -/
  cbarArr : List (Nat × Nat) := []
  /-- Acq of this scope is still to be performed before the path's next word (R328). -/
  acq : Option Nat := none
  /-- Wait-table entries a FAULT path is parked under (R80). -/
  parkedAt : List Nat := []
  /-- The path has parked at a delivery point (R76). -/
  parked : Bool := false
  /-- The path parked without a wait-table entry (R80). -/
  wtFull : Bool := false
  /-- RETRY has re-issued the deferred accesses; the path waits for them (R81). -/
  retrying : Bool := false
  /-- The quorum that the path waits for has broken while a debugger held it: QUORUM comes at DBGRES (R241, R259, R343). -/
  broken : Bool := false
deriving DecidableEq, Repr, Inhabited

/-- The four asynchronous counters (R25). -/
inductive Ctr where
  | lc | sc | cc | mc
deriving DecidableEq, Repr, Inhabited

/-- How far one lane of an asynchronous operation has come. -/
inductive LaneSt where
  /-- not yet performed -/
  | pending
  /-- performed; the value is still to be written to its destination (R36) -/
  | ready
  /-- handed to the host port, which runs a CAS loop (R428) -/
  | port
  /-- returned a deferred fault: cause code 0x10 or 0x14, subcause, VA and IA (R66, R73, R78) -/
  | faulted (cause sub : Nat) (va : DWord) (ia : Nat)
  /-- counted as returned (R25, R74) -/
  | returned
deriving DecidableEq, Repr, Inhabited

/-- One lane's part of an asynchronous operation: addresses, operands, result. -/
structure LaneOp where
  lane : Nat := 0
  /-- the lane's VA, or its local address (R163, R178) -/
  va : DWord := 0
  /-- IA after R63 -/
  ia : Nat := 0
  /-- destination registers after renaming (R358, R359) -/
  dst : Nat := 0
  /-- data operand as read at issue (R73): the run, low register lowest -/
  data : BitVec 512 := 0
  /-- address operand as read at issue (R408 ADDR) -/
  addr : DWord := 0
  /-- element addresses of a .E access, or further words the lane's operation needs -/
  aux : List Nat := []
  /-- result words still to be written -/
  res : List Word := []
  st : LaneSt := .pending
deriving DecidableEq, Repr, Inhabited

/-- What an atomic or reduction computes (R175, R176). -/
inductive AtomOp where
  | add | minS | maxS | minN | maxN | and | or | xor | exch | cas | fadd | fmin | fmax | incw
deriving DecidableEq, Repr, Inhabited

/-- What an asynchronous operation does when it is performed. `size` is in bytes. -/
inductive OpKind where
  /-- LD, uniform LD (R171): sign extension, cache policy (R97) -/
  | load (size : Nat) (signed : Bool) (policy : Nat)
  /-- ST, uniform ST (R172) -/
  | store (size policy : Nat)
  /-- LD.E and ST.E (R120, R121) through buffer record `rc` -/
  | loadE (rc : BitVec 320)
  | storeE (rc : BitVec 320)
  /-- ATOM, ATOMX, RED (R177): width 4 or 8, scope, returning, cache policy (R97) -/
  | atomic (op : AtomOp) (wide : Bool) (scope : Nat) (ret : Bool) (policy : Nat)
  /-- LDL, STL, ATOML (R179) -/
  | loadLocal (size : Nat) (signed : Bool)
  | storeLocal (size : Nat)
  | atomicLocal (op : AtomOp)
  /-- EVICT (R180) -/
  | evict
  /-- the translation probe of run-ahead, by the KIND of its instruction (R77, R78) -/
  | probe (kind : Nat)
  /-- an instruction fetch that faulted: nothing to re-issue (R389) -/
  | fetch
  /-- RST, RLD, RATOM (R182): size, and the policy of the record, which a line in HBM is served under -/
  | remStore (size policy : Nat)
  | remLoad (size policy : Nat)
  | remAtomic (policy : Nat)
  /-- TLD: result only (R252) -/
  | tld (desc : Word) (n : Nat)
  /-- matrix operations wait in the core's queue (R248) -/
  | tst (desc : Word) (n : Nat)
  | tldg (desc : Word) (rows cols pitch : Nat)
  | tstg (desc : Word) (rows cols pitch : Nat)
  | tzero (desc : Word) (rows cols : Nat)
  | tcvt (dst src : Word) (rows cols fmt : Nat) (sat : Bool)
  | mma (ty : Nat) (desc : Word) (a b : Nat) (q : Word)
  /-- TEX fn with its image record (R281) -/
  | tex (fn : Nat) (rc : BitVec 320)
  /-- BOXT and TRIT (R283, R284) -/
  | boxt
  | trit
  /-- STKPUSH and STKPOP (R285) -/
  | stkPush
  | stkPop
  /-- FRAG (R289) and COVER (R290) -/
  | frag
  | cover
  /-- SHC (R301, R305, R306, R307, R319, R308) -/
  | scq
  | scpub
  | scabort
  | scinv
  | scpin
  | scunpin
  | sctick
  /-- PRIV (R85-R89): control word -/
  | invr (ctl : Word)
  | replay (ctl : Word)
  | pin (ctl : Word)
  | unpin (ctl : Word)
  | migr
  | frpop
  /-- DBGHALT and DBGRES (R440): the target word -/
  | dbghalt (target : Word)
  | dbgres (target : Word)
  /-- TASK (R386, R387) -/
  | tlaunch
  | tlaunchJob (stage : Nat)
  | tdec (gen : Nat)
  | tcancel
  | tstat
deriving DecidableEq, Repr, Inhabited

/-- An asynchronous operation of a wave, from its issue until its counter has fallen (R25, R36, R165). -/
structure AsyncOp where
  /-- issue number in the wave: order of R166 -/
  id : Nat := 0
  /-- the counter it raised -/
  ctr : Ctr := .lc
  kind : OpKind := .evict
  /-- issuing path -/
  path : Nat := 0
  /-- VA of the instruction -/
  pc : DWord := 0
  /-- the instruction word (R408) -/
  word : Word := 0
  /-- G = 1: one access, for every lane of the issuing path (R168, R173) -/
  uniform : Bool := false
  /-- lowest lane of the issuing path's FULL, by which the path is found again (R340); 32 for a path that has none -/
  lead : Nat := 0
  /-- registers written or read in each lane -/
  nregs : Nat := 0
  lanes : List LaneOp := []
  /-- a release atomic of device scope or wider (R327, R334) -/
  rel : Bool := false
  /-- re-issued by RETRY (R81) -/
  retry : Bool := false
  /-- step the operation has reached, where it takes several -/
  phase : Nat := 0
  /-- status word returned to all lanes, where the operation returns one -/
  status : Word := 0
  /-- CLK at issue, by which accesses of several waves are in issue order (R405) -/
  at_ : Nat := 0
  /-- of an atomic of a watched launch: its place at issue among the events of watch mode (R334) -/
  seq : Nat := 0
  /-- of a returning atomic: its number at its first issue, and whether a fence that follows makes it an acquire (R327) -/
  atom : Nat := 0
  acquires : Bool := false
  /-- bytes that a lane of this load has read and that others read too: address and byte (R167) -/
  seen : List (Nat × Byte) := []
deriving DecidableEq, Repr, Inhabited

/-- An entry of the deferred-access list (R73, R408): the operation restricted to its faulted lanes. -/
structure Deferred where
  op : AsyncOp := default
  /-- owning FAULT path -/
  path : Nat := 0
  /-- KIND of R168 -/
  kind : Nat := 0
  /-- wait-table entries taken for it (R80) -/
  keys : List Nat := []
  /-- its records have been written (R76) -/
  recorded : Bool := false
  /-- released by RETRY, and still to be re-issued: its counter stands at 63 (R25, R81) -/
  again : Bool := false
deriving DecidableEq, Repr, Inhabited

/-- How far a copy has come (R127, R128). -/
inductive CopySt where
  /-- segment `next` still to start -/
  | queued
  /-- the segment waits for table room, holding nothing (R71) -/
  | refused
  /-- the segment is translated, pinned and owned -/
  | pinned
  /-- the segment's data is moved; pins still held -/
  | moved
  | done
deriving DecidableEq, Repr, Inhabited

/-- A copy of a wave (R124-R139). -/
structure Copy where
  /-- the model's own: number of the copy -/
  id : Nat := 0
  batch : Nat := 0
  /-- position in its batch, from 0 (R129 INDEX) -/
  pos : Nat := 0
  /-- block × 32 + wave -/
  wave : Nat := 0
  /-- the COPY instruction word (R408), and its VA (R417) -/
  word : Word := 0
  pc : DWord := 0
  /-- fn: 0 CPY.GL, 1 CPY.LG, 2 CPY.GG, 3 CPT.GL, 4 CPT.LG (R137) -/
  fn : Nat := 0
  /-- gd, gd+1, ga, ga+1, gb … gb+3 as read at issue (R408 OPS) -/
  ops : List Word := []
  /-- shape-record snapshot (R139), or the buffer record of a CPY -/
  snap : BitVec 512 := 0
  /-- next segment (R136) -/
  next : Nat := 0
  st : CopySt := .queued
  /-- granules pinned and lines owned for the segment (R127): IA granules, IA lines -/
  pins : List Nat := []
  owned : List Nat := []
  /-- IA granule of each VA granule of the segment, as its step 1 mapped it -/
  gmap : List (Nat × Nat) := []
  /-- source lines, or aligned words of the scratchpad, that the copy has read, `none` where the old check failed (R126) -/
  lines : List (Nat × Option Line) := []
  /-- destination lines, or bytes of the scratchpad, that the segment is done with -/
  put : List Nat := []
  /-- CODE, CAUSE, SUB, failing VA (R129) -/
  code : Nat := 0
  cause : Nat := 0
  sub : Nat := 0
  va : DWord := 0
  /-- lines left unwritten under INTEG 1 (R129) -/
  skipped : List Nat := []
deriving DecidableEq, Repr, Inhabited

/-- A batch of copies (R124, R129). -/
structure Batch where
  num : Nat := 0
  closed : Bool := false
  /-- completion record: VA and IA, when named (R140) -/
  comp : Option (Nat × Nat) := none
  copies : Nat := 0
deriving DecidableEq, Repr, Inhabited

/-- State of a grid latch (R380, R382, R407). -/
inductive GLatch where
  | empty | pending | applied | diverted
deriving DecidableEq, Repr, Inhabited

/-- A fragment handed to a lane, with the order places it holds (R289, R291, R407). -/
structure Frag where
  /-- VA of its job -/
  job : Nat := 0
  lane : Nat := 0
  pixel : Nat := 0
  tri : Nat := 0
  mask : Nat := 0
  places : Nat := 0
deriving DecidableEq, Repr, Inhabited

/-- A fault a run-ahead access or probe received, by granule (R78). -/
structure Found where
  granule : Nat := 0
  lanes : Word := 0
  va : DWord := 0
  ia : Nat := 0
  cause : Nat := 0
  sub : Nat := 0
  kind : Nat := 0
  pc : DWord := 0
  /-- operation that found it -/
  op : Nat := 0
  /-- the granule was known before, and gives no record -/
  known : Bool := false
deriving DecidableEq, Repr, Inhabited

/-- The checkpoint of a run-ahead and what it has found (R77). -/
structure RunAhead where
  path : Nat := 0
  /-- instructions executed, at most 256 -/
  count : Nat := 0
  ended : Bool := false
  /-- invalid (register × 32 + lane) of v, and invalid g and q registers -/
  badV : List Nat := []
  badG : List Nat := []
  badQ : List Nat := []
  /-- accesses still to return: operation ids -/
  pend : List Nat := []
  found : List Found := []
  /-- FAULT paths without an entry that a REPLAY has reached meanwhile: path, DELIVER or RETRY (R80, R82) -/
  woken : List (Nat × Bool) := []
  /-- saved v rows, g, q, paths, rename tables -/
  savedV : SMap Row := []
  savedG : SMap Word := []
  savedQ : BitVec 8 := 0
  savedPaths : List Path := []
  savedRename : SMap (Nat × Nat) := []
deriving DecidableEq, Repr, Inhabited

/-- STATE of a wave beyond what its paths say (R335): READY, RUN, PARKED and HELD follow from the paths. -/
inductive WaveSt where
  | live | saved | done
deriving DecidableEq, Repr, Inhabited

/-- How a wave that ended by trap ended (R395, R446). -/
structure EndRec where
  code : Nat := 0
  sub : Nat := 0
  pc : DWord := 0
  va : DWord := 0
  path : Nat := 0
deriving DecidableEq, Repr, Inhabited

/-- A wave: 32 threads on a lane pair. Reset values are those of dispatch (R147, R339, R390, R407). -/
structure Wave where
  st : WaveSt := .live
  /-- wave slot on its core, 0-191 (R78 SLOT) -/
  slot : Nat := 0
  /-- lane pair (R335) -/
  pair : Nat := 0
  /-- g1–g126 (R37) -/
  g : SMap Word := []
  /-- q0–q7; bit 0 is 1 (R41, R407 QREG) -/
  q : BitVec 8 := 1
  /-- the 8 path entries (R341) -/
  paths : List Path := List.replicate 8 {}
  /-- rename tables: key pair·32 + side·16 + entry; (architectural, alternative) (R356); default (0, 0) -/
  rename : SMap (Nat × Nat) := []
  /-- LC, SC, CC, MC (R25) -/
  lc : Nat := 0
  sc : Nat := 0
  cc : Nat := 0
  mc : Nat := 0
  /-- a Y = 1 instruction has issued and the counters are not yet zero (R35) -/
  ypark : Bool := false
  /-- outstanding operations, oldest first -/
  ops : List AsyncOp := []
  /-- number of the next operation -/
  nextOp : Nat := 0
  /-- deferred-access list, in issue order (R73) -/
  deferred : List Deferred := []
  /-- FFLAGS (R196), FCTRL (R194) -/
  fflags : Word := 0
  fctrl : Word := 0
  /-- trap registers (R390, R391) -/
  tcode : Word := 0
  tpc : DWord := 0
  tmask : Word := 0
  tva : DWord := 0
  tinfo : Word := 0
  thdr : Word := 0
  texm : Word := 0
  /-- STALL0–STALL15 (R443) -/
  stall : List Word := List.replicate 16 0
  /-- number of the open batch, BATCHDONE, failure latch (R124, R137) -/
  openBatch : Nat := 1
  batchDone : Word := 0
  latch : Option (Nat × Nat) := none
  batches : List Batch := []
  /-- MXSKIP, QUORUMREG, QARR count (R250, R239, R259) -/
  mxskip : Word := 0
  quorum : Word := 0
  qarr : Nat := 0
  /-- CTICKET (R153) -/
  cticket : Word := 0
  /-- CLK latch (R392) -/
  clkLatch : Word := 0
  /-- MEXTLO, MEXTHI, MEXT (R393) -/
  mextlo : Word := 0
  mexthi : Word := 0
  mext : Word := 0
  /-- ray store: key lane·8 + component (R282); an unlisted lane is empty -/
  rays : List (Nat × List Word) := []
  /-- traversal stack: initialised, run register, control word, spill VA, depth of each lane (R285) -/
  stkInit : Bool := false
  stkReg : Nat := 0
  stkCtl : Word := 0
  stkSpill : DWord := 0
  stkDepth : SMap Nat := []
  /-- raster job VA of the latest FRAG, and the fragments of the batch (R289, R407) -/
  rjob : Option Nat := none
  frags : List Frag := []
  /-- tile-job tokens recorded with the wave (R304) -/
  tokens : List Nat := []
  /-- grid latch (R380) -/
  glatch : GLatch := .empty
  glatchVA : DWord := 0
  glatchGen : Nat := 0
  /-- ReleaseGrid has named the latch (R380, R382) -/
  greleased : Bool := false
  /-- GBAR.ARR arrivals not yet answered, and the replies on their way, oldest first: DIVERTED or not (R382) -/
  gsent : Nat := 0
  greplies : List Bool := []
  /-- path whose fence is waiting: no other path issues meanwhile (R326) -/
  excl : Option Nat := none
  /-- path that issued last (R338) -/
  lastPath : Nat := 0
  /-- pending DEBUG and DELIVER events by path (R394, R407) -/
  pendDebug : BitVec 8 := 0
  pendDeliver : BitVec 8 := 0
  /-- a DBGRES held by the debug window, by path (R421, R440) -/
  pendRes : BitVec 8 := 0
  /-- scope of an armed release (R327) -/
  armed : Option Nat := none
  /-- the last memory- or ORDER-class instruction was a returning atomic: its operation and scope (R327) -/
  lastAtom : Option (Nat × Nat) := none
  /-- number of the wave's next fault-record batch (R78 BATCH) -/
  faultBatch : Nat := 0
  /-- a wave waiting on a full fault ring: records still to write (R79) -/
  ringWait : List (BitVec 512) := []
  /-- at its delivery point, the records are being written (R76) -/
  delivering : Bool := false
  /-- CLK at which SLEEP ends; YIELD until another wave of the pair has issued or this CLK (R329) -/
  sleepUntil : Option Nat := none
  yieldUntil : Option Nat := none
  /-- SCWAIT: (lane, token, outcome) and the wait-table entries taken (R316) -/
  scwait : List (Nat × Nat × Option Nat) := []
  scKeys : List Nat := []
  /-- the wave's trap end (R395) -/
  ended : Option EndRec := none
  /-- CLK of its latest issue, CLK since which it has been ready, CLK since which it has been parked on waits that no counter
  or batch ends, CLK since which it has been parked on waits that R384 follows, CLK of its latest wait-cycle probe (R337,
  R383, R384) -/
  lastIssue : Nat := 0
  readySince : Nat := 0
  waitSince : Nat := 0
  followSince : Nat := 0
  probedAt : Nat := 0
  /-- CLK at which the slot of its latest issue ends, the unit that the slot holds (its pair, or 64 + quadrant), and the class
  of the word, `none` after a header (R31, R337) -/
  slotEnd : Nat := 0
  slotUnit : Nat := 0
  lastCls : Option Nat := none
  /-- the wave's MMA is held at the saddle latch: word, descriptor, QUORUMREG, runs (R240) -/
  saddle : Option (Word × Word × Word) := none
  /-- run-ahead in progress (R77) -/
  ra : Option RunAhead := none
  /-- slot and registers freed (R458) -/
  freed : Bool := false
deriving DecidableEq, Repr, Inhabited

/-! ### Blocks, clusters, launches -/

/-- Where a block is. -/
inductive BlockSt where
  /-- bound to a core -/
  | resident
  /-- its context is saved (R403, R413): order of the save -/
  | saved (order : Nat)
  /-- every wave is DONE -/
  | retired
  /-- stopped without saving (R371, R416) -/
  | discarded
deriving DecidableEq, Repr, Inhabited

/-- A barrier: waves (or ranks) arrived in the open generation, and that generation (R378, R406). -/
structure Barrier where
  gen : Nat := 0
  arrived : List Nat := []
  /-- of a cluster barrier: the waves arrived, by rank and wave (R379) -/
  waves : List (Nat × Nat) := []
deriving DecidableEq, Repr, Inhabited

/-- A block and its part of the lane store and tile store. Values at dispatch: R147, R237, R437. -/
structure Block where
  st : BlockSt := .resident
  launch : Nat := 0
  /-- linear index (R365), or the job's sequence number of a stage launch (R373) -/
  idx : Nat := 0
  cluster : Nat := 0
  rank : Nat := 0
  core : Nat := 0
  /-- v rows: base register n of wave w at w·B + n, extended register n of pair k at nw·B + k·X + n (R405) -/
  v : SMap Row := []
  /-- scratchpad bytes (R151) -/
  scratch : SMap Byte := []
  /-- tile store: key tile row·1024 + byte (R238) -/
  tile : SMap Byte := []
  waves : List Wave := []
  /-- holder of each pair's extended lock, and the waves waiting, first first (R148, R150) -/
  xlock : SMap (Option Nat) := []
  xwait : List (Nat × Nat) := []
  /-- 16 block barriers (R378) -/
  bars : List Barrier := List.replicate 16 {}
  /-- attachment record (R437) -/
  attach : BitVec 256 := 0
  /-- CLK at dispatch (R446) -/
  start : Nat := 0
  /-- words of its storage with an uncorrectable error: local address ÷ 4, in the scratchpad and in the register window
  (R151, R168) -/
  badWords : List Nat := []
  /-- stopping for a pre-emption, displacement or shutter (R403): waits for its counters -/
  stopping : Bool := false
  /-- restored only to its core (R265, R406 PINNED) -/
  pinned : Bool := false
  /-- lane-store banks whose wake its dispatch waits for (R160) -/
  waking : List Nat := []
  /-- pre-empted to make room for a block of its launch (R383) -/
  displaced : Bool := false
  /-- PA at which a context saved in the spill region lies; `none`: in the shadow store (R412) -/
  spill : Option Nat := none
  /-- resources freed (R458) -/
  freedStore : Bool := false
  freedTile : Bool := false
  freedBars : Bool := false
  /-- END of R446, 0 while the block lives -/
  endCode : Nat := 0
  /-- stage of a stage launch's job: its token, with wave 0 (R373) -/
  order : Nat := 0
deriving DecidableEq, Repr, Inhabited

/-- A cluster of blocks: ticket, member blocks by rank, 8 barriers (R153, R379). -/
structure Cluster where
  ticket : Nat := 0
  world : Nat := 0
  launch : Nat := 0
  ridge : Nat := 0
  members : List Nat := []
  bars : List Barrier := List.replicate 8 {}
  /-- rank-table entries present (R153, R155) -/
  live : Bool := true
deriving DecidableEq, Repr, Inhabited

/-- Where a launch stands in the command processor. -/
inductive LaunchSt where
  /-- a task waiting on its DEP (R368) -/
  | pending
  /-- accepted: in its world's ready queue or dispatching -/
  | ready
  | done
  | refused (code : Nat)
deriving DecidableEq, Repr, Inhabited

/-- What a watched atomic is to R334 rule 4: a release, an acquire, or the returning atomic of an operation, which a fence
may make an acquire (R327). -/
inductive WatchKind where
  | release | acquire | returned (op : Nat)
deriving DecidableEq, Repr, Inhabited

/-- An atomic of a watched launch: wave, location, and its places among the events of watch mode at its issue and when it
was performed (R330, R334). -/
structure WatchAtom where
  wave : Nat := 0
  kind : WatchKind := .release
  ia : Nat := 0
  issued : Nat := 0
  done : Nat := 0
deriving DecidableEq, Repr, Inhabited

/-- A launch the command processor knows (R364). -/
structure Launch where
  record : BitVec 2048 := 0
  /-- VA of the record, and the space through which the CP reaches it -/
  va : DWord := 0
  world : Nat := 0
  st : LaunchSt := .ready
  /-- PRIO after R386; for a pending task the limit on it -/
  prio : Nat := 0
  /-- place in the order in which launches became ready (R368) -/
  order : Nat := 0
  /-- next linear index to dispatch (R369), or next job sequence number (R373) -/
  nextBlock : Nat := 0
  /-- blocks retired or discarded -/
  ended : Nat := 0
  /-- error completions (R367 NERR) -/
  nerr : Nat := 0
  trapEnd : Bool := false
  overrun : Bool := false
  cancelled : Bool := false
  /-- the counters of its chain, read at acceptance (R362): VAs -/
  chain : List Nat := []
  /-- host-queue slot it holds: VF·4 + queue, slot number (R368, R426) -/
  slot : Option (Nat × Nat) := none
  /-- profiling control (R444), and the CLK of the latest sample (R445) -/
  profile : BitVec 256 := 0
  sampled : Nat := 0
  /-- order of the events of watch mode: the number of the next (R334) -/
  watchSeq : Nat := 0
  /-- watch records: sector (IA ÷ 32), writer (block·32 + wave), number of the write (R334) -/
  watch : List (Nat × Nat × Nat) := []
  /-- ends of barrier waits: wave, barrier and generation, number (R334 rule 3) -/
  watchEnds : List (Nat × Nat × Nat) := []
  /-- atomics by location, in the order of R330 (R334 rule 4) -/
  watchOrd : List WatchAtom := []
  /-- stage launch: jobs retired out of order (R373) -/
  retiredJobs : List Nat := []
  /-- CLK of the stage's latest TLAUNCH of a job, where that returned status 1 (R374) -/
  window1 : Option Nat := none
  /-- CLOSED as the CP last read it, and the CLK of that reading (R372) -/
  closedSeen : Bool := false
  closedAt : Nat := 0
  /-- cores of each ridge given to the stage (R374) -/
  cores : List Nat := []
deriving DecidableEq, Repr, Inhabited

/-! ### Cores -/

/-- An L1 line (R99, R324). -/
abbrev L1Line := Line

/-- The key of a wait-table entry (R80, R316). -/
inductive WaitKey where
  | granule (world g : Nat)
  | token (t : Nat)
deriving DecidableEq, Repr, Inhabited

/-- A wait-table entry in use (R80). -/
structure WaitEntry where
  key : WaitKey := .token 0
  /-- replayed: 1 RETRY, 2 DELIVER (R86) -/
  replayed : Nat := 0
deriving DecidableEq, Repr, Inhabited

/-- An accepted matrix operation (R248): the waves' operations it stands for, block and lead wave. -/
structure MatOp where
  block : Nat := 0
  /-- members: (wave, operation id) -/
  waves : List (Nat × Nat) := []
  kind : OpKind := .evict
  /-- fragments read at release: for each member in role order, its rows (R247) -/
  frags : List (List Row) := []
  /-- lanes and data of TST, VA of TLDG and TSTG -/
  lanes : List LaneOp := []
  /-- TLDG and TSTG: spans moved so far, and the faults met: cause, subcause, VA, IA (R254) -/
  moved : Nat := 0
  fails : List (Nat × Nat × DWord × Nat) := []
deriving DecidableEq, Repr, Inhabited

/-- An open raster job (R289). -/
structure RJob where
  asid : Nat := 0
  va : Nat := 0
  desc : BitVec 512 := 0
  /-- vertices: x, y, z of each -/
  vtx : List (Word × Word × Word) := []
  /-- fragments still to hand out: (pixel, triangle, mask) -/
  todo : List (Nat × Nat × Nat) := []
  endCode : Nat := 0
  ended : Bool := false
  /-- its descriptor and vertices have been read, or have failed -/
  started : Bool := false
deriving DecidableEq, Repr, Inhabited

/-- A core (R11): its caches, range registers, wait table, engines. -/
structure Core where
  /-- L1 lines by IA ÷ 128 (R99) -/
  l1 : SMap L1Line := []
  /-- instruction cache: IA of a word and its value (R33) -/
  icache : SMap Word := []
  /-- record cache: key ASID·2^64 + VA; buffer records and shape records (R123) -/
  recs : List (Nat × BitVec 320) := []
  shapes : List (Nat × BitVec 512) := []
  /-- range registers by ASID: 16 descriptors (R62) -/
  ranges : List (Nat × List (BitVec 256)) := []
  /-- wait table and the generation of each entry (R80) -/
  wait : SMap (Option WaitEntry) := []
  waitGen : SMap Nat := []
  /-- REPLAY operations on their way to the core, oldest first: block, wave, operation (R86) -/
  replays : List (Nat × Nat × Nat) := []
  /-- shading-cache notices on their way: (published, token) (R305, R306) -/
  notices : List (Bool × Nat) := []
  /-- matrix queue (R248) -/
  matq : List MatOp := []
  /-- open raster jobs, at most 4 (R289) -/
  rjobs : List RJob := []
  /-- raster jobs saved with their waves at a SCRUB (R265, R420) -/
  heldJobs : List RJob := []
  /-- residency cache: world·2^52 + IA of a map word (R275) -/
  resid : SMap (Option Word) := []
  /-- feedback filter, most recent first: world, IA of a map bit (R276) -/
  filter : List (Nat × Nat) := []
  /-- feedback reports sent and not answered: (block, wave, op, lane), entry, key (R276) -/
  reports : List (Nat × Nat × Nat × Nat × BitVec 128 × Nat) := []
  /-- DBGHALT and DBGRES requests in order of arrival: (block, wave, op) of the requester (R440) -/
  dbg : List (Nat × Nat × Nat) := []
  /-- lane-store split in banks: registers, at least 32, and scratchpad (R143, R144) -/
  splitR : Nat := 32
  splitS : Nat := 0
  /-- gated banks, and banks that are waking (R159, R160) -/
  gated : List Nat := []
  waking : List Nat := []
  /-- launches whose first block has been dispatched here (R123) -/
  seen : List Nat := []
deriving DecidableEq, Repr, Inhabited

/-! ### L2, translation, worlds -/

/-- A line of L2 (R92-R109). -/
structure L2Line where
  /-- PA of the line (R94) -/
  pa : Nat := 0
  data : Line := 0
  /-- bytes present, and bytes written and not yet written back (R94) -/
  present : LineMask := 0
  dirty : LineMask := 0
  /-- slice that holds it (R101) -/
  slice : Nat := 0
  /-- die-streak (R100) -/
  streakDie : Nat := 0
  streak : Nat := 0
  /-- cluster unit (ridge) that holds it (R109) -/
  holder : Option Nat := none
  /-- way of its mask it lies in (R95) -/
  way : Nat := 0
  /-- CLK of its latest move, by which cairns are oldest (R102), or of its latest use in a cluster unit (R109) -/
  moved : Nat := 0
  /-- its check fails: an uncorrectable error in L2 (R22, R122) -/
  bad : Bool := false
deriving DecidableEq, Repr, Inhabited

/-- A cached translation: IA page base, page size, frame PA; a PIN keeps it (R67, R71). -/
structure TlbEntry where
  /-- slice of the translator that caches it (R93) -/
  home : Nat := 0
  world : Nat := 0
  base : Nat := 0
  size : Nat := 0
  frame : Nat := 0
  /-- IA of its leaf entry -/
  ent : Nat := 0
  /-- DIRTY is known set (R66) -/
  dirty : Bool := false
deriving DecidableEq, Repr, Inhabited

/-- A world (R409, R410) and the counters kept for it (R113, R321, R414). -/
structure World where
  record : BitVec 4096 := BitVec.ofNat 4096 (4 * 2 ^ 384)
  /-- last cluster ticket drawn (R153) -/
  ticket : Nat := 0
  /-- L2 counts: key slice·16 + n (R113) -/
  l2cnt : SMap Nat := []
  /-- tag-bank counts: key bank·16 + n (R321) -/
  tagcnt : SMap Nat := []
  /-- same-world wait cycles by unit (R414) -/
  waitcnt : SMap Nat := []
  /-- EDGE and registers of the sealed set (R423) -/
  sealedClk : Nat := 0
  sealedSet : List (Nat × BitVec 512) := []
  isSealed : Bool := false
  /-- measurement-extension requests waiting: block, wave, value or unreadable (R393) -/
  mextq : List (Nat × Nat × Option (BitVec 512)) := []
  /-- MIGR commands in issue order: block, wave, op (R70) -/
  migrq : List (Nat × Nat × Nat) := []
  /-- MIGR progress of the command at the head: frames done, bytes done -/
  migrDone : Nat := 0
  /-- the order in which blocks of the world were saved -/
  saves : Nat := 0
  /-- order places of FENCE.SC (R326) -/
  scPlace : Nat := 0
deriving DecidableEq, Repr, Inhabited

/-- A phase of a ridge (R413). -/
inductive RPhase where
  | open_ | stop | drain | overrun | seal | scrub
deriving DecidableEq, Repr, Inhabited

/-- A ridge: its world (the entry's or a donee's), its phase, the edge (R413, R419). -/
structure Ridge where
  world : Option Nat := none
  phase : RPhase := .open_
  /-- world to open for after SCRUB -/
  incoming : Option Nat := none
  /-- CLK at E (R413) -/
  edge : Nat := 0
  /-- slot-table entry that ended at E (R417) -/
  entry : Nat := 0
  /-- the world is a donee (R419) -/
  lent : Bool := false
  /-- overrun records of this shutter written so far (R417) -/
  nrec : Nat := 0
  /-- CLK of the latest division of its cores (R374) -/
  divided : Nat := 0
deriving DecidableEq, Repr, Inhabited

/-- States of a TDI (R422). -/
inductive Tdi where
  | configUnlocked | configLocked | run | error
deriving DecidableEq, Repr, Inhabited

/-- A host queue's registers (R425) and the slots the CP still holds. -/
structure HostQ where
  base : DWord := 0
  taskva : DWord := 0
  cap : Nat := 0
  tail : Nat := 0
  head : Nat := 0
  err : Nat := 0
  /-- next slot to read, and slots held by pending tasks -/
  next : Nat := 0
  held : List Nat := []
deriving DecidableEq, Repr, Inhabited

/-- An entry of the last-events record (R434). -/
structure Event where
  data : BitVec 128 := 0
  clk : DWord := 0
  seq : Word := 0
  unit : Nat := 0
  world : Nat := 0
  cls : Nat := 0
  code : Nat := 0
deriving DecidableEq, Repr, Inhabited

/-- Who makes an arrival (R361). -/
inductive ArrSrc where
  /-- GBAR.ARR of a wave: its grid latch awaits the reply -/
  | gbar (b w : Nat)
  /-- the CP, at a launch's completion -/
  | cp
  /-- a completed object, on its PARENT -/
  | parent
  /-- TDEC: block, wave, operation -/
  | tdec (b w op : Nat)
deriving DecidableEq, Repr, Inhabited

/-- An arrival on its way to a counter object (R361). -/
structure Arrival where
  world : Nat := 0
  asid : Nat := 0
  va : Nat := 0
  gen : Nat := 0
  status : Nat := 0
  launch : Nat := 0
  src : ArrSrc := .cp
  /-- PARENT links that may still be followed from it, where a launch counter bounds them (R362) -/
  links : Option Nat := none
deriving DecidableEq, Repr, Inhabited

/-- A TCANCEL in progress (R371): requester, counter. -/
structure Cancel where
  block : Nat := 0
  wave : Nat := 0
  op : Nat := 0
  world : Nat := 0
  asid : Nat := 0
  va : Nat := 0
  launches : List Nat := []
deriving DecidableEq, Repr, Inhabited

/-- STATE of a tag entry (R298). -/
inductive TagSt where
  | inflight | valid | aborted
deriving DecidableEq, Repr, Inhabited

/-- A tag entry that is not INVALID (R298); its key is kept whole. -/
structure Tag where
  key : Nat := 0
  st : TagSt := .inflight
  age : Nat := 0
  epoch : Nat := 0
  share : Nat := 0
  slot : Nat := 0
  fmt : Nat := 0
  pin : Nat := 0
deriving DecidableEq, Repr, Inhabited

/-- The shading cache (R293-R313). -/
structure Shading where
  /-- HSLOTS, HEAPIA, OTIA, OBJCOUNT, CLOCKW (R294, R320) -/
  hslots : Nat := 0
  heapia : Nat := 0
  otia : Nat := 0
  objcount : Nat := 0
  clockw : Nat := 0
  /-- FRAME (R308) -/
  frame : Nat := 0
  /-- tag entries by index S·4 + way (R297); unlisted is INVALID -/
  tags : SMap (Option Tag) := []
  /-- slot generations (R299) -/
  gens : SMap Nat := []
  /-- slots in quarantine and the FRAME at which each entered (R308) -/
  quar : List (Nat × Nat) := []
  /-- sweep hand, and whether background eviction is under way (R302) -/
  hand : Nat := 0
  sweep : Bool := false
deriving DecidableEq, Repr, Inhabited

/-- A compressed image in a foothill tier: PA, world, frame, bytes (R88). -/
structure Image where
  pa : Nat := 0
  world : Nat := 0
  frame : List Host.Cell := []
  len : Nat := 0
deriving DecidableEq, Repr, Inhabited

/-- A wait-cycle probe on its way (R384): sender, wave to reach, waves reached. -/
structure Probe where
  sender : Nat × Nat := (0, 0)
  /-- waves still to visit -/
  todo : List (Nat × Nat) := []
  reached : List (Nat × Nat) := []
deriving DecidableEq, Repr, Inhabited

/-! ### The machine -/

/-- The whole G96. -/
structure State where
  /-- CLK (R392) -/
  clk : Nat := 0
  /-- memory by PA: HBM, foothill, host and peer windows (R59); unlisted bytes read 0 (notes/assumptions/3.md) -/
  mem : List Host.Cell := []
  /-- 128-byte lines (PA ÷ 128) with an uncorrectable error (R22, R69) -/
  badLines : List Nat := []
  /-- HBM ranges last written whole under a region's key, newest first: first PA, bytes, region (R69) -/
  keys : List (Nat × Nat × Nat) := []
  /-- lines of L2 by IA ÷ 128 (R92) -/
  l2 : SMap (Option L2Line) := []
  /-- gated ways and waking ways: slice, way (R110, R111) -/
  gatedWays : List (Nat × Nat) := []
  wakingWays : List (Nat × Nat) := []
  /-- cached translations (R67) -/
  tlb : List TlbEntry := []
  /-- cached table entries of partial walks: slice of the translator, world, IA of the entry, value (R67, R93) -/
  walks : List (Nat × Nat × Nat × DWord) := []
  /-- pin counts by granule (IA ÷ 65,536), and by copy: counts (R71) -/
  pins : SMap Nat := []
  /-- lines owned by copy units: line IA ÷ 128, core, copy (R104) -/
  owned : List (Nat × Nat × Nat) := []
  /-- lines on which a device- or system-scope atomic has executed, and the CLK at which the latest did (R103) -/
  atomAt : List (Nat × Nat) := []
  /-- accesses that wait for the end of ownership, in order of arrival: line, block, wave, operation, lane (R105) -/
  ownWait : List (Nat × Nat × Nat × Nat × Nat) := []
  /-- accesses parked on a waking way: slice, block, wave, operation, lane (R111) -/
  wakeWait : List (Nat × Nat × Nat × Nat × Nat) := []
  /-- W0–W11 (R409) -/
  worlds : List World := List.replicate 12 {}
  /-- region 12: root table, grant, way mask (R60, R64, R95) -/
  sharedRoot : Option Nat := none
  sharedGrant : List (Nat × Nat) := []
  sharedWays : Nat := 0
  /-- slot table in force, entry, CLK at which it began; table waiting; armed (R411) -/
  slots : List (BitVec 512) := []
  slotEntry : Nat := 0
  slotStart : Nat := 0
  slotsNext : Option (List (BitVec 512)) := none
  /-- 32 ridges (R413) -/
  ridges : List Ridge := List.replicate 32 {}
  /-- 256 cores (R11) -/
  cores : SMap Core := []
  launches : List Launch := []
  blocks : List Block := []
  clusters : List Cluster := []
  copies : List Copy := []
  /-- arrivals on their way to counters, per world in order (R361) -/
  arrivals : List Arrival := []
  cancels : List Cancel := []
  /-- host queues: key VF·4 + queue (R425) -/
  hostq : SMap HostQ := []
  /-- TDI states and IDE errors by VF (R422) -/
  tdi : SMap Tdi := []
  /-- routes of peers to Qororn ports (R427) -/
  routes : List (Nat × List Nat) := []
  /-- worlds Shethar has paired with senders on shared ports: port, world (R429) -/
  paired : List (Nat × Nat) := []
  /-- link state: retries of a flit by port (R430) -/
  flitTries : SMap Nat := []
  /-- accesses that the flit of those failures carries: port, and block, wave, operation and lane of each (R430) -/
  flitNow : List (Nat × List (Nat × Nat × Nat × Nat)) := []
  /-- CAS-loop attempts at the host port: block, wave, op, lane; tries (R428) -/
  casTries : List (Nat × Nat × Nat × Nat × Nat) := []
  /-- BOOTSTATE: STEP, CODE, RECORD (R433) -/
  bootStep : Nat := 15
  bootCode : Nat := 0
  bootRecord : Nat := 0
  powered : Bool := true
  /-- last-events record, newest first; its SEQ; frozen by a CLASS 7 event (R434) -/
  events : List Event := []
  eventSeq : Nat := 0
  frozen : Bool := false
  /-- measurement registers (R423) -/
  meas : SMap (BitVec 512) := []
  shade : Shading := {}
  images : List Image := []
  probes : List Probe := []
  /-- ridges left idle by a thermal shutter (R435) -/
  thermal : Bool := false
  /-- answer to the last host command or measurement request: accepted, and what it returns (R424, R431) -/
  reply : Option (Bool × List Byte) := none
  /-- FENCE.SC places taken at blocks' cores and clusters' units: key, next place (R326) -/
  scPlaces : SMap Nat := []
  /-- the model's own: steps other agents take before the current path issues again -/
  agenda : List Instr := []
  /-- the model's own: the block, wave and path that issue -/
  cur : Option (Nat × Nat × Nat) := none
  /-- the model's own: free values used so far (notes/assumptions/1.md) -/
  free : Nat := 0
deriving DecidableEq, Repr, Inhabited

/-- Why a step can stop. -/
inductive Fault where
  /-- An instruction word was to execute while no wave issues: raised by the meaning of an instruction
  word when `State.cur` names no live path. The step never reaches it. Safe: it only stops. -/
  | noIssuingWave
deriving DecidableEq, Repr, Inhabited

/-- Why the model gives a step no meaning. -/
inductive Refusal where
  /-- The instruction has no meaning in the model yet: raised by its arm of `exec` only. Safe. -/
  | notModelled (mnemonic : String)
deriving DecidableEq, Repr, Inhabited

/-- The machine right after power-on reset: no world exists, no ridge runs, memory lists nothing, the
boot has not yet run (R411, R432, R433). -/
def State.reset : State := {}

end Sys2Proof.Machine
end

