-- ==== Sys2Proof/WellFormed.lean ====
section
/-! DEFINITION. Well-formed instructions: which words raise ILL by their bits alone (R49, R55). The
registers an instruction names are listed once, in `Instr.uses`; the checks of R41–R43 and R149, here
and at issue, read that list. -/

namespace Sys2Proof

/-- A register field of an instruction and the run it names (R41–R43). -/
inductive Use where
  /-- a v destination run of `n` registers, from an even one where `even` -/
  | vd (f : Field) (n : Nat) (even : Bool)
  /-- a v source run, or a broadcast g0–g15 -/
  | vs (f : Field) (n : Nat) (even : Bool)
  /-- a v source run that may not be a broadcast -/
  | vo (f : Field) (n : Nat) (even : Bool)
  /-- a v field whose run is known only at issue (R246, R285), or that names no storage (R356) -/
  | vf (f : Field)
  /-- the data of RST: a broadcast only where the record's EPA is 1 (R181) -/
  | rs (f : Field)
  /-- a g register named directly -/
  | gd (f : Field) (n : Nat) (even : Bool)
  /-- a broadcast field 0x70–0x7F: g0–g15 -/
  | bc (r : BitVec 4) (even : Bool)
deriving DecidableEq, Repr, Inhabited

/-- A destination: v registers with G = 0, g registers with G = 1 (R41). -/
def useD (g : Bool) (f : Field) (n : Nat) (even : Bool) : Use :=
  if g then .gd f n even else .vd f n even

/-- A source: v registers or a broadcast with G = 0, g registers with G = 1 (R41). -/
def useS (g : Bool) (f : Field) (n : Nat) (even : Bool) : Use :=
  if g then .gd f n even else .vs f n even

/-- The address operand: a pair with record 0, otherwise one register (R161). -/
def useA (g : Bool) (f : Field) (r : BitVec 7) : List Use :=
  [if r = 0 then useS g f 2 true else useS g f 1 false]

/-- The source of SWR: with G = 0 a broadcast field (R401). -/
def useW (g : Bool) (d : Field) : Use :=
  if g then .gd d 1 false else .bc (d.setWidth 4) false

/-- R41–R43 by the field's bits alone. -/
def Use.ok : Use → Bool
  | .vd f n e => f.toNat < 0x70 && f.toNat + n ≤ 0x70 && (!e || f.toNat % 2 == 0)
  | .vs f n e => (!e || f.toNat % 2 == 0) &&
      (if f.toNat < 0x70 then f.toNat + n ≤ 0x70 else f.toNat + n ≤ 0x80)
  | .vo f n e => f.toNat < 0x70 && f.toNat + n ≤ 0x70 && (!e || f.toNat % 2 == 0)
  | .vf f => f.toNat < 0x70
  | .rs _ => true
  | .gd f n e => f.toNat + n ≤ 128 && (!e || f.toNat % 2 == 0)
  | .bc r e => !e || r.toNat % 2 == 0

/-- The special registers SWR may write (R390). -/
def swrIndex (i : Nat) : Bool :=
  i = 0x08 || i = 0x09 || (0x0A ≤ i && i ≤ 0x0F) || i = 0x22 || (0x25 ≤ i && i ≤ 0x2B)

/-- The registers an instruction word names, in the order of its fields (R41, and each instruction's
own operand table). -/
@[inline] def Instr.uses (i : Instr) : List Use :=
  match i with
  | .add _ g d a b => [useD g d 1 false, useS g a 1 false, useS g b 1 false]
  | .sub _ g d a b => [useD g d 1 false, useS g a 1 false, useS g b 1 false]
  | .minS _ g d a b => [useD g d 1 false, useS g a 1 false, useS g b 1 false]
  | .minN _ g d a b => [useD g d 1 false, useS g a 1 false, useS g b 1 false]
  | .maxS _ g d a b => [useD g d 1 false, useS g a 1 false, useS g b 1 false]
  | .maxN _ g d a b => [useD g d 1 false, useS g a 1 false, useS g b 1 false]
  | .absdS _ g d a b => [useD g d 1 false, useS g a 1 false, useS g b 1 false]
  | .neg _ g d a => [useD g d 1 false, useS g a 1 false]
  | .and_ _ g d a b => [useD g d 1 false, useS g a 1 false, useS g b 1 false]
  | .or_ _ g d a b => [useD g d 1 false, useS g a 1 false, useS g b 1 false]
  | .xor _ g d a b => [useD g d 1 false, useS g a 1 false, useS g b 1 false]
  | .andn _ g d a b => [useD g d 1 false, useS g a 1 false, useS g b 1 false]
  | .orn _ g d a b => [useD g d 1 false, useS g a 1 false, useS g b 1 false]
  | .xnor _ g d a b => [useD g d 1 false, useS g a 1 false, useS g b 1 false]
  | .not_ _ g d a => [useD g d 1 false, useS g a 1 false]
  | .shl _ g d a b => [useD g d 1 false, useS g a 1 false, useS g b 1 false]
  | .shr _ g d a b => [useD g d 1 false, useS g a 1 false, useS g b 1 false]
  | .sar _ g d a b => [useD g d 1 false, useS g a 1 false, useS g b 1 false]
  | .rol _ g d a b => [useD g d 1 false, useS g a 1 false, useS g b 1 false]
  | .ror _ g d a b => [useD g d 1 false, useS g a 1 false, useS g b 1 false]
  | .shlW _ g d a b => [useD g d 2 true, useS g a 2 true, useS g b 1 false]
  | .shrW _ g d a b => [useD g d 2 true, useS g a 2 true, useS g b 1 false]
  | .sarW _ g d a b => [useD g d 2 true, useS g a 2 true, useS g b 1 false]
  | .mul _ g d a b => [useD g d 1 false, useS g a 1 false, useS g b 1 false]
  | .mulhS _ g d a b => [useD g d 1 false, useS g a 1 false, useS g b 1 false]
  | .mulhN _ g d a b => [useD g d 1 false, useS g a 1 false, useS g b 1 false]
  | .mad _ g d a b => [useD g d 1 false, useS g a 1 false, useS g b 1 false]
  | .mulwS _ g d a b => [useD g d 2 true, useS g a 1 false, useS g b 1 false]
  | .mulwN _ g d a b => [useD g d 2 true, useS g a 1 false, useS g b 1 false]
  | .madwS _ g d a b => [useD g d 2 true, useS g a 1 false, useS g b 1 false]
  | .madwN _ g d a b => [useD g d 2 true, useS g a 1 false, useS g b 1 false]
  | .popc _ g d a => [useD g d 1 false, useS g a 1 false]
  | .clz _ g d a => [useD g d 1 false, useS g a 1 false]
  | .ctz _ g d a => [useD g d 1 false, useS g a 1 false]
  | .brev _ g d a => [useD g d 1 false, useS g a 1 false]
  | .bfeS _ g d a b => [useD g d 1 false, useS g a 1 false, useS g b 1 false]
  | .bfeZ _ g d a b => [useD g d 1 false, useS g a 1 false, useS g b 1 false]
  | .bfi _ g d a b => [useD g d 1 false, useS g a 1 false, useS g b 1 false]
  | .prmt _ g d a b => [useD g d 1 false, useS g a 1 false, useS g b 1 false]
  | .icmpEq _ g d a b => [.gd d 1 false, useS g a 1 false, useS g b 1 false]
  | .icmpNe _ g d a b => [.gd d 1 false, useS g a 1 false, useS g b 1 false]
  | .icmpLtS _ g d a b => [.gd d 1 false, useS g a 1 false, useS g b 1 false]
  | .icmpLeS _ g d a b => [.gd d 1 false, useS g a 1 false, useS g b 1 false]
  | .icmpLtN _ g d a b => [.gd d 1 false, useS g a 1 false, useS g b 1 false]
  | .icmpLeN _ g d a b => [.gd d 1 false, useS g a 1 false, useS g b 1 false]
  | .icmpTest _ g d a b => [.gd d 1 false, useS g a 1 false, useS g b 1 false]
  | .add64 _ g d a b => [useD g d 2 true, useS g a 2 true, useS g b 2 true]
  | .sub64 _ g d a b => [useD g d 2 true, useS g a 2 true, useS g b 2 true]
  | .lea2 _ g d a b => [useD g d 2 true, useS g a 2 true, useS g b 1 false]
  | .lea4 _ g d a b => [useD g d 2 true, useS g a 2 true, useS g b 1 false]
  | .lea8 _ g d a b => [useD g d 2 true, useS g a 2 true, useS g b 1 false]
  | .lea16 _ g d a b => [useD g d 2 true, useS g a 2 true, useS g b 1 false]
  | .sext8 _ g d a => [useD g d 1 false, useS g a 1 false]
  | .sext16 _ g d a => [useD g d 1 false, useS g a 1 false]
  | .zext8 _ g d a => [useD g d 1 false, useS g a 1 false]
  | .zext16 _ g d a => [useD g d 1 false, useS g a 1 false]
  | .sext32 _ g d a => [useD g d 2 true, useS g a 1 false]
  | .zext32 _ g d a => [useD g d 2 true, useS g a 1 false]
  | .trunc64 _ g d a => [useD g d 1 false, useS g a 2 true]
  | .fadd _ g d a b => [useD g d 1 false, useS g a 1 false, useS g b 1 false]
  | .fsub _ g d a b => [useD g d 1 false, useS g a 1 false, useS g b 1 false]
  | .fmul _ g d a b => [useD g d 1 false, useS g a 1 false, useS g b 1 false]
  | .fmin _ g d a b => [useD g d 1 false, useS g a 1 false, useS g b 1 false]
  | .fmax _ g d a b => [useD g d 1 false, useS g a 1 false, useS g b 1 false]
  | .fminn _ g d a b => [useD g d 1 false, useS g a 1 false, useS g b 1 false]
  | .fmaxn _ g d a b => [useD g d 1 false, useS g a 1 false, useS g b 1 false]
  | .fcopysign _ g d a b => [useD g d 1 false, useS g a 1 false, useS g b 1 false]
  | .fma _ d a b => [.vd d 1 false, .vs a 1 false, .vs b 1 false]
  | .fms _ d a b => [.vd d 1 false, .vs a 1 false, .vs b 1 false]
  | .fnma _ d a b => [.vd d 1 false, .vs a 1 false, .vs b 1 false]
  | .fnms _ d a b => [.vd d 1 false, .vs a 1 false, .vs b 1 false]
  | .fmaF64 _ d a b => [.vd d 2 true, .vs a 2 true, .vs b 2 true]
  | .fmsF64 _ d a b => [.vd d 2 true, .vs a 2 true, .vs b 2 true]
  | .fnmaF64 _ d a b => [.vd d 2 true, .vs a 2 true, .vs b 2 true]
  | .fnmsF64 _ d a b => [.vd d 2 true, .vs a 2 true, .vs b 2 true]
  | .hadd2F16 _ d a b => [.vd d 1 false, .vs a 1 false, .vs b 1 false]
  | .hmul2F16 _ d a b => [.vd d 1 false, .vs a 1 false, .vs b 1 false]
  | .hfma2F16 _ d a b => [.vd d 1 false, .vs a 1 false, .vs b 1 false]
  | .hadd2Bf16 _ d a b => [.vd d 1 false, .vs a 1 false, .vs b 1 false]
  | .hmul2Bf16 _ d a b => [.vd d 1 false, .vs a 1 false, .vs b 1 false]
  | .hfma2Bf16 _ d a b => [.vd d 1 false, .vs a 1 false, .vs b 1 false]
  | .hmin2F16 _ d a b => [.vd d 1 false, .vs a 1 false, .vs b 1 false]
  | .hmax2F16 _ d a b => [.vd d 1 false, .vs a 1 false, .vs b 1 false]
  | .feq _ d a b => [.gd d 1 false, .vs a 1 false, .vs b 1 false]
  | .fne _ d a b => [.gd d 1 false, .vs a 1 false, .vs b 1 false]
  | .flt _ d a b => [.gd d 1 false, .vs a 1 false, .vs b 1 false]
  | .fle _ d a b => [.gd d 1 false, .vs a 1 false, .vs b 1 false]
  | .fun _ d a b => [.gd d 1 false, .vs a 1 false, .vs b 1 false]
  | .feqF64 _ d a b => [.gd d 1 false, .vs a 2 true, .vs b 2 true]
  | .fltF64 _ d a b => [.gd d 1 false, .vs a 2 true, .vs b 2 true]
  | .fleF64 _ d a b => [.gd d 1 false, .vs a 2 true, .vs b 2 true]
  | .rcp _ g d a => [useD g d 1 false, useS g a 1 false]
  | .rsq _ g d a => [useD g d 1 false, useS g a 1 false]
  | .sqrt _ g d a => [useD g d 1 false, useS g a 1 false]
  | .exp2 _ g d a => [useD g d 1 false, useS g a 1 false]
  | .log2 _ g d a => [useD g d 1 false, useS g a 1 false]
  | .sinpi _ g d a => [useD g d 1 false, useS g a 1 false]
  | .cospi _ g d a => [useD g d 1 false, useS g a 1 false]
  | .tanh _ g d a => [useD g d 1 false, useS g a 1 false]
  | .cvtF32S32 _ g d a _ _ => [useD g d 1 false, useS g a 1 false]
  | .cvtF32N32 _ g d a _ _ => [useD g d 1 false, useS g a 1 false]
  | .cvtS32F32 _ g d a _ _ => [useD g d 1 false, useS g a 1 false]
  | .cvtN32F32 _ g d a _ _ => [useD g d 1 false, useS g a 1 false]
  | .cvtF64F32 _ g d a _ _ => [useD g d 2 true, useS g a 1 false]
  | .cvtF32F64 _ g d a _ _ => [useD g d 1 false, useS g a 2 true]
  | .cvtF64S32 _ g d a _ _ => [useD g d 2 true, useS g a 1 false]
  | .cvtS32F64 _ g d a _ _ => [useD g d 1 false, useS g a 2 true]
  | .faddF64 _ d a b => [.vd d 2 true, .vs a 2 true, .vs b 2 true]
  | .fsubF64 _ d a b => [.vd d 2 true, .vs a 2 true, .vs b 2 true]
  | .fmulF64 _ d a b => [.vd d 2 true, .vs a 2 true, .vs b 2 true]
  | .fminF64 _ d a b => [.vd d 2 true, .vs a 2 true, .vs b 2 true]
  | .fmaxF64 _ d a b => [.vd d 2 true, .vs a 2 true, .vs b 2 true]
  | .frndF32 _ d a _ => [.vd d 1 false, .vs a 1 false]
  | .frndF64 _ d a _ => [.vd d 2 true, .vs a 2 true]
  | .packF16 _ d a b => [.vd d 1 false, .vs a 1 false, .vs b 1 false]
  | .packBf16 _ d a b => [.vd d 1 false, .vs a 1 false, .vs b 1 false]
  | .dot2F16 _ d a b => [.vd d 1 false, .vs a 1 false, .vs b 1 false]
  | .dot2Bf16 _ d a b => [.vd d 1 false, .vs a 1 false, .vs b 1 false]
  | .dot4E4m3 _ d a b => [.vd d 1 false, .vs a 1 false, .vs b 1 false]
  | .dot4E5m2 _ d a b => [.vd d 1 false, .vs a 1 false, .vs b 1 false]
  | .dot4S8 _ d a b => [.vd d 1 false, .vs a 1 false, .vs b 1 false]
  | .dot4Z8 _ d a b => [.vd d 1 false, .vs a 1 false, .vs b 1 false]
  | .cvtbE4m3 _ d a _ _ => [.vd d 1 false, .vo a 4 true]
  | .cvtbE5m2 _ d a _ _ => [.vd d 1 false, .vo a 4 true]
  | .cvtbE2m3 _ d a _ _ => [.vd d 1 false, .vo a 4 true]
  | .cvtbE3m2 _ d a _ _ => [.vd d 1 false, .vo a 4 true]
  | .cvtbE2m1 _ d a _ _ => [.vd d 1 false, .vo a 4 true]
  | .xcvtE4m3 _ d a f => [.vd d (if f = 0 then 4 else 2) true, .vs a 1 false]
  | .xcvtE5m2 _ d a f => [.vd d (if f = 0 then 4 else 2) true, .vs a 1 false]
  | .xcvtE2m1 _ d a f => [.vd d (if f = 0 then 4 else 2) true, .vs a 1 false]
  | .addi _ g d a _ => [useD g d 1 false, useS g a 1 false]
  | .andi _ g d a _ => [useD g d 1 false, useS g a 1 false]
  | .ori _ g d a _ => [useD g d 1 false, useS g a 1 false]
  | .movi _ g d _ => [useD g d 1 false]
  | .lit32 _ g d => [useD g d 1 false]
  | .lit64 _ g d => [useD g d 2 true]
  | .shli _ g d a _ => [useD g d 1 false, useS g a 1 false]
  | .shri _ g d a _ => [useD g d 1 false, useS g a 1 false]
  | .sari _ g d a _ => [useD g d 1 false, useS g a 1 false]
  | .roli _ g d a _ => [useD g d 1 false, useS g a 1 false]
  | .rori _ g d a _ => [useD g d 1 false, useS g a 1 false]
  | .shlWi _ g d a _ => [useD g d 2 true, useS g a 2 true]
  | .shrWi _ g d a _ => [useD g d 2 true, useS g a 2 true]
  | .sarWi _ g d a _ => [useD g d 2 true, useS g a 2 true]
  | .shflIdx _ d a b => [.vd d 1 false, .vs a 1 false, .vs b 1 false]
  | .shflUp _ d a b => [.vd d 1 false, .vs a 1 false, .vs b 1 false]
  | .shflDn _ d a b => [.vd d 1 false, .vs a 1 false, .vs b 1 false]
  | .shflXor _ d a b => [.vd d 1 false, .vs a 1 false, .vs b 1 false]
  | .bcast _ d a => [.gd d 1 false, .vs a 1 false]
  | .vset _ d a => [.vd d 1 false, .bc a false]
  | .redadd _ d a => [.gd d 1 false, .vs a 1 false]
  | .redmaxS _ d a => [.gd d 1 false, .vs a 1 false]
  | .mpopc _ d a => [.gd d 1 false, .gd a 1 false]
  | .mffs _ d a => [.gd d 1 false, .gd a 1 false]
  | .mfls _ d a => [.gd d 1 false, .gd a 1 false]
  | .mtest _ _ a b => [.gd a 1 false, .gd b 1 false]
  | .mov _ d a => [.vd d 1 false, .vs a 1 false]
  | .movg _ d a => [.gd d 1 false, .gd a 1 false]
  | .movv _ d a => [.vd d 2 true, .vs a 2 true]
  | .movq _ _ a => [.gd a 1 false]
  | .qmov _ d _ => [.gd d 1 false]
  | .ldS8 _ g d a r => useD g d 1 false :: useA g a r
  | .ldZ8 _ g d a r => useD g d 1 false :: useA g a r
  | .ldS16 _ g d a r => useD g d 1 false :: useA g a r
  | .ldZ16 _ g d a r => useD g d 1 false :: useA g a r
  | .ld32 _ g d a r => useD g d 1 false :: useA g a r
  | .ld64 _ g d a r => useD g d 2 true :: useA g a r
  | .ld128 _ g d a r => useD g d 4 true :: useA g a r
  | .ldE _ g d a r => .vd d 0 false :: useA g a r
  | .st8 _ g d a r => useS g d 1 false :: useA g a r
  | .st16 _ g d a r => useS g d 1 false :: useA g a r
  | .st32 _ g d a r => useS g d 1 false :: useA g a r
  | .st64 _ g d a r => useS g d 2 true :: useA g a r
  | .st128 _ g d a r => (if g then .gd d 4 true else .vo d 4 true) :: useA g a r
  | .stE _ g d a r => .vo d 0 false :: useA g a r
  | .atomAdd _ d a _ r => .vd d 1 false :: useA false a (r.setWidth 7)
  | .atomMinS _ d a _ r => .vd d 1 false :: useA false a (r.setWidth 7)
  | .atomMaxS _ d a _ r => .vd d 1 false :: useA false a (r.setWidth 7)
  | .atomMinN _ d a _ r => .vd d 1 false :: useA false a (r.setWidth 7)
  | .atomMaxN _ d a _ r => .vd d 1 false :: useA false a (r.setWidth 7)
  | .atomAnd _ d a _ r => .vd d 1 false :: useA false a (r.setWidth 7)
  | .atomOr _ d a _ r => .vd d 1 false :: useA false a (r.setWidth 7)
  | .atomExch _ d a _ r => .vd d 1 false :: useA false a (r.setWidth 7)
  | .atomxCas _ d a _ r => .vd d 2 true :: useA false a (r.setWidth 7)
  | .atomxXor _ d a _ r => .vd d 1 false :: useA false a (r.setWidth 7)
  | .atomxFadd _ d a _ r => .vd d 1 false :: useA false a (r.setWidth 7)
  | .atomxFmin _ d a _ r => .vd d 1 false :: useA false a (r.setWidth 7)
  | .atomxFmax _ d a _ r => .vd d 1 false :: useA false a (r.setWidth 7)
  | .atomxAdd64 _ d a _ r => .vd d 2 true :: useA false a (r.setWidth 7)
  | .atomxCas64 _ d a _ r => .vd d 4 true :: useA false a (r.setWidth 7)
  | .atomxIncw _ d a _ r => .vd d 1 false :: useA false a (r.setWidth 7)
  | .redAdd _ d a _ r => .vs d 1 false :: useA false a (r.setWidth 7)
  | .redMinS _ d a _ r => .vs d 1 false :: useA false a (r.setWidth 7)
  | .redMaxS _ d a _ r => .vs d 1 false :: useA false a (r.setWidth 7)
  | .redMinN _ d a _ r => .vs d 1 false :: useA false a (r.setWidth 7)
  | .redMaxN _ d a _ r => .vs d 1 false :: useA false a (r.setWidth 7)
  | .redAnd _ d a _ r => .vs d 1 false :: useA false a (r.setWidth 7)
  | .redOr _ d a _ r => .vs d 1 false :: useA false a (r.setWidth 7)
  | .redFadd _ d a _ r => .vs d 1 false :: useA false a (r.setWidth 7)
  | .ldlS8 _ d a _ => [.vd d 1 false, .vs a 1 false]
  | .ldlZ8 _ d a _ => [.vd d 1 false, .vs a 1 false]
  | .ldlS16 _ d a _ => [.vd d 1 false, .vs a 1 false]
  | .ldlZ16 _ d a _ => [.vd d 1 false, .vs a 1 false]
  | .ldl32 _ d a _ => [.vd d 1 false, .vs a 1 false]
  | .ldl64 _ d a _ => [.vd d 2 true, .vs a 1 false]
  | .ldl128 _ d a _ => [.vd d 4 true, .vs a 1 false]
  | .stl8 _ d a _ => [.vs d 1 false, .vs a 1 false]
  | .stl16 _ d a _ => [.vs d 1 false, .vs a 1 false]
  | .stl32 _ d a _ => [.vs d 1 false, .vs a 1 false]
  | .stl64 _ d a _ => [.vs d 2 true, .vs a 1 false]
  | .stl128 _ d a _ => [.vo d 4 true, .vs a 1 false]
  | .atomlAdd _ d a _ => [.vd d 1 false, .vs a 1 false]
  | .atomlMinS _ d a _ => [.vd d 1 false, .vs a 1 false]
  | .atomlMaxS _ d a _ => [.vd d 1 false, .vs a 1 false]
  | .atomlAnd _ d a _ => [.vd d 1 false, .vs a 1 false]
  | .atomlOr _ d a _ => [.vd d 1 false, .vs a 1 false]
  | .atomlExch _ d a _ => [.vd d 1 false, .vs a 1 false]
  | .atomlCas _ d a _ => [.vd d 2 true, .vs a 1 false]
  | .atomlFadd _ d a _ => [.vd d 1 false, .vs a 1 false]
  | .pref _ a r => useA false a r
  | .prefx _ a r => useA false a r
  | .evict _ a r => useA false a r
  | .cpyGl _ d a b => [.bc d false, .bc a true, .bc b false]
  | .cpyLg _ d a b => [.bc d true, .bc a false, .bc b false]
  | .cpyGg _ d a b => [.bc d true, .bc a true, .bc b false]
  | .cptGl _ d a _ => [.bc d true, .bc a true]
  | .cptLg _ d a _ => [.bc d true, .bc a true]
  | .cpbatch _ a => [.bc a true]
  | .cpwait _ d a => [.vd d 1 false, .bc a false]
  | .tld _ d a n => [.vd d (n.toNat + 1) false, .bc a false]
  | .tst _ d a n => [.vo d (n.toNat + 1) false, .bc a false]
  | .tldg _ d a b => [.bc d false, .bc a true, .bc b true]
  | .tstg _ d a b => [.bc d false, .bc a true, .bc b true]
  | .tzero _ d b => [.bc d false, .bc b false]
  | .tcvt _ d a b => [.bc d false, .bc a false, .bc b false]
  | .mmaE4m3 _ d a b => [.bc d false, .vf a, .vf b]
  | .mmaE5m2 _ d a b => [.bc d false, .vf a, .vf b]
  | .mmaBf16 _ d a b => [.bc d false, .vf a, .vf b]
  | .mmaF16 _ d a b => [.bc d false, .vf a, .vf b]
  | .mmaMxe4m3 _ d a b => [.bc d false, .vf a, .vf b]
  | .mmaMxe2m3 _ d a b => [.bc d false, .vf a, .vf b]
  | .mmaMxe2m1 _ d a b => [.bc d false, .vf a, .vf b]
  | .mmaS8 _ d a b => [.bc d false, .vf a, .vf b]
  | .qset _ a => [.bc a false]
  | .samp _ d a _ => [.vd d 4 false, .vo a 2 false]
  | .sampg _ d a _ => [.vd d 4 false, .vo a 6 false]
  | .sampb _ d a _ => [.vd d 4 false, .vo a 3 false]
  | .fetch _ d a _ => [.vd d 4 false, .vo a 3 false]
  | .fetchf _ d a _ => [.vd d 5 false, .vo a 3 false]
  | .gath4 _ d a _ => [.vd d 4 false, .vo a 3 false]
  | .resq _ d a _ => [.vd d 4 false, .vo a 1 false]
  | .rayld _ a => [.vo a 8 false]
  | .boxt _ d a => [.vd d 10 false, .vo a 2 true]
  | .trit _ d a => [.vd d 4 false, .vo a 2 true]
  | .stkinit _ d a b => [.vf d, .bc a true, .bc b false]
  | .stkpush _ a => [.vs a 1 false]
  | .stkpop _ d => [.vd d 1 false]
  | .frag _ d a => [.vd d 3 false, .bc a true]
  | .cover _ d a => [.vd d 4 false, .vo a 2 false]
  | .scq _ d a => [.vd d 4 true, .vs a 2 true]
  | .scwait _ d a => [.vd d 1 false, .vs a 1 false]
  | .scpub _ d a => [.vd d 1 false, .bc a false]
  | .scabort _ d a => [.vd d 1 false, .bc a false]
  | .scinv _ d a => [.vd d 1 false, .vs a 1 false]
  | .scpin _ d a => [.vd d 1 false, .vs a 2 true]
  | .scunpin _ d a => [.vd d 1 false, .vs a 2 true]
  | .jmp _ a => [.bc a true]
  | .call _ d a => [.vd d 2 true, .bc a true]
  | .calli _ d a => [.vd d 2 true, .vs a 2 true]
  | .ret _ a => [.vs a 2 true]
  | .jmpi _ a => [.vs a 2 true]
  | .psplit _ d _ => [.gd d 1 false]
  | .meld _ d _ _ => [.gd d 1 false]
  | .pren _ a _ _ _ b => [.vf a, .vf b]
  | .gbarArr _ d => [.gd d 2 true]
  | .rpush _ a b => [.gd a 1 false, .gd b 1 false]
  | .rpop _ d a => [.gd d 1 false, .gd a 1 false]
  | .rpeek _ d a => [.gd d 1 false, .gd a 1 false]
  | .rclose _ a => [.gd a 1 false]
  | .srd _ g d _ => [useD g d 1 false]
  | .swr _ g d _ => [useW g d]
  | .clkloRead _ g d => [useD g d 1 false]
  | .mextRequest _ g d => [useW g d]
  | .srdl _ g d _ => [useD g d 2 true]
  | .invr _ a b => [.bc a true, .bc b false]
  | .invrRangedesc _ a b => [.bc a true, .bc b false]
  | .replayByPage _ a b => [.bc a true, .bc b false]
  | .replayByToken _ a b => [.bc a true, .bc b false]
  | .pin _ d a b => [.vd d 1 false, .bc a true, .bc b false]
  | .unpin _ d a b => [.vd d 1 false, .bc a true, .bc b false]
  | .migr _ d a => [.vd d 1 false, .bc a true]
  | .frpop _ d => [.vd d 1 false]
  | .dbghalt _ d a => [.vd d 1 false, .bc a false]
  | .dbgres _ d a => [.vd d 1 false, .bc a false]
  | .rst _ d a r => .rs d :: useA false a r
  | .rld _ d a r => .vd d 0 false :: useA false a r
  | .ratom _ d a r => .vd d 2 true :: useA false a r
  | .tlaunch _ d a b => [.vd d 1 false, .bc a true, .bc b false]
  | .tlaunchJob _ d a b => [.vd d 1 false, .bc a true, .bc b false]
  | .tdec _ d a b => [.vd d 1 false, .bc a true, .bc b false]
  | .tcancel _ d a => [.vd d 1 false, .bc a true]
  | .tstat _ d a => [.vd d 1 false, .bc a true]
  | _ => []

/-- The further limits on an instruction's fields that the word alone decides (R39, R41, R49). -/
@[inline] def Instr.limits (i : Instr) : Bool :=
  match i with
  | .icmpEq _ g d _ _ => !g || d.toNat < 8
  | .icmpNe _ g d _ _ => !g || d.toNat < 8
  | .icmpLtS _ g d _ _ => !g || d.toNat < 8
  | .icmpLeS _ g d _ _ => !g || d.toNat < 8
  | .icmpLtN _ g d _ _ => !g || d.toNat < 8
  | .icmpLeN _ g d _ _ => !g || d.toNat < 8
  | .icmpTest _ g d _ _ => !g || d.toNat < 8
  | .cvtF32S32 _ _ _ _ _ m => m.toNat < 6
  | .cvtF32N32 _ _ _ _ _ m => m.toNat < 6
  | .cvtS32F32 _ _ _ _ _ m => m.toNat < 6
  | .cvtN32F32 _ _ _ _ _ m => m.toNat < 6
  | .cvtF64F32 _ _ _ _ _ m => m.toNat < 6
  | .cvtF32F64 _ _ _ _ _ m => m.toNat < 6
  | .cvtF64S32 _ _ _ _ _ m => m.toNat < 6
  | .cvtS32F64 _ _ _ _ _ m => m.toNat < 6
  | .frndF32 _ _ _ m => m.toNat < 6
  | .frndF64 _ _ _ m => m.toNat < 6
  | .cvtbE4m3 _ _ _ _ m => m.toNat < 6
  | .cvtbE5m2 _ _ _ _ m => m.toNat < 6
  | .cvtbE2m3 _ _ _ _ m => m.toNat < 6
  | .cvtbE3m2 _ _ _ _ m => m.toNat < 6
  | .cvtbE2m1 _ _ _ _ m => m.toNat < 6
  | .xcvtE4m3 _ _ _ f => f.toNat < 3
  | .xcvtE5m2 _ _ _ f => f.toNat < 3
  | .xcvtE2m1 _ _ _ f => f.toNat < 3
  | .ldS8 _ g d _ r => r.toNat < 127 && (!g || d.toNat + 1 < 128)
  | .ldZ8 _ g d _ r => r.toNat < 127 && (!g || d.toNat + 1 < 128)
  | .ldS16 _ g d _ r => r.toNat < 127 && (!g || d.toNat + 1 < 128)
  | .ldZ16 _ g d _ r => r.toNat < 127 && (!g || d.toNat + 1 < 128)
  | .ld32 _ g d _ r => r.toNat < 127 && (!g || d.toNat + 1 < 128)
  | .ld64 _ g d _ r => r.toNat < 127 && (!g || d.toNat + 2 < 128)
  | .ld128 _ g d _ r => r.toNat < 127 && (!g || d.toNat + 4 < 128)
  | .ldE _ g _ _ r => r.toNat < 127 && !g
  | .st8 _ g d _ r => r.toNat < 127 && (!g || d.toNat + 1 < 129)
  | .st16 _ g d _ r => r.toNat < 127 && (!g || d.toNat + 1 < 129)
  | .st32 _ g d _ r => r.toNat < 127 && (!g || d.toNat + 1 < 129)
  | .st64 _ g d _ r => r.toNat < 127 && (!g || d.toNat + 2 < 129)
  | .st128 _ g d _ r => r.toNat < 127 && (!g || d.toNat + 4 < 129)
  | .stE _ g _ _ r => r.toNat < 127 && !g
  | .pref _ _ r => r.toNat < 127
  | .prefx _ _ r => r.toNat < 127
  | .evict _ _ r => r.toNat < 127
  | .samp _ _ _ r => r.toNat < 127
  | .sampg _ _ _ r => r.toNat < 127
  | .sampb _ _ _ r => r.toNat < 127
  | .fetch _ _ _ r => r.toNat < 127
  | .fetchf _ _ _ r => r.toNat < 127
  | .gath4 _ _ _ r => r.toNat < 127
  | .resq _ _ _ r => r.toNat < 127
  | .meld _ _ _ n => 1 ≤ n.toNat && n.toNat ≤ 60
  | .gbarArr _ d => d.toNat ≤ 0x7C
  | .srd _ _ _ i => i.toNat < 0x2C
  | .swr _ g d i => swrIndex i.toNat && (g || 0x70 ≤ d.toNat)
  | .mextRequest _ g d => g || 0x70 ≤ d.toNat
  | .srdl _ _ _ i => i = 0x00 || i = 0x0B || i = 0x0E
  | .rst _ _ _ r => r.toNat < 127
  | .rld _ _ _ r => r.toNat < 127
  | .ratom _ _ _ r => r.toNat < 127
  | _ => true

/-- Whether R49 lets the word through by its bits alone; otherwise it raises ILL. -/
@[inline] def Instr.wellFormed (i : Instr) : Bool := i.uses.all Use.ok && i.limits

/-- The engine class of an instruction word (R45, R46). -/
@[inline] def Instr.cls (i : Instr) : Option Nat :=
  match i with
  | .add _ g _ _ _ => some (if g then 1 else 0)
  | .sub _ g _ _ _ => some (if g then 1 else 0)
  | .minS _ g _ _ _ => some (if g then 1 else 0)
  | .minN _ g _ _ _ => some (if g then 1 else 0)
  | .maxS _ g _ _ _ => some (if g then 1 else 0)
  | .maxN _ g _ _ _ => some (if g then 1 else 0)
  | .absdS _ g _ _ _ => some (if g then 1 else 0)
  | .neg _ g _ _ => some (if g then 1 else 0)
  | .and_ _ g _ _ _ => some (if g then 1 else 0)
  | .or_ _ g _ _ _ => some (if g then 1 else 0)
  | .xor _ g _ _ _ => some (if g then 1 else 0)
  | .andn _ g _ _ _ => some (if g then 1 else 0)
  | .orn _ g _ _ _ => some (if g then 1 else 0)
  | .xnor _ g _ _ _ => some (if g then 1 else 0)
  | .not_ _ g _ _ => some (if g then 1 else 0)
  | .shl _ g _ _ _ => some (if g then 1 else 0)
  | .shr _ g _ _ _ => some (if g then 1 else 0)
  | .sar _ g _ _ _ => some (if g then 1 else 0)
  | .rol _ g _ _ _ => some (if g then 1 else 0)
  | .ror _ g _ _ _ => some (if g then 1 else 0)
  | .shlW _ g _ _ _ => some (if g then 1 else 0)
  | .shrW _ g _ _ _ => some (if g then 1 else 0)
  | .sarW _ g _ _ _ => some (if g then 1 else 0)
  | .mul _ g _ _ _ => some (if g then 1 else 0)
  | .mulhS _ g _ _ _ => some (if g then 1 else 0)
  | .mulhN _ g _ _ _ => some (if g then 1 else 0)
  | .mad _ g _ _ _ => some (if g then 1 else 0)
  | .mulwS _ g _ _ _ => some (if g then 1 else 0)
  | .mulwN _ g _ _ _ => some (if g then 1 else 0)
  | .madwS _ g _ _ _ => some (if g then 1 else 0)
  | .madwN _ g _ _ _ => some (if g then 1 else 0)
  | .popc _ g _ _ => some (if g then 1 else 0)
  | .clz _ g _ _ => some (if g then 1 else 0)
  | .ctz _ g _ _ => some (if g then 1 else 0)
  | .brev _ g _ _ => some (if g then 1 else 0)
  | .bfeS _ g _ _ _ => some (if g then 1 else 0)
  | .bfeZ _ g _ _ _ => some (if g then 1 else 0)
  | .bfi _ g _ _ _ => some (if g then 1 else 0)
  | .prmt _ g _ _ _ => some (if g then 1 else 0)
  | .icmpEq _ g _ _ _ => some (if g then 1 else 0)
  | .icmpNe _ g _ _ _ => some (if g then 1 else 0)
  | .icmpLtS _ g _ _ _ => some (if g then 1 else 0)
  | .icmpLeS _ g _ _ _ => some (if g then 1 else 0)
  | .icmpLtN _ g _ _ _ => some (if g then 1 else 0)
  | .icmpLeN _ g _ _ _ => some (if g then 1 else 0)
  | .icmpTest _ g _ _ _ => some (if g then 1 else 0)
  | .add64 _ g _ _ _ => some (if g then 1 else 0)
  | .sub64 _ g _ _ _ => some (if g then 1 else 0)
  | .lea2 _ g _ _ _ => some (if g then 1 else 0)
  | .lea4 _ g _ _ _ => some (if g then 1 else 0)
  | .lea8 _ g _ _ _ => some (if g then 1 else 0)
  | .lea16 _ g _ _ _ => some (if g then 1 else 0)
  | .sext8 _ g _ _ => some (if g then 1 else 0)
  | .sext16 _ g _ _ => some (if g then 1 else 0)
  | .zext8 _ g _ _ => some (if g then 1 else 0)
  | .zext16 _ g _ _ => some (if g then 1 else 0)
  | .sext32 _ g _ _ => some (if g then 1 else 0)
  | .zext32 _ g _ _ => some (if g then 1 else 0)
  | .trunc64 _ g _ _ => some (if g then 1 else 0)
  | .fadd _ g _ _ _ => some (if g then 1 else 0)
  | .fsub _ g _ _ _ => some (if g then 1 else 0)
  | .fmul _ g _ _ _ => some (if g then 1 else 0)
  | .fmin _ g _ _ _ => some (if g then 1 else 0)
  | .fmax _ g _ _ _ => some (if g then 1 else 0)
  | .fminn _ g _ _ _ => some (if g then 1 else 0)
  | .fmaxn _ g _ _ _ => some (if g then 1 else 0)
  | .fcopysign _ g _ _ _ => some (if g then 1 else 0)
  | .fma _ _ _ _ => some 0
  | .fms _ _ _ _ => some 0
  | .fnma _ _ _ _ => some 0
  | .fnms _ _ _ _ => some 0
  | .fmaF64 _ _ _ _ => some 0
  | .fmsF64 _ _ _ _ => some 0
  | .fnmaF64 _ _ _ _ => some 0
  | .fnmsF64 _ _ _ _ => some 0
  | .hadd2F16 _ _ _ _ => some 0
  | .hmul2F16 _ _ _ _ => some 0
  | .hfma2F16 _ _ _ _ => some 0
  | .hadd2Bf16 _ _ _ _ => some 0
  | .hmul2Bf16 _ _ _ _ => some 0
  | .hfma2Bf16 _ _ _ _ => some 0
  | .hmin2F16 _ _ _ _ => some 0
  | .hmax2F16 _ _ _ _ => some 0
  | .feq _ _ _ _ => some 0
  | .fne _ _ _ _ => some 0
  | .flt _ _ _ _ => some 0
  | .fle _ _ _ _ => some 0
  | .fun _ _ _ _ => some 0
  | .feqF64 _ _ _ _ => some 0
  | .fltF64 _ _ _ _ => some 0
  | .fleF64 _ _ _ _ => some 0
  | .rcp _ g _ _ => some (if g then 1 else 0)
  | .rsq _ g _ _ => some (if g then 1 else 0)
  | .sqrt _ g _ _ => some (if g then 1 else 0)
  | .exp2 _ g _ _ => some (if g then 1 else 0)
  | .log2 _ g _ _ => some (if g then 1 else 0)
  | .sinpi _ g _ _ => some (if g then 1 else 0)
  | .cospi _ g _ _ => some (if g then 1 else 0)
  | .tanh _ g _ _ => some (if g then 1 else 0)
  | .cvtF32S32 _ g _ _ _ _ => some (if g then 1 else 0)
  | .cvtF32N32 _ g _ _ _ _ => some (if g then 1 else 0)
  | .cvtS32F32 _ g _ _ _ _ => some (if g then 1 else 0)
  | .cvtN32F32 _ g _ _ _ _ => some (if g then 1 else 0)
  | .cvtF64F32 _ g _ _ _ _ => some (if g then 1 else 0)
  | .cvtF32F64 _ g _ _ _ _ => some (if g then 1 else 0)
  | .cvtF64S32 _ g _ _ _ _ => some (if g then 1 else 0)
  | .cvtS32F64 _ g _ _ _ _ => some (if g then 1 else 0)
  | .faddF64 _ _ _ _ => some 0
  | .fsubF64 _ _ _ _ => some 0
  | .fmulF64 _ _ _ _ => some 0
  | .fminF64 _ _ _ _ => some 0
  | .fmaxF64 _ _ _ _ => some 0
  | .frndF32 _ _ _ _ => some 0
  | .frndF64 _ _ _ _ => some 0
  | .packF16 _ _ _ _ => some 0
  | .packBf16 _ _ _ _ => some 0
  | .dot2F16 _ _ _ _ => some 0
  | .dot2Bf16 _ _ _ _ => some 0
  | .dot4E4m3 _ _ _ _ => some 0
  | .dot4E5m2 _ _ _ _ => some 0
  | .dot4S8 _ _ _ _ => some 0
  | .dot4Z8 _ _ _ _ => some 0
  | .cvtbE4m3 _ _ _ _ _ => some 0
  | .cvtbE5m2 _ _ _ _ _ => some 0
  | .cvtbE2m3 _ _ _ _ _ => some 0
  | .cvtbE3m2 _ _ _ _ _ => some 0
  | .cvtbE2m1 _ _ _ _ _ => some 0
  | .xcvtE4m3 _ _ _ _ => some 0
  | .xcvtE5m2 _ _ _ _ => some 0
  | .xcvtE2m1 _ _ _ _ => some 0
  | .addi _ g _ _ _ => some (if g then 1 else 0)
  | .andi _ g _ _ _ => some (if g then 1 else 0)
  | .ori _ g _ _ _ => some (if g then 1 else 0)
  | .movi _ g _ _ => some (if g then 1 else 0)
  | .lit32 _ g _ => some (if g then 1 else 0)
  | .lit64 _ g _ => some (if g then 1 else 0)
  | .shli _ g _ _ _ => some (if g then 1 else 0)
  | .shri _ g _ _ _ => some (if g then 1 else 0)
  | .sari _ g _ _ _ => some (if g then 1 else 0)
  | .roli _ g _ _ _ => some (if g then 1 else 0)
  | .rori _ g _ _ _ => some (if g then 1 else 0)
  | .shlWi _ g _ _ _ => some (if g then 1 else 0)
  | .shrWi _ g _ _ _ => some (if g then 1 else 0)
  | .sarWi _ g _ _ _ => some (if g then 1 else 0)
  | .shflIdx _ _ _ _ => some 0
  | .shflUp _ _ _ _ => some 0
  | .shflDn _ _ _ _ => some 0
  | .shflXor _ _ _ _ => some 0
  | .bcast _ _ _ => some 0
  | .vset _ _ _ => some 0
  | .redadd _ _ _ => some 0
  | .redmaxS _ _ _ => some 0
  | .mpopc _ _ _ => some 1
  | .mffs _ _ _ => some 1
  | .mfls _ _ _ => some 1
  | .mtest _ _ _ _ => some 1
  | .qand _ _ _ _ => some 1
  | .qor _ _ _ _ => some 1
  | .qxor _ _ _ _ => some 1
  | .qnot _ _ _ => some 1
  | .mov _ _ _ => some 0
  | .movg _ _ _ => some 1
  | .movv _ _ _ => some 0
  | .movq _ _ _ => some 1
  | .qmov _ _ _ => some 1
  | .ldS8 _ _ _ _ _ => some 2
  | .ldZ8 _ _ _ _ _ => some 2
  | .ldS16 _ _ _ _ _ => some 2
  | .ldZ16 _ _ _ _ _ => some 2
  | .ld32 _ _ _ _ _ => some 2
  | .ld64 _ _ _ _ _ => some 2
  | .ld128 _ _ _ _ _ => some 2
  | .ldE _ _ _ _ _ => some 2
  | .st8 _ _ _ _ _ => some 2
  | .st16 _ _ _ _ _ => some 2
  | .st32 _ _ _ _ _ => some 2
  | .st64 _ _ _ _ _ => some 2
  | .st128 _ _ _ _ _ => some 2
  | .stE _ _ _ _ _ => some 2
  | .atomAdd _ _ _ _ _ => some 2
  | .atomMinS _ _ _ _ _ => some 2
  | .atomMaxS _ _ _ _ _ => some 2
  | .atomMinN _ _ _ _ _ => some 2
  | .atomMaxN _ _ _ _ _ => some 2
  | .atomAnd _ _ _ _ _ => some 2
  | .atomOr _ _ _ _ _ => some 2
  | .atomExch _ _ _ _ _ => some 2
  | .atomxCas _ _ _ _ _ => some 2
  | .atomxXor _ _ _ _ _ => some 2
  | .atomxFadd _ _ _ _ _ => some 2
  | .atomxFmin _ _ _ _ _ => some 2
  | .atomxFmax _ _ _ _ _ => some 2
  | .atomxAdd64 _ _ _ _ _ => some 2
  | .atomxCas64 _ _ _ _ _ => some 2
  | .atomxIncw _ _ _ _ _ => some 2
  | .redAdd _ _ _ _ _ => some 2
  | .redMinS _ _ _ _ _ => some 2
  | .redMaxS _ _ _ _ _ => some 2
  | .redMinN _ _ _ _ _ => some 2
  | .redMaxN _ _ _ _ _ => some 2
  | .redAnd _ _ _ _ _ => some 2
  | .redOr _ _ _ _ _ => some 2
  | .redFadd _ _ _ _ _ => some 2
  | .ldlS8 _ _ _ _ => some 2
  | .ldlZ8 _ _ _ _ => some 2
  | .ldlS16 _ _ _ _ => some 2
  | .ldlZ16 _ _ _ _ => some 2
  | .ldl32 _ _ _ _ => some 2
  | .ldl64 _ _ _ _ => some 2
  | .ldl128 _ _ _ _ => some 2
  | .stl8 _ _ _ _ => some 2
  | .stl16 _ _ _ _ => some 2
  | .stl32 _ _ _ _ => some 2
  | .stl64 _ _ _ _ => some 2
  | .stl128 _ _ _ _ => some 2
  | .atomlAdd _ _ _ _ => some 2
  | .atomlMinS _ _ _ _ => some 2
  | .atomlMaxS _ _ _ _ => some 2
  | .atomlAnd _ _ _ _ => some 2
  | .atomlOr _ _ _ _ => some 2
  | .atomlExch _ _ _ _ => some 2
  | .atomlCas _ _ _ _ => some 2
  | .atomlFadd _ _ _ _ => some 2
  | .pref _ _ _ => some 2
  | .prefx _ _ _ => some 2
  | .evict _ _ _ => some 2
  | .cpyGl _ _ _ _ => some 2
  | .cpyLg _ _ _ _ => some 2
  | .cpyGg _ _ _ _ => some 2
  | .cptGl _ _ _ _ => some 2
  | .cptLg _ _ _ _ => some 2
  | .cpbatch _ _ => some 2
  | .cpwait _ _ _ => some 2
  | .recfence _ => some 2
  | .tld _ _ _ _ => some 4
  | .tst _ _ _ _ => some 4
  | .tldg _ _ _ _ => some 4
  | .tstg _ _ _ _ => some 4
  | .tzero _ _ _ => some 4
  | .tcvt _ _ _ _ => some 4
  | .mmaE4m3 _ _ _ _ => some 4
  | .mmaE5m2 _ _ _ _ => some 4
  | .mmaBf16 _ _ _ _ => some 4
  | .mmaF16 _ _ _ _ => some 4
  | .mmaMxe4m3 _ _ _ _ => some 4
  | .mmaMxe2m3 _ _ _ _ => some 4
  | .mmaMxe2m1 _ _ _ _ => some 4
  | .mmaS8 _ _ _ _ => some 4
  | .qset _ _ => some 4
  | .qarr _ => some 4
  | .qwait _ => some 4
  | .qdrop _ => some 4
  | .samp _ _ _ _ => some 3
  | .sampg _ _ _ _ => some 3
  | .sampb _ _ _ _ => some 3
  | .fetch _ _ _ _ => some 3
  | .fetchf _ _ _ _ => some 3
  | .gath4 _ _ _ _ => some 3
  | .resq _ _ _ _ => some 3
  | .rayld _ _ => some 3
  | .boxt _ _ _ => some 3
  | .trit _ _ _ => some 3
  | .stkinit _ _ _ _ => some 3
  | .stkpush _ _ => some 3
  | .stkpop _ _ => some 3
  | .ordbPx _ => some 3
  | .ordbSmp _ => some 3
  | .orde _ => some 3
  | .frag _ _ _ => some 3
  | .cover _ _ _ => some 3
  | .scq _ _ _ => some 3
  | .scwait _ _ _ => some 3
  | .scpub _ _ _ => some 3
  | .scabort _ _ _ => some 3
  | .scinv _ _ _ => some 3
  | .scpin _ _ _ => some 3
  | .scunpin _ _ _ => some 3
  | .sctick _ => some 3
  | .br _ _ => some 5
  | .brQ _ _ _ => some 5
  | .brNq _ _ _ => some 5
  | .brZ _ _ => some 5
  | .brNz _ _ => some 5
  | .brFull _ _ => some 5
  | .jmp _ _ => some 5
  | .call _ _ _ => some 5
  | .calli _ _ _ => some 5
  | .ret _ _ => some 5
  | .jmpi _ _ => some 5
  | .psplit _ _ _ => some 5
  | .pjoin _ => some 5
  | .pyield _ => some 5
  | .meld _ _ _ _ => some 5
  | .melde _ => some 5
  | .pren _ _ _ _ _ _ => some 5
  | .barSync _ _ => some 5
  | .barArr _ _ => some 5
  | .barWait _ _ => some 5
  | .cbarSync _ _ => some 5
  | .cbarArr _ _ => some 5
  | .cbarWait _ _ => some 5
  | .gbarArr _ _ => some 5
  | .gbarWait _ => some 5
  | .fenceAcq _ _ => some 5
  | .fenceRel _ _ => some 5
  | .fenceAr _ _ => some 5
  | .fenceSc _ _ => some 5
  | .yield_ _ => some 5
  | .sleep _ _ => some 5
  | .watchPhase _ => some 5
  | .rpush _ _ _ => some 5
  | .rpop _ _ _ => some 5
  | .rpeek _ _ _ => some 5
  | .rclose _ _ => some 5
  | .trap _ _ => some 5
  | .tfence _ => some 5
  | .brk _ _ => some 5
  | .exit _ => some 5
  | .tclr _ _ _ => some 5
  | .tret _ => some 5
  | .xregAcq _ => some 5
  | .xregRel _ => some 5
  | .srd _ _ _ _ => some 5
  | .swr _ _ _ _ => some 5
  | .srdl _ _ _ _ => some 5
  | .invr _ _ _ => some 6
  | .invrRangedesc _ _ _ => some 6
  | .replayByPage _ _ _ => some 6
  | .replayByToken _ _ _ => some 6
  | .pin _ _ _ _ => some 6
  | .unpin _ _ _ _ => some 6
  | .migr _ _ _ => some 6
  | .frpop _ _ => some 6
  | .dbghalt _ _ _ => some 6
  | .dbgres _ _ _ => some 6
  | .rst _ _ _ _ => some 2
  | .rld _ _ _ _ => some 2
  | .ratom _ _ _ _ => some 2
  | .rfence _ => some 2
  | .tlaunch _ _ _ _ => some 5
  | .tlaunchJob _ _ _ _ => some 5
  | .tdec _ _ _ _ => some 5
  | .tcancel _ _ _ => some 5
  | .tstat _ _ _ => some 5
  | _ => none

/-- The literal words that follow an instruction word (R44). -/
@[inline] def Instr.literals (i : Instr) : Nat :=
  match i with
  | .lit32 _ _ _ => 1
  | .lit64 _ _ _ => 2
  | _ => 0

/-- Control transfers (R28). -/
def Instr.control (i : Instr) : Bool :=
  match i with
  | .br _ _ | .brQ _ _ _ | .brNq _ _ _ | .brZ _ _ | .brNz _ _ | .brFull _ _ | .jmp _ _ | .call _ _ _
  | .calli _ _ _ | .ret _ _ | .jmpi _ _ | .psplit _ _ _ | .pjoin _ | .exit _ | .trap _ _ | .brk _ _
  | .tret _ => true
  | _ => false

end Sys2Proof
end

