-- ==== Sys2Proof/Decode.lean ====
section
/-! DEFINITION. The decoder and the encoder of instruction words, written from the forms of
spec/02_instruction_word.md R38 and the opcode map R45. A 32-bit word is held little-endian in
memory (R3). -/

namespace Sys2Proof

/-- Why a word is no instruction: the rows of R49 that the decoder alone can see. Each raises ILL. -/
inductive DecodeError where
  /-- MAJOR in 0x36–0x3F. -/
  | reservedMajor
  /-- A function value the opcode map marks as reserved. -/
  | reservedFn
  /-- G where the opcode map or R46 does not allow it. -/
  | wrongG
  /-- A non-zero reserved bit, or a field outside the registers its description allows. -/
  | reservedBits
  /-- A LIT kind other than 0 or 1. -/
  | litKind
  /-- A BR condition 6 or 7, or a q field where it must be 0. -/
  | branchCond
  /-- Fewer than four bytes. -/
  | short
deriving DecidableEq, Repr, Inhabited

/-! ### The fields of a word -/

/-- `len` bits of `w` from bit `lo` on. -/
def bits {k : Nat} (w : BitVec k) (lo len : Nat) : BitVec len := w.extractLsb' lo len

/-- Y, bit 31 (R34). -/
def wY (w : Word) : Bool := (bits w 31 1) == 1#1
/-- G, bit 30 (R34). -/
def wG (w : Word) : Bool := (bits (bits w 0 31) 30 1) == 1#1
/-- MAJOR, bits 29:24 (R34). -/
def wMajor (w : Word) : Nat := (bits (bits (bits w 0 31) 0 30) 24 6).toNat
/-- The bits the form lays out, 23:0 (R34). -/
def wLow (w : Word) : BitVec 24 :=
  bits (bits (bits w 0 31) 0 30) 0 24

/-- fn (forms T, M, S) or cond (form B): bits 23:21 (R38). -/
def tFn (l : BitVec 24) : Nat := (bits l 21 3).toNat
/-- d or data of forms T, M and S: bits 20:14. -/
def tD (l : BitVec 24) : Field := bits (bits l 0 21) 14 7
/-- a or addr of forms T and M: bits 13:7. -/
def tA (l : BitVec 24) : Field := bits (bits (bits l 0 21) 0 14) 7 7
/-- b, rec or off7: bits 6:0. -/
def tB (l : BitVec 24) : Field := bits (bits (bits l 0 21) 0 14) 0 7
/-- imm14 of form S: bits 13:0. -/
def sImm (l : BitVec 24) : BitVec 14 := bits (bits l 0 21) 0 14
/-- d of forms I and K: bits 23:17. -/
def iD (l : BitVec 24) : Field := bits l 17 7
/-- a of form I: bits 16:10. -/
def iA (l : BitVec 24) : Field := bits (bits l 0 17) 10 7
/-- imm10 of form I. -/
def iImm (l : BitVec 24) : BitVec 10 := bits (bits l 0 17) 0 10
/-- imm17 of form K. -/
def kImm (l : BitVec 24) : BitVec 17 := bits l 0 17
/-- q of form B: bits 20:18. -/
def bQ (l : BitVec 24) : BitVec 3 := bits (bits l 0 21) 18 3
/-- offset18 of form B. -/
def bOff (l : BitVec 24) : BitVec 18 := bits (bits l 0 21) 0 18

/-! ### Putting a word together -/

/-- `x` above `y`, `k` bits in all. -/
def cat {n m : Nat} (k : Nat) (x : BitVec n) (y : BitVec m) : BitVec k := (x ++ y).setWidth k

/-- A word from its park bit, G bit, major and low bits (R34). -/
def packWord (y g : Bool) (maj : BitVec 6) (l : BitVec 24) : Word :=
  cat 32 (BitVec.ofBool y) (cat 31 (BitVec.ofBool g) (cat 30 maj l))
/-- Forms T and M (R38). -/
def formT (fn : BitVec 3) (d a b : Field) : BitVec 24 := cat 24 fn (cat 21 d (cat 14 a b))
/-- Form S (R38). -/
def formS (fn : BitVec 3) (d : Field) (i : BitVec 14) : BitVec 24 := cat 24 fn (cat 21 d i)
/-- Form I (R38). -/
def formI (d a : Field) (i : BitVec 10) : BitVec 24 := cat 24 d (cat 17 a i)
/-- Form K (R38). -/
def formK (d : Field) (i : BitVec 17) : BitVec 24 := cat 24 d i
/-- Form B (R38). -/
def formB (c q : BitVec 3) (o : BitVec 18) : BitVec 24 := cat 24 c (cat 21 q o)

/-! ### The majors

The Lean runtime cannot build a constructor whose number is above 244, and `Instr` has one for each
row of the opcode table: what answers an `Instr` is marked noncomputable and evaluated by the kernel. -/

noncomputable section


/-- Major 0x00 IARI (R45). -/
def decIari (y g : Bool) (fn : Nat) (d : Field) (a : Field) (b : Field) : Except DecodeError Instr :=
  match fn with
  | 0 => .ok (.add y g d a b)
  | 1 => .ok (.sub y g d a b)
  | 2 => .ok (.minS y g d a b)
  | 3 => .ok (.minN y g d a b)
  | 4 => .ok (.maxS y g d a b)
  | 5 => .ok (.maxN y g d a b)
  | 6 => .ok (.absdS y g d a b)
  | 7 => if b = 0 then .ok (.neg y g d a) else .error .reservedBits
  | _ => .error .reservedFn

/-- Major 0x01 LOGIC (R45). -/
def decLogic (y g : Bool) (fn : Nat) (d : Field) (a : Field) (b : Field) : Except DecodeError Instr :=
  match fn with
  | 0 => .ok (.and_ y g d a b)
  | 1 => .ok (.or_ y g d a b)
  | 2 => .ok (.xor y g d a b)
  | 3 => .ok (.andn y g d a b)
  | 4 => .ok (.orn y g d a b)
  | 5 => .ok (.xnor y g d a b)
  | 7 => if b = 0 then .ok (.not_ y g d a) else .error .reservedBits
  | _ => .error .reservedFn

/-- Major 0x02 SHIFT (R45). -/
def decShift (y g : Bool) (fn : Nat) (d : Field) (a : Field) (b : Field) : Except DecodeError Instr :=
  match fn with
  | 0 => .ok (.shl y g d a b)
  | 1 => .ok (.shr y g d a b)
  | 2 => .ok (.sar y g d a b)
  | 3 => .ok (.rol y g d a b)
  | 4 => .ok (.ror y g d a b)
  | 5 => .ok (.shlW y g d a b)
  | 6 => .ok (.shrW y g d a b)
  | 7 => .ok (.sarW y g d a b)
  | _ => .error .reservedFn

/-- Major 0x03 IMUL (R45). -/
def decImul (y g : Bool) (fn : Nat) (d : Field) (a : Field) (b : Field) : Except DecodeError Instr :=
  match fn with
  | 0 => .ok (.mul y g d a b)
  | 1 => .ok (.mulhS y g d a b)
  | 2 => .ok (.mulhN y g d a b)
  | 3 => .ok (.mad y g d a b)
  | 4 => .ok (.mulwS y g d a b)
  | 5 => .ok (.mulwN y g d a b)
  | 6 => .ok (.madwS y g d a b)
  | 7 => .ok (.madwN y g d a b)
  | _ => .error .reservedFn

/-- Major 0x04 BITS (R45). -/
def decBits (y g : Bool) (fn : Nat) (d : Field) (a : Field) (b : Field) : Except DecodeError Instr :=
  match fn with
  | 0 => if b = 0 then .ok (.popc y g d a) else .error .reservedBits
  | 1 => if b = 0 then .ok (.clz y g d a) else .error .reservedBits
  | 2 => if b = 0 then .ok (.ctz y g d a) else .error .reservedBits
  | 3 => if b = 0 then .ok (.brev y g d a) else .error .reservedBits
  | 4 => .ok (.bfeS y g d a b)
  | 5 => .ok (.bfeZ y g d a b)
  | 6 => .ok (.bfi y g d a b)
  | 7 => .ok (.prmt y g d a b)
  | _ => .error .reservedFn

/-- Major 0x05 ICMP (R45). -/
def decIcmp (y g : Bool) (fn : Nat) (d : Field) (a : Field) (b : Field) : Except DecodeError Instr :=
  match fn with
  | 0 => .ok (.icmpEq y g d a b)
  | 1 => .ok (.icmpNe y g d a b)
  | 2 => .ok (.icmpLtS y g d a b)
  | 3 => .ok (.icmpLeS y g d a b)
  | 4 => .ok (.icmpLtN y g d a b)
  | 5 => .ok (.icmpLeN y g d a b)
  | 6 => .ok (.icmpTest y g d a b)
  | _ => .error .reservedFn

/-- Major 0x06 ADDR (R45). -/
def decAddr (y g : Bool) (fn : Nat) (d : Field) (a : Field) (b : Field) : Except DecodeError Instr :=
  match fn with
  | 0 => .ok (.add64 y g d a b)
  | 1 => .ok (.sub64 y g d a b)
  | 2 => .ok (.lea2 y g d a b)
  | 3 => .ok (.lea4 y g d a b)
  | 4 => .ok (.lea8 y g d a b)
  | 5 => .ok (.lea16 y g d a b)
  | _ => .error .reservedFn

/-- Major 0x07 ICVT (R45). -/
def decIcvt (y g : Bool) (fn : Nat) (d : Field) (a : Field) (b : Field) : Except DecodeError Instr :=
  match fn with
  | 0 => if b = 0 then .ok (.sext8 y g d a) else .error .reservedBits
  | 1 => if b = 0 then .ok (.sext16 y g d a) else .error .reservedBits
  | 2 => if b = 0 then .ok (.zext8 y g d a) else .error .reservedBits
  | 3 => if b = 0 then .ok (.zext16 y g d a) else .error .reservedBits
  | 4 => if b = 0 then .ok (.sext32 y g d a) else .error .reservedBits
  | 5 => if b = 0 then .ok (.zext32 y g d a) else .error .reservedBits
  | 6 => if b = 0 then .ok (.trunc64 y g d a) else .error .reservedBits
  | _ => .error .reservedFn

/-- Major 0x08 FARITH (R45). -/
def decFarith (y g : Bool) (fn : Nat) (d : Field) (a : Field) (b : Field) : Except DecodeError Instr :=
  match fn with
  | 0 => .ok (.fadd y g d a b)
  | 1 => .ok (.fsub y g d a b)
  | 2 => .ok (.fmul y g d a b)
  | 3 => .ok (.fmin y g d a b)
  | 4 => .ok (.fmax y g d a b)
  | 5 => .ok (.fminn y g d a b)
  | 6 => .ok (.fmaxn y g d a b)
  | 7 => .ok (.fcopysign y g d a b)
  | _ => .error .reservedFn

/-- Major 0x09 FFMA (R45). -/
def decFfma (y g : Bool) (fn : Nat) (d : Field) (a : Field) (b : Field) : Except DecodeError Instr :=
  match fn with
  | 0 => if g = false then .ok (.fma y d a b) else .error .wrongG
  | 1 => if g = false then .ok (.fms y d a b) else .error .wrongG
  | 2 => if g = false then .ok (.fnma y d a b) else .error .wrongG
  | 3 => if g = false then .ok (.fnms y d a b) else .error .wrongG
  | 4 => if g = false then .ok (.fmaF64 y d a b) else .error .wrongG
  | 5 => if g = false then .ok (.fmsF64 y d a b) else .error .wrongG
  | 6 => if g = false then .ok (.fnmaF64 y d a b) else .error .wrongG
  | 7 => if g = false then .ok (.fnmsF64 y d a b) else .error .wrongG
  | _ => .error .reservedFn

/-- Major 0x0A PACK16 (R45). -/
def decPack16 (y g : Bool) (fn : Nat) (d : Field) (a : Field) (b : Field) : Except DecodeError Instr :=
  match fn with
  | 0 => if g = false then .ok (.hadd2F16 y d a b) else .error .wrongG
  | 1 => if g = false then .ok (.hmul2F16 y d a b) else .error .wrongG
  | 2 => if g = false then .ok (.hfma2F16 y d a b) else .error .wrongG
  | 3 => if g = false then .ok (.hadd2Bf16 y d a b) else .error .wrongG
  | 4 => if g = false then .ok (.hmul2Bf16 y d a b) else .error .wrongG
  | 5 => if g = false then .ok (.hfma2Bf16 y d a b) else .error .wrongG
  | 6 => if g = false then .ok (.hmin2F16 y d a b) else .error .wrongG
  | 7 => if g = false then .ok (.hmax2F16 y d a b) else .error .wrongG
  | _ => .error .reservedFn

/-- Major 0x0B FCMP (R45). -/
def decFcmp (y g : Bool) (fn : Nat) (d : Field) (a : Field) (b : Field) : Except DecodeError Instr :=
  match fn with
  | 0 => if g = false then .ok (.feq y d a b) else .error .wrongG
  | 1 => if g = false then .ok (.fne y d a b) else .error .wrongG
  | 2 => if g = false then .ok (.flt y d a b) else .error .wrongG
  | 3 => if g = false then .ok (.fle y d a b) else .error .wrongG
  | 4 => if g = false then .ok (.fun y d a b) else .error .wrongG
  | 5 => if g = false then .ok (.feqF64 y d a b) else .error .wrongG
  | 6 => if g = false then .ok (.fltF64 y d a b) else .error .wrongG
  | 7 => if g = false then .ok (.fleF64 y d a b) else .error .wrongG
  | _ => .error .reservedFn

/-- Major 0x0C SFU (R45). -/
def decSfu (y g : Bool) (fn : Nat) (d : Field) (a : Field) (b : Field) : Except DecodeError Instr :=
  match fn with
  | 0 => if b = 0 then .ok (.rcp y g d a) else .error .reservedBits
  | 1 => if b = 0 then .ok (.rsq y g d a) else .error .reservedBits
  | 2 => if b = 0 then .ok (.sqrt y g d a) else .error .reservedBits
  | 3 => if b = 0 then .ok (.exp2 y g d a) else .error .reservedBits
  | 4 => if b = 0 then .ok (.log2 y g d a) else .error .reservedBits
  | 5 => if b = 0 then .ok (.sinpi y g d a) else .error .reservedBits
  | 6 => if b = 0 then .ok (.cospi y g d a) else .error .reservedBits
  | 7 => if b = 0 then .ok (.tanh y g d a) else .error .reservedBits
  | _ => .error .reservedFn

/-- Major 0x0D FCVT (R45). -/
def decFcvt (y g : Bool) (fn : Nat) (d : Field) (a : Field) (b : Field) : Except DecodeError Instr :=
  match fn with
  | 0 => if (bits b 4 3) = 0 then .ok (.cvtF32S32 y g d a (bits (bits b 0 4) 3 1) (bits (bits b 0 4) 0 3)) else .error .reservedBits
  | 1 => if (bits b 4 3) = 0 then .ok (.cvtF32N32 y g d a (bits (bits b 0 4) 3 1) (bits (bits b 0 4) 0 3)) else .error .reservedBits
  | 2 => if (bits b 4 3) = 0 then .ok (.cvtS32F32 y g d a (bits (bits b 0 4) 3 1) (bits (bits b 0 4) 0 3)) else .error .reservedBits
  | 3 => if (bits b 4 3) = 0 then .ok (.cvtN32F32 y g d a (bits (bits b 0 4) 3 1) (bits (bits b 0 4) 0 3)) else .error .reservedBits
  | 4 => if (bits b 4 3) = 0 then .ok (.cvtF64F32 y g d a (bits (bits b 0 4) 3 1) (bits (bits b 0 4) 0 3)) else .error .reservedBits
  | 5 => if (bits b 4 3) = 0 then .ok (.cvtF32F64 y g d a (bits (bits b 0 4) 3 1) (bits (bits b 0 4) 0 3)) else .error .reservedBits
  | 6 => if (bits b 4 3) = 0 then .ok (.cvtF64S32 y g d a (bits (bits b 0 4) 3 1) (bits (bits b 0 4) 0 3)) else .error .reservedBits
  | 7 => if (bits b 4 3) = 0 then .ok (.cvtS32F64 y g d a (bits (bits b 0 4) 3 1) (bits (bits b 0 4) 0 3)) else .error .reservedBits
  | _ => .error .reservedFn

/-- Major 0x0E F64 (R45). -/
def decF64 (y g : Bool) (fn : Nat) (d : Field) (a : Field) (b : Field) : Except DecodeError Instr :=
  match fn with
  | 0 => if g = false then .ok (.faddF64 y d a b) else .error .wrongG
  | 1 => if g = false then .ok (.fsubF64 y d a b) else .error .wrongG
  | 2 => if g = false then .ok (.fmulF64 y d a b) else .error .wrongG
  | 3 => if g = false then .ok (.fminF64 y d a b) else .error .wrongG
  | 4 => if g = false then .ok (.fmaxF64 y d a b) else .error .wrongG
  | 5 => if g = false then if (bits b 3 4) = 0 then .ok (.frndF32 y d a (bits b 0 3)) else .error .reservedBits else .error .wrongG
  | 6 => if g = false then if (bits b 3 4) = 0 then .ok (.frndF64 y d a (bits b 0 3)) else .error .reservedBits else .error .wrongG
  | _ => .error .reservedFn

/-- Major 0x0F DOT (R45). -/
def decDot (y g : Bool) (fn : Nat) (d : Field) (a : Field) (b : Field) : Except DecodeError Instr :=
  match fn with
  | 0 => if g = false then .ok (.packF16 y d a b) else .error .wrongG
  | 1 => if g = false then .ok (.packBf16 y d a b) else .error .wrongG
  | 2 => if g = false then .ok (.dot2F16 y d a b) else .error .wrongG
  | 3 => if g = false then .ok (.dot2Bf16 y d a b) else .error .wrongG
  | 4 => if g = false then .ok (.dot4E4m3 y d a b) else .error .wrongG
  | 5 => if g = false then .ok (.dot4E5m2 y d a b) else .error .wrongG
  | 6 => if g = false then .ok (.dot4S8 y d a b) else .error .wrongG
  | 7 => if g = false then .ok (.dot4Z8 y d a b) else .error .wrongG
  | _ => .error .reservedFn

/-- Major 0x10 NCVT (R45). -/
def decNcvt (y g : Bool) (fn : Nat) (d : Field) (a : Field) (b : Field) : Except DecodeError Instr :=
  match fn with
  | 0 => if g = false then if (bits b 4 3) = 0 then .ok (.cvtbE4m3 y d a (bits (bits b 0 4) 3 1) (bits (bits b 0 4) 0 3)) else .error .reservedBits else .error .wrongG
  | 1 => if g = false then if (bits b 4 3) = 0 then .ok (.cvtbE5m2 y d a (bits (bits b 0 4) 3 1) (bits (bits b 0 4) 0 3)) else .error .reservedBits else .error .wrongG
  | 2 => if g = false then if (bits b 4 3) = 0 then .ok (.cvtbE2m3 y d a (bits (bits b 0 4) 3 1) (bits (bits b 0 4) 0 3)) else .error .reservedBits else .error .wrongG
  | 3 => if g = false then if (bits b 4 3) = 0 then .ok (.cvtbE3m2 y d a (bits (bits b 0 4) 3 1) (bits (bits b 0 4) 0 3)) else .error .reservedBits else .error .wrongG
  | 4 => if g = false then if (bits b 4 3) = 0 then .ok (.cvtbE2m1 y d a (bits (bits b 0 4) 3 1) (bits (bits b 0 4) 0 3)) else .error .reservedBits else .error .wrongG
  | 5 => if g = false then if (bits b 2 5) = 0 then .ok (.xcvtE4m3 y d a (bits b 0 2)) else .error .reservedBits else .error .wrongG
  | 6 => if g = false then if (bits b 2 5) = 0 then .ok (.xcvtE5m2 y d a (bits b 0 2)) else .error .reservedBits else .error .wrongG
  | 7 => if g = false then if (bits b 2 5) = 0 then .ok (.xcvtE2m1 y d a (bits b 0 2)) else .error .reservedBits else .error .wrongG
  | _ => .error .reservedFn

/-- Major 0x15 LIT (R45). -/
def decLit (y g : Bool) (d : Field) (kind : Nat) : Except DecodeError Instr :=
  match kind with
  | 0 => .ok (.lit32 y g d)
  | 1 => .ok (.lit64 y g d)
  | _ => .error .litKind

/-- Major 0x16 SHIFTI (R45). -/
def decShifti (y g : Bool) (fn : Nat) (d : Field) (a : Field) (b : Field) : Except DecodeError Instr :=
  match fn with
  | 0 => if (bits b 6 1) = 0 then .ok (.shli y g d a (bits b 0 6)) else .error .reservedBits
  | 1 => if (bits b 6 1) = 0 then .ok (.shri y g d a (bits b 0 6)) else .error .reservedBits
  | 2 => if (bits b 6 1) = 0 then .ok (.sari y g d a (bits b 0 6)) else .error .reservedBits
  | 3 => if (bits b 6 1) = 0 then .ok (.roli y g d a (bits b 0 6)) else .error .reservedBits
  | 4 => if (bits b 6 1) = 0 then .ok (.rori y g d a (bits b 0 6)) else .error .reservedBits
  | 5 => if (bits b 6 1) = 0 then .ok (.shlWi y g d a (bits b 0 6)) else .error .reservedBits
  | 6 => if (bits b 6 1) = 0 then .ok (.shrWi y g d a (bits b 0 6)) else .error .reservedBits
  | 7 => if (bits b 6 1) = 0 then .ok (.sarWi y g d a (bits b 0 6)) else .error .reservedBits
  | _ => .error .reservedFn

/-- Major 0x17 LANE (R45). -/
def decLane (y g : Bool) (fn : Nat) (d : Field) (a : Field) (b : Field) : Except DecodeError Instr :=
  match fn with
  | 0 => if g = false then .ok (.shflIdx y d a b) else .error .wrongG
  | 1 => if g = false then .ok (.shflUp y d a b) else .error .wrongG
  | 2 => if g = false then .ok (.shflDn y d a b) else .error .wrongG
  | 3 => if g = false then .ok (.shflXor y d a b) else .error .wrongG
  | 4 => if g = false then if b = 0 then .ok (.bcast y d a) else .error .reservedBits else .error .wrongG
  | 5 => if g = false then if (bits a 4 3) = 7 ∧ b = 0 then .ok (.vset y d (bits a 0 4)) else .error .reservedBits else .error .wrongG
  | 6 => if g = false then if b = 0 then .ok (.redadd y d a) else .error .reservedBits else .error .wrongG
  | 7 => if g = false then if b = 0 then .ok (.redmaxS y d a) else .error .reservedBits else .error .wrongG
  | _ => .error .reservedFn

/-- Major 0x18 MASKQ (R45). -/
def decMaskq (y g : Bool) (fn : Nat) (d : Field) (a : Field) (b : Field) : Except DecodeError Instr :=
  match fn with
  | 0 => if g = true then if b = 0 then .ok (.mpopc y d a) else .error .reservedBits else .error .wrongG
  | 1 => if g = true then if b = 0 then .ok (.mffs y d a) else .error .reservedBits else .error .wrongG
  | 2 => if g = true then if b = 0 then .ok (.mfls y d a) else .error .reservedBits else .error .wrongG
  | 3 => if g = true then if (bits d 3 4) = 0 then .ok (.mtest y (bits d 0 3) a b) else .error .reservedBits else .error .wrongG
  | 4 => if g = true then if (bits d 3 4) = 0 ∧ (bits a 3 4) = 0 ∧ (bits b 3 4) = 0 then .ok (.qand y (bits d 0 3) (bits a 0 3) (bits b 0 3)) else .error .reservedBits else .error .wrongG
  | 5 => if g = true then if (bits d 3 4) = 0 ∧ (bits a 3 4) = 0 ∧ (bits b 3 4) = 0 then .ok (.qor y (bits d 0 3) (bits a 0 3) (bits b 0 3)) else .error .reservedBits else .error .wrongG
  | 6 => if g = true then if (bits d 3 4) = 0 ∧ (bits a 3 4) = 0 ∧ (bits b 3 4) = 0 then .ok (.qxor y (bits d 0 3) (bits a 0 3) (bits b 0 3)) else .error .reservedBits else .error .wrongG
  | 7 => if g = true then if (bits d 3 4) = 0 ∧ (bits a 3 4) = 0 ∧ b = 0 then .ok (.qnot y (bits d 0 3) (bits a 0 3)) else .error .reservedBits else .error .wrongG
  | _ => .error .reservedFn

/-- Major 0x19 MOVE (R45). -/
def decMove (y g : Bool) (fn : Nat) (d : Field) (a : Field) (b : Field) : Except DecodeError Instr :=
  match fn with
  | 0 => if g = false then if b = 0 then .ok (.mov y d a) else .error .reservedBits else .error .wrongG
  | 1 => if g = true then if b = 0 then .ok (.movg y d a) else .error .reservedBits else .error .wrongG
  | 2 => if g = false then if b = 0 then .ok (.movv y d a) else .error .reservedBits else .error .wrongG
  | 3 => if g = true then if (bits d 3 4) = 0 ∧ b = 0 then .ok (.movq y (bits d 0 3) a) else .error .reservedBits else .error .wrongG
  | 4 => if g = true then if (bits a 3 4) = 0 ∧ b = 0 then .ok (.qmov y d (bits a 0 3)) else .error .reservedBits else .error .wrongG
  | _ => .error .reservedFn

/-- Major 0x1A LD (R45). -/
def decLd (y g : Bool) (fn : Nat) (d : Field) (a : Field) (b : Field) : Except DecodeError Instr :=
  match fn with
  | 0 => .ok (.ldS8 y g d a b)
  | 1 => .ok (.ldZ8 y g d a b)
  | 2 => .ok (.ldS16 y g d a b)
  | 3 => .ok (.ldZ16 y g d a b)
  | 4 => .ok (.ld32 y g d a b)
  | 5 => .ok (.ld64 y g d a b)
  | 6 => .ok (.ld128 y g d a b)
  | 7 => .ok (.ldE y g d a b)
  | _ => .error .reservedFn

/-- Major 0x1B ST (R45). -/
def decSt (y g : Bool) (fn : Nat) (d : Field) (a : Field) (b : Field) : Except DecodeError Instr :=
  match fn with
  | 0 => .ok (.st8 y g d a b)
  | 1 => .ok (.st16 y g d a b)
  | 2 => .ok (.st32 y g d a b)
  | 3 => .ok (.st64 y g d a b)
  | 4 => .ok (.st128 y g d a b)
  | 5 => .ok (.stE y g d a b)
  | _ => .error .reservedFn

/-- Major 0x1C ATOM (R45). -/
def decAtom (y g : Bool) (fn : Nat) (d : Field) (a : Field) (b : Field) : Except DecodeError Instr :=
  match fn with
  | 0 => if g = false then .ok (.atomAdd y d a (bits b 5 2) (bits b 0 5)) else .error .wrongG
  | 1 => if g = false then .ok (.atomMinS y d a (bits b 5 2) (bits b 0 5)) else .error .wrongG
  | 2 => if g = false then .ok (.atomMaxS y d a (bits b 5 2) (bits b 0 5)) else .error .wrongG
  | 3 => if g = false then .ok (.atomMinN y d a (bits b 5 2) (bits b 0 5)) else .error .wrongG
  | 4 => if g = false then .ok (.atomMaxN y d a (bits b 5 2) (bits b 0 5)) else .error .wrongG
  | 5 => if g = false then .ok (.atomAnd y d a (bits b 5 2) (bits b 0 5)) else .error .wrongG
  | 6 => if g = false then .ok (.atomOr y d a (bits b 5 2) (bits b 0 5)) else .error .wrongG
  | 7 => if g = false then .ok (.atomExch y d a (bits b 5 2) (bits b 0 5)) else .error .wrongG
  | _ => .error .reservedFn

/-- Major 0x1D ATOMX (R45). -/
def decAtomx (y g : Bool) (fn : Nat) (d : Field) (a : Field) (b : Field) : Except DecodeError Instr :=
  match fn with
  | 0 => if g = false then .ok (.atomxCas y d a (bits b 5 2) (bits b 0 5)) else .error .wrongG
  | 1 => if g = false then .ok (.atomxXor y d a (bits b 5 2) (bits b 0 5)) else .error .wrongG
  | 2 => if g = false then .ok (.atomxFadd y d a (bits b 5 2) (bits b 0 5)) else .error .wrongG
  | 3 => if g = false then .ok (.atomxFmin y d a (bits b 5 2) (bits b 0 5)) else .error .wrongG
  | 4 => if g = false then .ok (.atomxFmax y d a (bits b 5 2) (bits b 0 5)) else .error .wrongG
  | 5 => if g = false then .ok (.atomxAdd64 y d a (bits b 5 2) (bits b 0 5)) else .error .wrongG
  | 6 => if g = false then .ok (.atomxCas64 y d a (bits b 5 2) (bits b 0 5)) else .error .wrongG
  | 7 => if g = false then .ok (.atomxIncw y d a (bits b 5 2) (bits b 0 5)) else .error .wrongG
  | _ => .error .reservedFn

/-- Major 0x1E RED (R45). -/
def decRed (y g : Bool) (fn : Nat) (d : Field) (a : Field) (b : Field) : Except DecodeError Instr :=
  match fn with
  | 0 => if g = false then .ok (.redAdd y d a (bits b 5 2) (bits b 0 5)) else .error .wrongG
  | 1 => if g = false then .ok (.redMinS y d a (bits b 5 2) (bits b 0 5)) else .error .wrongG
  | 2 => if g = false then .ok (.redMaxS y d a (bits b 5 2) (bits b 0 5)) else .error .wrongG
  | 3 => if g = false then .ok (.redMinN y d a (bits b 5 2) (bits b 0 5)) else .error .wrongG
  | 4 => if g = false then .ok (.redMaxN y d a (bits b 5 2) (bits b 0 5)) else .error .wrongG
  | 5 => if g = false then .ok (.redAnd y d a (bits b 5 2) (bits b 0 5)) else .error .wrongG
  | 6 => if g = false then .ok (.redOr y d a (bits b 5 2) (bits b 0 5)) else .error .wrongG
  | 7 => if g = false then .ok (.redFadd y d a (bits b 5 2) (bits b 0 5)) else .error .wrongG
  | _ => .error .reservedFn

/-- Major 0x1F LDL (R45). -/
def decLdl (y g : Bool) (fn : Nat) (d : Field) (a : Field) (b : Field) : Except DecodeError Instr :=
  match fn with
  | 0 => if g = false then .ok (.ldlS8 y d a b) else .error .wrongG
  | 1 => if g = false then .ok (.ldlZ8 y d a b) else .error .wrongG
  | 2 => if g = false then .ok (.ldlS16 y d a b) else .error .wrongG
  | 3 => if g = false then .ok (.ldlZ16 y d a b) else .error .wrongG
  | 4 => if g = false then .ok (.ldl32 y d a b) else .error .wrongG
  | 5 => if g = false then .ok (.ldl64 y d a b) else .error .wrongG
  | 6 => if g = false then .ok (.ldl128 y d a b) else .error .wrongG
  | _ => .error .reservedFn

/-- Major 0x20 STL (R45). -/
def decStl (y g : Bool) (fn : Nat) (d : Field) (a : Field) (b : Field) : Except DecodeError Instr :=
  match fn with
  | 0 => if g = false then .ok (.stl8 y d a b) else .error .wrongG
  | 1 => if g = false then .ok (.stl16 y d a b) else .error .wrongG
  | 2 => if g = false then .ok (.stl32 y d a b) else .error .wrongG
  | 3 => if g = false then .ok (.stl64 y d a b) else .error .wrongG
  | 4 => if g = false then .ok (.stl128 y d a b) else .error .wrongG
  | _ => .error .reservedFn

/-- Major 0x21 ATOML (R45). -/
def decAtoml (y g : Bool) (fn : Nat) (d : Field) (a : Field) (b : Field) : Except DecodeError Instr :=
  match fn with
  | 0 => if g = false then .ok (.atomlAdd y d a b) else .error .wrongG
  | 1 => if g = false then .ok (.atomlMinS y d a b) else .error .wrongG
  | 2 => if g = false then .ok (.atomlMaxS y d a b) else .error .wrongG
  | 3 => if g = false then .ok (.atomlAnd y d a b) else .error .wrongG
  | 4 => if g = false then .ok (.atomlOr y d a b) else .error .wrongG
  | 5 => if g = false then .ok (.atomlExch y d a b) else .error .wrongG
  | 6 => if g = false then .ok (.atomlCas y d a b) else .error .wrongG
  | 7 => if g = false then .ok (.atomlFadd y d a b) else .error .wrongG
  | _ => .error .reservedFn

/-- Major 0x22 CACHE (R45). -/
def decCache (y g : Bool) (fn : Nat) (d : Field) (a : Field) (b : Field) : Except DecodeError Instr :=
  match fn with
  | 0 => if g = false then if d = 0 then .ok (.pref y a b) else .error .reservedBits else .error .wrongG
  | 1 => if g = false then if d = 0 then .ok (.prefx y a b) else .error .reservedBits else .error .wrongG
  | 2 => if g = false then if d = 0 then .ok (.evict y a b) else .error .reservedBits else .error .wrongG
  | _ => .error .reservedFn

/-- Major 0x23 COPY (R45). -/
def decCopy (y g : Bool) (fn : Nat) (d : Field) (a : Field) (b : Field) : Except DecodeError Instr :=
  match fn with
  | 0 => if g = false then if (bits d 4 3) = 7 ∧ (bits a 4 3) = 7 ∧ (bits b 4 3) = 7 then .ok (.cpyGl y (bits d 0 4) (bits a 0 4) (bits b 0 4)) else .error .reservedBits else .error .wrongG
  | 1 => if g = false then if (bits d 4 3) = 7 ∧ (bits a 4 3) = 7 ∧ (bits b 4 3) = 7 then .ok (.cpyLg y (bits d 0 4) (bits a 0 4) (bits b 0 4)) else .error .reservedBits else .error .wrongG
  | 2 => if g = false then if (bits d 4 3) = 7 ∧ (bits a 4 3) = 7 ∧ (bits b 4 3) = 7 then .ok (.cpyGg y (bits d 0 4) (bits a 0 4) (bits b 0 4)) else .error .reservedBits else .error .wrongG
  | 3 => if g = false then if (bits d 4 3) = 7 ∧ (bits a 4 3) = 7 ∧ (bits b 4 3) = 7 ∧ (bits (bits b 0 4) 0 2) = 0 then .ok (.cptGl y (bits d 0 4) (bits a 0 4) (bits (bits b 0 4) 2 2)) else .error .reservedBits else .error .wrongG
  | 4 => if g = false then if (bits d 4 3) = 7 ∧ (bits a 4 3) = 7 ∧ (bits b 4 3) = 7 ∧ (bits (bits b 0 4) 0 2) = 0 then .ok (.cptLg y (bits d 0 4) (bits a 0 4) (bits (bits b 0 4) 2 2)) else .error .reservedBits else .error .wrongG
  | 5 => if g = false then if d = 0 ∧ (bits a 4 3) = 7 ∧ b = 0 then .ok (.cpbatch y (bits a 0 4)) else .error .reservedBits else .error .wrongG
  | 6 => if g = false then if (bits a 4 3) = 7 ∧ b = 0 then .ok (.cpwait y d (bits a 0 4)) else .error .reservedBits else .error .wrongG
  | 7 => if g = false then if d = 0 ∧ a = 0 ∧ b = 0 then .ok (.recfence y) else .error .reservedBits else .error .wrongG
  | _ => .error .reservedFn

/-- Major 0x24 TILE (R45). -/
def decTile (y g : Bool) (fn : Nat) (d : Field) (a : Field) (b : Field) : Except DecodeError Instr :=
  match fn with
  | 0 => if g = false then if (bits a 4 3) = 7 ∧ (bits b 4 3) = 0 then .ok (.tld y d (bits a 0 4) (bits b 0 4)) else .error .reservedBits else .error .wrongG
  | 1 => if g = false then if (bits a 4 3) = 7 ∧ (bits b 4 3) = 0 then .ok (.tst y d (bits a 0 4) (bits b 0 4)) else .error .reservedBits else .error .wrongG
  | 2 => if g = false then if (bits d 4 3) = 7 ∧ (bits a 4 3) = 7 ∧ (bits b 4 3) = 7 then .ok (.tldg y (bits d 0 4) (bits a 0 4) (bits b 0 4)) else .error .reservedBits else .error .wrongG
  | 3 => if g = false then if (bits d 4 3) = 7 ∧ (bits a 4 3) = 7 ∧ (bits b 4 3) = 7 then .ok (.tstg y (bits d 0 4) (bits a 0 4) (bits b 0 4)) else .error .reservedBits else .error .wrongG
  | 4 => if g = false then if (bits d 4 3) = 7 ∧ a = 0 ∧ (bits b 4 3) = 7 then .ok (.tzero y (bits d 0 4) (bits b 0 4)) else .error .reservedBits else .error .wrongG
  | 5 => if g = false then if (bits d 4 3) = 7 ∧ (bits a 4 3) = 7 ∧ (bits b 4 3) = 7 then .ok (.tcvt y (bits d 0 4) (bits a 0 4) (bits b 0 4)) else .error .reservedBits else .error .wrongG
  | _ => .error .reservedFn

/-- Major 0x25 MMA (R45). -/
def decMma (y g : Bool) (fn : Nat) (d : Field) (a : Field) (b : Field) : Except DecodeError Instr :=
  match fn with
  | 0 => if g = false then if (bits d 4 3) = 7 then .ok (.mmaE4m3 y (bits d 0 4) a b) else .error .reservedBits else .error .wrongG
  | 1 => if g = false then if (bits d 4 3) = 7 then .ok (.mmaE5m2 y (bits d 0 4) a b) else .error .reservedBits else .error .wrongG
  | 2 => if g = false then if (bits d 4 3) = 7 then .ok (.mmaBf16 y (bits d 0 4) a b) else .error .reservedBits else .error .wrongG
  | 3 => if g = false then if (bits d 4 3) = 7 then .ok (.mmaF16 y (bits d 0 4) a b) else .error .reservedBits else .error .wrongG
  | 4 => if g = false then if (bits d 4 3) = 7 then .ok (.mmaMxe4m3 y (bits d 0 4) a b) else .error .reservedBits else .error .wrongG
  | 5 => if g = false then if (bits d 4 3) = 7 then .ok (.mmaMxe2m3 y (bits d 0 4) a b) else .error .reservedBits else .error .wrongG
  | 6 => if g = false then if (bits d 4 3) = 7 then .ok (.mmaMxe2m1 y (bits d 0 4) a b) else .error .reservedBits else .error .wrongG
  | 7 => if g = false then if (bits d 4 3) = 7 then .ok (.mmaS8 y (bits d 0 4) a b) else .error .reservedBits else .error .wrongG
  | _ => .error .reservedFn

/-- Major 0x26 MQ (R45). -/
def decMq (y g : Bool) (fn : Nat) (d : Field) (a : Field) (b : Field) : Except DecodeError Instr :=
  match fn with
  | 0 => if g = false then if d = 0 ∧ (bits a 4 3) = 7 ∧ b = 0 then .ok (.qset y (bits a 0 4)) else .error .reservedBits else .error .wrongG
  | 1 => if g = false then if d = 0 ∧ a = 0 ∧ b = 0 then .ok (.qarr y) else .error .reservedBits else .error .wrongG
  | 2 => if g = false then if d = 0 ∧ a = 0 ∧ b = 0 then .ok (.qwait y) else .error .reservedBits else .error .wrongG
  | 3 => if g = false then if d = 0 ∧ a = 0 ∧ b = 0 then .ok (.qdrop y) else .error .reservedBits else .error .wrongG
  | _ => .error .reservedFn

/-- Major 0x27 TEX (R45). -/
def decTex (y g : Bool) (fn : Nat) (d : Field) (a : Field) (b : Field) : Except DecodeError Instr :=
  match fn with
  | 0 => if g = false then .ok (.samp y d a b) else .error .wrongG
  | 1 => if g = false then .ok (.sampg y d a b) else .error .wrongG
  | 2 => if g = false then .ok (.sampb y d a b) else .error .wrongG
  | 3 => if g = false then .ok (.fetch y d a b) else .error .wrongG
  | 4 => if g = false then .ok (.fetchf y d a b) else .error .wrongG
  | 5 => if g = false then .ok (.gath4 y d a b) else .error .wrongG
  | 6 => if g = false then .ok (.resq y d a b) else .error .wrongG
  | _ => .error .reservedFn

/-- Major 0x28 TRV (R45). -/
def decTrv (y g : Bool) (fn : Nat) (d : Field) (a : Field) (b : Field) : Except DecodeError Instr :=
  match fn with
  | 0 => if g = false then if d = 0 ∧ b = 0 then .ok (.rayld y a) else .error .reservedBits else .error .wrongG
  | 1 => if g = false then if b = 0 then .ok (.boxt y d a) else .error .reservedBits else .error .wrongG
  | 2 => if g = false then if b = 0 then .ok (.trit y d a) else .error .reservedBits else .error .wrongG
  | 3 => if g = false then if (bits a 4 3) = 7 ∧ (bits b 4 3) = 7 then .ok (.stkinit y d (bits a 0 4) (bits b 0 4)) else .error .reservedBits else .error .wrongG
  | 4 => if g = false then if d = 0 ∧ b = 0 then .ok (.stkpush y a) else .error .reservedBits else .error .wrongG
  | 5 => if g = false then if a = 0 ∧ b = 0 then .ok (.stkpop y d) else .error .reservedBits else .error .wrongG
  | _ => .error .reservedFn

/-- Major 0x29 RAS (R45). -/
def decRas (y g : Bool) (fn : Nat) (d : Field) (a : Field) (b : Field) : Except DecodeError Instr :=
  match fn with
  | 0 => if g = false then if d = 0 ∧ a = 0 ∧ b = 0 then .ok (.ordbPx y) else .error .reservedBits else .error .wrongG
  | 1 => if g = false then if d = 0 ∧ a = 0 ∧ b = 0 then .ok (.ordbSmp y) else .error .reservedBits else .error .wrongG
  | 2 => if g = false then if d = 0 ∧ a = 0 ∧ b = 0 then .ok (.orde y) else .error .reservedBits else .error .wrongG
  | 3 => if g = false then if (bits a 4 3) = 7 ∧ b = 0 then .ok (.frag y d (bits a 0 4)) else .error .reservedBits else .error .wrongG
  | 4 => if g = false then if b = 0 then .ok (.cover y d a) else .error .reservedBits else .error .wrongG
  | _ => .error .reservedFn

/-- Major 0x2A SHC (R45). -/
def decShc (y g : Bool) (fn : Nat) (d : Field) (a : Field) (b : Field) : Except DecodeError Instr :=
  match fn with
  | 0 => if g = false then if b = 0 then .ok (.scq y d a) else .error .reservedBits else .error .wrongG
  | 1 => if g = false then if b = 0 then .ok (.scwait y d a) else .error .reservedBits else .error .wrongG
  | 2 => if g = false then if (bits a 4 3) = 7 ∧ b = 0 then .ok (.scpub y d (bits a 0 4)) else .error .reservedBits else .error .wrongG
  | 3 => if g = false then if (bits a 4 3) = 7 ∧ b = 0 then .ok (.scabort y d (bits a 0 4)) else .error .reservedBits else .error .wrongG
  | 4 => if g = false then if b = 0 then .ok (.scinv y d a) else .error .reservedBits else .error .wrongG
  | 5 => if g = false then if b = 0 then .ok (.scpin y d a) else .error .reservedBits else .error .wrongG
  | 6 => if g = false then if b = 0 then .ok (.scunpin y d a) else .error .reservedBits else .error .wrongG
  | 7 => if g = false then if d = 0 ∧ a = 0 ∧ b = 0 then .ok (.sctick y) else .error .reservedBits else .error .wrongG
  | _ => .error .reservedFn

/-- Major 0x2B BR (R45). -/
def decBr (y g : Bool) (cond : Nat) (q : BitVec 3) (o : BitVec 18) : Except DecodeError Instr :=
  match cond with
  | 0 => if g = false then if q = 0 then .ok (.br y o) else .error .branchCond else .error .wrongG
  | 1 => if g = false then .ok (.brQ y q o) else .error .wrongG
  | 2 => if g = false then .ok (.brNq y q o) else .error .wrongG
  | 3 => if g = false then if q = 0 then .ok (.brZ y o) else .error .branchCond else .error .wrongG
  | 4 => if g = false then if q = 0 then .ok (.brNz y o) else .error .branchCond else .error .wrongG
  | 5 => if g = false then if q = 0 then .ok (.brFull y o) else .error .branchCond else .error .wrongG
  | _ => .error .branchCond

/-- Major 0x2C JUMP (R45). -/
def decJump (y g : Bool) (fn : Nat) (d : Field) (a : Field) (b : Field) : Except DecodeError Instr :=
  match fn with
  | 0 => if g = false then if d = 0 ∧ (bits a 4 3) = 7 ∧ b = 0 then .ok (.jmp y (bits a 0 4)) else .error .reservedBits else .error .wrongG
  | 1 => if g = false then if (bits a 4 3) = 7 ∧ b = 0 then .ok (.call y d (bits a 0 4)) else .error .reservedBits else .error .wrongG
  | 2 => if g = false then if b = 0 then .ok (.calli y d a) else .error .reservedBits else .error .wrongG
  | 3 => if g = false then if d = 0 ∧ b = 0 then .ok (.ret y a) else .error .reservedBits else .error .wrongG
  | 4 => if g = false then if d = 0 ∧ b = 0 then .ok (.jmpi y a) else .error .reservedBits else .error .wrongG
  | _ => .error .reservedFn

/-- Major 0x2D PATH (R45). -/
def decPath (y g : Bool) (fn : Nat) (d : Field) (a : Field) (b : Field) (i : BitVec 14) : Except DecodeError Instr :=
  match fn with
  | 0 => if g = false then .ok (.psplit y d i) else .error .wrongG
  | 1 => if g = false then if d = 0 ∧ a = 0 ∧ b = 0 then .ok (.pjoin y) else .error .reservedBits else .error .wrongG
  | 2 => if g = false then if d = 0 ∧ a = 0 ∧ b = 0 then .ok (.pyield y) else .error .reservedBits else .error .wrongG
  | 3 => if g = false then if (bits a 0 5) = 0 ∧ (bits b 6 1) = 0 then .ok (.meld y d (bits a 5 2) (bits b 0 6)) else .error .reservedBits else .error .wrongG
  | 4 => if g = false then if d = 0 ∧ a = 0 ∧ b = 0 then .ok (.melde y) else .error .reservedBits else .error .wrongG
  | 5 => if g = false then .ok (.pren y d (bits a 3 4) (bits (bits a 0 3) 1 2) (bits (bits a 0 3) 0 1) b) else .error .wrongG
  | _ => .error .reservedFn

/-- Major 0x2E BAR (R45). -/
def decBar (y g : Bool) (fn : Nat) (d : Field) (a : Field) (b : Field) : Except DecodeError Instr :=
  match fn with
  | 0 => if g = false then if d = 0 ∧ a = 0 ∧ (bits b 4 3) = 0 then .ok (.barSync y (bits b 0 4)) else .error .reservedBits else .error .wrongG
  | 1 => if g = false then if d = 0 ∧ a = 0 ∧ (bits b 4 3) = 0 then .ok (.barArr y (bits b 0 4)) else .error .reservedBits else .error .wrongG
  | 2 => if g = false then if d = 0 ∧ a = 0 ∧ (bits b 4 3) = 0 then .ok (.barWait y (bits b 0 4)) else .error .reservedBits else .error .wrongG
  | 3 => if g = false then if d = 0 ∧ a = 0 ∧ (bits b 3 4) = 0 then .ok (.cbarSync y (bits b 0 3)) else .error .reservedBits else .error .wrongG
  | 4 => if g = false then if d = 0 ∧ a = 0 ∧ (bits b 3 4) = 0 then .ok (.cbarArr y (bits b 0 3)) else .error .reservedBits else .error .wrongG
  | 5 => if g = false then if d = 0 ∧ a = 0 ∧ (bits b 3 4) = 0 then .ok (.cbarWait y (bits b 0 3)) else .error .reservedBits else .error .wrongG
  | 6 => if g = false then if a = 0 ∧ b = 0 then .ok (.gbarArr y d) else .error .reservedBits else .error .wrongG
  | 7 => if g = false then if d = 0 ∧ a = 0 ∧ b = 0 then .ok (.gbarWait y) else .error .reservedBits else .error .wrongG
  | _ => .error .reservedFn

/-- Major 0x2F ORDER (R45). -/
def decOrder (y g : Bool) (fn : Nat) (d : Field) (a : Field) (b : Field) (i : BitVec 14) : Except DecodeError Instr :=
  match fn with
  | 0 => if g = false then if d = 0 ∧ a = 0 ∧ (bits b 2 5) = 0 then .ok (.fenceAcq y (bits b 0 2)) else .error .reservedBits else .error .wrongG
  | 1 => if g = false then if d = 0 ∧ a = 0 ∧ (bits b 2 5) = 0 then .ok (.fenceRel y (bits b 0 2)) else .error .reservedBits else .error .wrongG
  | 2 => if g = false then if d = 0 ∧ a = 0 ∧ (bits b 2 5) = 0 then .ok (.fenceAr y (bits b 0 2)) else .error .reservedBits else .error .wrongG
  | 3 => if g = false then if d = 0 ∧ a = 0 ∧ (bits b 2 5) = 0 then .ok (.fenceSc y (bits b 0 2)) else .error .reservedBits else .error .wrongG
  | 4 => if g = false then if d = 0 ∧ a = 0 ∧ b = 0 then .ok (.yield_ y) else .error .reservedBits else .error .wrongG
  | 5 => if g = false then if d = 0 then .ok (.sleep y i) else .error .reservedBits else .error .wrongG
  | 6 => if g = false then if d = 0 ∧ a = 0 ∧ b = 0 then .ok (.watchPhase y) else .error .reservedBits else .error .wrongG
  | _ => .error .reservedFn

/-- Major 0x30 RING (R45). -/
def decRing (y g : Bool) (fn : Nat) (d : Field) (a : Field) (b : Field) : Except DecodeError Instr :=
  match fn with
  | 0 => if g = false then if d = 0 then .ok (.rpush y a b) else .error .reservedBits else .error .wrongG
  | 1 => if g = false then if b = 0 then .ok (.rpop y d a) else .error .reservedBits else .error .wrongG
  | 2 => if g = false then if b = 0 then .ok (.rpeek y d a) else .error .reservedBits else .error .wrongG
  | 3 => if g = false then if d = 0 ∧ b = 0 then .ok (.rclose y a) else .error .reservedBits else .error .wrongG
  | _ => .error .reservedFn

/-- Major 0x31 SYS (R45). -/
def decSys (y g : Bool) (fn : Nat) (d : Field) (a : Field) (b : Field) (i : BitVec 14) : Except DecodeError Instr :=
  match fn with
  | 0 => if g = false then if d = 0 then .ok (.trap y i) else .error .reservedBits else .error .wrongG
  | 1 => if g = false then if d = 0 ∧ a = 0 ∧ b = 0 then .ok (.tfence y) else .error .reservedBits else .error .wrongG
  | 2 => if g = false then if d = 0 then .ok (.brk y i) else .error .reservedBits else .error .wrongG
  | 3 => if g = false then if d = 0 ∧ a = 0 ∧ b = 0 then .ok (.exit y) else .error .reservedBits else .error .wrongG
  | 4 => if g = false then if d = 0 ∧ (bits a 6 1) = 0 ∧ (bits (bits a 0 6) 0 1) = 0 ∧ (bits b 5 2) = 0 then .ok (.tclr y (bits (bits a 0 6) 1 5) (bits b 0 5)) else .error .reservedBits else .error .wrongG
  | 5 => if g = false then if d = 0 ∧ a = 0 ∧ b = 0 then .ok (.tret y) else .error .reservedBits else .error .wrongG
  | 6 => if g = false then if d = 0 ∧ a = 0 ∧ b = 0 then .ok (.xregAcq y) else .error .reservedBits else .error .wrongG
  | 7 => if g = false then if d = 0 ∧ a = 0 ∧ b = 0 then .ok (.xregRel y) else .error .reservedBits else .error .wrongG
  | _ => .error .reservedFn

/-- Major 0x32 SREG (R45). -/
def decSreg (y g : Bool) (fn : Nat) (d : Field) (i : BitVec 14) : Except DecodeError Instr :=
  match fn with
  | 0 => if (bits i 8 6) = 0 then .ok (.srd y g d (bits i 0 8)) else .error .reservedBits
  | 1 => if (bits i 8 6) = 0 then .ok (.swr y g d (bits i 0 8)) else .error .reservedBits
  | 2 => if (bits i 8 6) = 0 then .ok (.srdl y g d (bits i 0 8)) else .error .reservedBits
  | _ => .error .reservedFn

/-- Major 0x33 PRIV (R45). -/
def decPriv (y g : Bool) (fn : Nat) (d : Field) (a : Field) (b : Field) : Except DecodeError Instr :=
  match fn with
  | 0 => if g = false then if d = 0 ∧ (bits a 4 3) = 7 ∧ (bits b 4 3) = 7 then .ok (.invr y (bits a 0 4) (bits b 0 4)) else .error .reservedBits else .error .wrongG
  | 1 => if g = false then if d = 0 ∧ (bits a 4 3) = 7 ∧ (bits b 4 3) = 7 then .ok (.replayByPage y (bits a 0 4) (bits b 0 4)) else .error .reservedBits else .error .wrongG
  | 2 => if g = false then if (bits a 4 3) = 7 ∧ (bits b 4 3) = 7 then .ok (.pin y d (bits a 0 4) (bits b 0 4)) else .error .reservedBits else .error .wrongG
  | 3 => if g = false then if (bits a 4 3) = 7 ∧ (bits b 4 3) = 7 then .ok (.unpin y d (bits a 0 4) (bits b 0 4)) else .error .reservedBits else .error .wrongG
  | 4 => if g = false then if (bits a 4 3) = 7 ∧ b = 0 then .ok (.migr y d (bits a 0 4)) else .error .reservedBits else .error .wrongG
  | 5 => if g = false then if a = 0 ∧ b = 0 then .ok (.frpop y d) else .error .reservedBits else .error .wrongG
  | 6 => if g = false then if (bits a 4 3) = 7 ∧ b = 0 then .ok (.dbghalt y d (bits a 0 4)) else .error .reservedBits else .error .wrongG
  | 7 => if g = false then if (bits a 4 3) = 7 ∧ b = 0 then .ok (.dbgres y d (bits a 0 4)) else .error .reservedBits else .error .wrongG
  | _ => .error .reservedFn

/-- Major 0x34 REMOTE (R45). -/
def decRemote (y g : Bool) (fn : Nat) (d : Field) (a : Field) (b : Field) : Except DecodeError Instr :=
  match fn with
  | 0 => if g = false then .ok (.rst y d a b) else .error .wrongG
  | 1 => if g = false then .ok (.rld y d a b) else .error .wrongG
  | 2 => if g = false then .ok (.ratom y d a b) else .error .wrongG
  | 3 => if g = false then if d = 0 ∧ a = 0 ∧ b = 0 then .ok (.rfence y) else .error .reservedBits else .error .wrongG
  | _ => .error .reservedFn

/-- Major 0x35 TASK (R45). -/
def decTask (y g : Bool) (fn : Nat) (d : Field) (a : Field) (b : Field) : Except DecodeError Instr :=
  match fn with
  | 0 => if g = false then if (bits a 4 3) = 7 ∧ (bits b 4 3) = 7 then .ok (.tlaunch y d (bits a 0 4) (bits b 0 4)) else .error .reservedBits else .error .wrongG
  | 1 => if g = false then if (bits a 4 3) = 7 ∧ (bits b 4 3) = 7 then .ok (.tdec y d (bits a 0 4) (bits b 0 4)) else .error .reservedBits else .error .wrongG
  | 2 => if g = false then if (bits a 4 3) = 7 ∧ b = 0 then .ok (.tcancel y d (bits a 0 4)) else .error .reservedBits else .error .wrongG
  | 3 => if g = false then if (bits a 4 3) = 7 ∧ b = 0 then .ok (.tstat y d (bits a 0 4)) else .error .reservedBits else .error .wrongG
  | _ => .error .reservedFn

/-- The instruction of major `maj` with park bit `y`, G bit `g` and low bits `l` (R34, R45). -/
def decodeMajor (y g : Bool) (maj : Nat) (l : BitVec 24) : Except DecodeError Instr :=
  match maj with
  | 0x00 => decIari y g (tFn l) (tD l) (tA l) (tB l)
  | 0x01 => decLogic y g (tFn l) (tD l) (tA l) (tB l)
  | 0x02 => decShift y g (tFn l) (tD l) (tA l) (tB l)
  | 0x03 => decImul y g (tFn l) (tD l) (tA l) (tB l)
  | 0x04 => decBits y g (tFn l) (tD l) (tA l) (tB l)
  | 0x05 => decIcmp y g (tFn l) (tD l) (tA l) (tB l)
  | 0x06 => decAddr y g (tFn l) (tD l) (tA l) (tB l)
  | 0x07 => decIcvt y g (tFn l) (tD l) (tA l) (tB l)
  | 0x08 => decFarith y g (tFn l) (tD l) (tA l) (tB l)
  | 0x09 => decFfma y g (tFn l) (tD l) (tA l) (tB l)
  | 0x0A => decPack16 y g (tFn l) (tD l) (tA l) (tB l)
  | 0x0B => decFcmp y g (tFn l) (tD l) (tA l) (tB l)
  | 0x0C => decSfu y g (tFn l) (tD l) (tA l) (tB l)
  | 0x0D => decFcvt y g (tFn l) (tD l) (tA l) (tB l)
  | 0x0E => decF64 y g (tFn l) (tD l) (tA l) (tB l)
  | 0x0F => decDot y g (tFn l) (tD l) (tA l) (tB l)
  | 0x10 => decNcvt y g (tFn l) (tD l) (tA l) (tB l)
  | 0x11 => .ok (.addi y g (iD l) (iA l) (iImm l))
  | 0x12 => .ok (.andi y g (iD l) (iA l) (iImm l))
  | 0x13 => .ok (.ori y g (iD l) (iA l) (iImm l))
  | 0x14 => .ok (.movi y g (iD l) (kImm l))
  | 0x15 => decLit y g (iD l) (kImm l).toNat
  | 0x16 => decShifti y g (tFn l) (tD l) (tA l) (tB l)
  | 0x17 => decLane y g (tFn l) (tD l) (tA l) (tB l)
  | 0x18 => decMaskq y g (tFn l) (tD l) (tA l) (tB l)
  | 0x19 => decMove y g (tFn l) (tD l) (tA l) (tB l)
  | 0x1A => decLd y g (tFn l) (tD l) (tA l) (tB l)
  | 0x1B => decSt y g (tFn l) (tD l) (tA l) (tB l)
  | 0x1C => decAtom y g (tFn l) (tD l) (tA l) (tB l)
  | 0x1D => decAtomx y g (tFn l) (tD l) (tA l) (tB l)
  | 0x1E => decRed y g (tFn l) (tD l) (tA l) (tB l)
  | 0x1F => decLdl y g (tFn l) (tD l) (tA l) (tB l)
  | 0x20 => decStl y g (tFn l) (tD l) (tA l) (tB l)
  | 0x21 => decAtoml y g (tFn l) (tD l) (tA l) (tB l)
  | 0x22 => decCache y g (tFn l) (tD l) (tA l) (tB l)
  | 0x23 => decCopy y g (tFn l) (tD l) (tA l) (tB l)
  | 0x24 => decTile y g (tFn l) (tD l) (tA l) (tB l)
  | 0x25 => decMma y g (tFn l) (tD l) (tA l) (tB l)
  | 0x26 => decMq y g (tFn l) (tD l) (tA l) (tB l)
  | 0x27 => decTex y g (tFn l) (tD l) (tA l) (tB l)
  | 0x28 => decTrv y g (tFn l) (tD l) (tA l) (tB l)
  | 0x29 => decRas y g (tFn l) (tD l) (tA l) (tB l)
  | 0x2A => decShc y g (tFn l) (tD l) (tA l) (tB l)
  | 0x2B => decBr y g (tFn l) (bQ l) (bOff l)
  | 0x2C => decJump y g (tFn l) (tD l) (tA l) (tB l)
  | 0x2D => decPath y g (tFn l) (tD l) (tA l) (tB l) (sImm l)
  | 0x2E => decBar y g (tFn l) (tD l) (tA l) (tB l)
  | 0x2F => decOrder y g (tFn l) (tD l) (tA l) (tB l) (sImm l)
  | 0x30 => decRing y g (tFn l) (tD l) (tA l) (tB l)
  | 0x31 => decSys y g (tFn l) (tD l) (tA l) (tB l) (sImm l)
  | 0x32 => decSreg y g (tFn l) (tD l) (sImm l)
  | 0x33 => decPriv y g (tFn l) (tD l) (tA l) (tB l)
  | 0x34 => decRemote y g (tFn l) (tD l) (tA l) (tB l)
  | 0x35 => decTask y g (tFn l) (tD l) (tA l) (tB l)
  | _ => .error .reservedMajor

/-- The instruction a word stands for (R34, R45, R49): total, refusing by name. It reads the word's
bits alone; what the budget, the mode and the clause add is checked when the word issues. -/
def decode (w : Word) : Except DecodeError Instr :=
  decodeMajor (wY w) (wG w) (wMajor w) (wLow w)

/-- The word of an instruction, put together from R38's forms and the opcode map (R45): `none` for the
steps that have no instruction word. -/
def encodeWord (i : Instr) : Option Word :=
  match i with
  | .add y g d a b => some (packWord y g 0#6 (formT 0#3 d a b))
  | .sub y g d a b => some (packWord y g 0#6 (formT 1#3 d a b))
  | .minS y g d a b => some (packWord y g 0#6 (formT 2#3 d a b))
  | .minN y g d a b => some (packWord y g 0#6 (formT 3#3 d a b))
  | .maxS y g d a b => some (packWord y g 0#6 (formT 4#3 d a b))
  | .maxN y g d a b => some (packWord y g 0#6 (formT 5#3 d a b))
  | .absdS y g d a b => some (packWord y g 0#6 (formT 6#3 d a b))
  | .neg y g d a => some (packWord y g 0#6 (formT 7#3 d a 0#7))
  | .and_ y g d a b => some (packWord y g 1#6 (formT 0#3 d a b))
  | .or_ y g d a b => some (packWord y g 1#6 (formT 1#3 d a b))
  | .xor y g d a b => some (packWord y g 1#6 (formT 2#3 d a b))
  | .andn y g d a b => some (packWord y g 1#6 (formT 3#3 d a b))
  | .orn y g d a b => some (packWord y g 1#6 (formT 4#3 d a b))
  | .xnor y g d a b => some (packWord y g 1#6 (formT 5#3 d a b))
  | .not_ y g d a => some (packWord y g 1#6 (formT 7#3 d a 0#7))
  | .shl y g d a b => some (packWord y g 2#6 (formT 0#3 d a b))
  | .shr y g d a b => some (packWord y g 2#6 (formT 1#3 d a b))
  | .sar y g d a b => some (packWord y g 2#6 (formT 2#3 d a b))
  | .rol y g d a b => some (packWord y g 2#6 (formT 3#3 d a b))
  | .ror y g d a b => some (packWord y g 2#6 (formT 4#3 d a b))
  | .shlW y g d a b => some (packWord y g 2#6 (formT 5#3 d a b))
  | .shrW y g d a b => some (packWord y g 2#6 (formT 6#3 d a b))
  | .sarW y g d a b => some (packWord y g 2#6 (formT 7#3 d a b))
  | .mul y g d a b => some (packWord y g 3#6 (formT 0#3 d a b))
  | .mulhS y g d a b => some (packWord y g 3#6 (formT 1#3 d a b))
  | .mulhN y g d a b => some (packWord y g 3#6 (formT 2#3 d a b))
  | .mad y g d a b => some (packWord y g 3#6 (formT 3#3 d a b))
  | .mulwS y g d a b => some (packWord y g 3#6 (formT 4#3 d a b))
  | .mulwN y g d a b => some (packWord y g 3#6 (formT 5#3 d a b))
  | .madwS y g d a b => some (packWord y g 3#6 (formT 6#3 d a b))
  | .madwN y g d a b => some (packWord y g 3#6 (formT 7#3 d a b))
  | .popc y g d a => some (packWord y g 4#6 (formT 0#3 d a 0#7))
  | .clz y g d a => some (packWord y g 4#6 (formT 1#3 d a 0#7))
  | .ctz y g d a => some (packWord y g 4#6 (formT 2#3 d a 0#7))
  | .brev y g d a => some (packWord y g 4#6 (formT 3#3 d a 0#7))
  | .bfeS y g d a b => some (packWord y g 4#6 (formT 4#3 d a b))
  | .bfeZ y g d a b => some (packWord y g 4#6 (formT 5#3 d a b))
  | .bfi y g d a b => some (packWord y g 4#6 (formT 6#3 d a b))
  | .prmt y g d a b => some (packWord y g 4#6 (formT 7#3 d a b))
  | .icmpEq y g d a b => some (packWord y g 5#6 (formT 0#3 d a b))
  | .icmpNe y g d a b => some (packWord y g 5#6 (formT 1#3 d a b))
  | .icmpLtS y g d a b => some (packWord y g 5#6 (formT 2#3 d a b))
  | .icmpLeS y g d a b => some (packWord y g 5#6 (formT 3#3 d a b))
  | .icmpLtN y g d a b => some (packWord y g 5#6 (formT 4#3 d a b))
  | .icmpLeN y g d a b => some (packWord y g 5#6 (formT 5#3 d a b))
  | .icmpTest y g d a b => some (packWord y g 5#6 (formT 6#3 d a b))
  | .add64 y g d a b => some (packWord y g 6#6 (formT 0#3 d a b))
  | .sub64 y g d a b => some (packWord y g 6#6 (formT 1#3 d a b))
  | .lea2 y g d a b => some (packWord y g 6#6 (formT 2#3 d a b))
  | .lea4 y g d a b => some (packWord y g 6#6 (formT 3#3 d a b))
  | .lea8 y g d a b => some (packWord y g 6#6 (formT 4#3 d a b))
  | .lea16 y g d a b => some (packWord y g 6#6 (formT 5#3 d a b))
  | .sext8 y g d a => some (packWord y g 7#6 (formT 0#3 d a 0#7))
  | .sext16 y g d a => some (packWord y g 7#6 (formT 1#3 d a 0#7))
  | .zext8 y g d a => some (packWord y g 7#6 (formT 2#3 d a 0#7))
  | .zext16 y g d a => some (packWord y g 7#6 (formT 3#3 d a 0#7))
  | .sext32 y g d a => some (packWord y g 7#6 (formT 4#3 d a 0#7))
  | .zext32 y g d a => some (packWord y g 7#6 (formT 5#3 d a 0#7))
  | .trunc64 y g d a => some (packWord y g 7#6 (formT 6#3 d a 0#7))
  | .fadd y g d a b => some (packWord y g 8#6 (formT 0#3 d a b))
  | .fsub y g d a b => some (packWord y g 8#6 (formT 1#3 d a b))
  | .fmul y g d a b => some (packWord y g 8#6 (formT 2#3 d a b))
  | .fmin y g d a b => some (packWord y g 8#6 (formT 3#3 d a b))
  | .fmax y g d a b => some (packWord y g 8#6 (formT 4#3 d a b))
  | .fminn y g d a b => some (packWord y g 8#6 (formT 5#3 d a b))
  | .fmaxn y g d a b => some (packWord y g 8#6 (formT 6#3 d a b))
  | .fcopysign y g d a b => some (packWord y g 8#6 (formT 7#3 d a b))
  | .fma y d a b => some (packWord y false 9#6 (formT 0#3 d a b))
  | .fms y d a b => some (packWord y false 9#6 (formT 1#3 d a b))
  | .fnma y d a b => some (packWord y false 9#6 (formT 2#3 d a b))
  | .fnms y d a b => some (packWord y false 9#6 (formT 3#3 d a b))
  | .fmaF64 y d a b => some (packWord y false 9#6 (formT 4#3 d a b))
  | .fmsF64 y d a b => some (packWord y false 9#6 (formT 5#3 d a b))
  | .fnmaF64 y d a b => some (packWord y false 9#6 (formT 6#3 d a b))
  | .fnmsF64 y d a b => some (packWord y false 9#6 (formT 7#3 d a b))
  | .hadd2F16 y d a b => some (packWord y false 10#6 (formT 0#3 d a b))
  | .hmul2F16 y d a b => some (packWord y false 10#6 (formT 1#3 d a b))
  | .hfma2F16 y d a b => some (packWord y false 10#6 (formT 2#3 d a b))
  | .hadd2Bf16 y d a b => some (packWord y false 10#6 (formT 3#3 d a b))
  | .hmul2Bf16 y d a b => some (packWord y false 10#6 (formT 4#3 d a b))
  | .hfma2Bf16 y d a b => some (packWord y false 10#6 (formT 5#3 d a b))
  | .hmin2F16 y d a b => some (packWord y false 10#6 (formT 6#3 d a b))
  | .hmax2F16 y d a b => some (packWord y false 10#6 (formT 7#3 d a b))
  | .feq y d a b => some (packWord y false 11#6 (formT 0#3 d a b))
  | .fne y d a b => some (packWord y false 11#6 (formT 1#3 d a b))
  | .flt y d a b => some (packWord y false 11#6 (formT 2#3 d a b))
  | .fle y d a b => some (packWord y false 11#6 (formT 3#3 d a b))
  | .fun y d a b => some (packWord y false 11#6 (formT 4#3 d a b))
  | .feqF64 y d a b => some (packWord y false 11#6 (formT 5#3 d a b))
  | .fltF64 y d a b => some (packWord y false 11#6 (formT 6#3 d a b))
  | .fleF64 y d a b => some (packWord y false 11#6 (formT 7#3 d a b))
  | .rcp y g d a => some (packWord y g 12#6 (formT 0#3 d a 0#7))
  | .rsq y g d a => some (packWord y g 12#6 (formT 1#3 d a 0#7))
  | .sqrt y g d a => some (packWord y g 12#6 (formT 2#3 d a 0#7))
  | .exp2 y g d a => some (packWord y g 12#6 (formT 3#3 d a 0#7))
  | .log2 y g d a => some (packWord y g 12#6 (formT 4#3 d a 0#7))
  | .sinpi y g d a => some (packWord y g 12#6 (formT 5#3 d a 0#7))
  | .cospi y g d a => some (packWord y g 12#6 (formT 6#3 d a 0#7))
  | .tanh y g d a => some (packWord y g 12#6 (formT 7#3 d a 0#7))
  | .cvtF32S32 y g d a s m => some (packWord y g 13#6 (formT 0#3 d a (cat 7 0#3 (cat 4 s m))))
  | .cvtF32N32 y g d a s m => some (packWord y g 13#6 (formT 1#3 d a (cat 7 0#3 (cat 4 s m))))
  | .cvtS32F32 y g d a s m => some (packWord y g 13#6 (formT 2#3 d a (cat 7 0#3 (cat 4 s m))))
  | .cvtN32F32 y g d a s m => some (packWord y g 13#6 (formT 3#3 d a (cat 7 0#3 (cat 4 s m))))
  | .cvtF64F32 y g d a s m => some (packWord y g 13#6 (formT 4#3 d a (cat 7 0#3 (cat 4 s m))))
  | .cvtF32F64 y g d a s m => some (packWord y g 13#6 (formT 5#3 d a (cat 7 0#3 (cat 4 s m))))
  | .cvtF64S32 y g d a s m => some (packWord y g 13#6 (formT 6#3 d a (cat 7 0#3 (cat 4 s m))))
  | .cvtS32F64 y g d a s m => some (packWord y g 13#6 (formT 7#3 d a (cat 7 0#3 (cat 4 s m))))
  | .faddF64 y d a b => some (packWord y false 14#6 (formT 0#3 d a b))
  | .fsubF64 y d a b => some (packWord y false 14#6 (formT 1#3 d a b))
  | .fmulF64 y d a b => some (packWord y false 14#6 (formT 2#3 d a b))
  | .fminF64 y d a b => some (packWord y false 14#6 (formT 3#3 d a b))
  | .fmaxF64 y d a b => some (packWord y false 14#6 (formT 4#3 d a b))
  | .frndF32 y d a m => some (packWord y false 14#6 (formT 5#3 d a (cat 7 0#4 m)))
  | .frndF64 y d a m => some (packWord y false 14#6 (formT 6#3 d a (cat 7 0#4 m)))
  | .packF16 y d a b => some (packWord y false 15#6 (formT 0#3 d a b))
  | .packBf16 y d a b => some (packWord y false 15#6 (formT 1#3 d a b))
  | .dot2F16 y d a b => some (packWord y false 15#6 (formT 2#3 d a b))
  | .dot2Bf16 y d a b => some (packWord y false 15#6 (formT 3#3 d a b))
  | .dot4E4m3 y d a b => some (packWord y false 15#6 (formT 4#3 d a b))
  | .dot4E5m2 y d a b => some (packWord y false 15#6 (formT 5#3 d a b))
  | .dot4S8 y d a b => some (packWord y false 15#6 (formT 6#3 d a b))
  | .dot4Z8 y d a b => some (packWord y false 15#6 (formT 7#3 d a b))
  | .cvtbE4m3 y d a s m => some (packWord y false 16#6 (formT 0#3 d a (cat 7 0#3 (cat 4 s m))))
  | .cvtbE5m2 y d a s m => some (packWord y false 16#6 (formT 1#3 d a (cat 7 0#3 (cat 4 s m))))
  | .cvtbE2m3 y d a s m => some (packWord y false 16#6 (formT 2#3 d a (cat 7 0#3 (cat 4 s m))))
  | .cvtbE3m2 y d a s m => some (packWord y false 16#6 (formT 3#3 d a (cat 7 0#3 (cat 4 s m))))
  | .cvtbE2m1 y d a s m => some (packWord y false 16#6 (formT 4#3 d a (cat 7 0#3 (cat 4 s m))))
  | .xcvtE4m3 y d a f => some (packWord y false 16#6 (formT 5#3 d a (cat 7 0#5 f)))
  | .xcvtE5m2 y d a f => some (packWord y false 16#6 (formT 6#3 d a (cat 7 0#5 f)))
  | .xcvtE2m1 y d a f => some (packWord y false 16#6 (formT 7#3 d a (cat 7 0#5 f)))
  | .addi y g d a i => some (packWord y g 17#6 (formI d a i))
  | .andi y g d a i => some (packWord y g 18#6 (formI d a i))
  | .ori y g d a i => some (packWord y g 19#6 (formI d a i))
  | .movi y g d i => some (packWord y g 20#6 (formK d i))
  | .lit32 y g d => some (packWord y g 21#6 (formK d 0#17))
  | .lit64 y g d => some (packWord y g 21#6 (formK d 1#17))
  | .shli y g d a s => some (packWord y g 22#6 (formT 0#3 d a (cat 7 0#1 s)))
  | .shri y g d a s => some (packWord y g 22#6 (formT 1#3 d a (cat 7 0#1 s)))
  | .sari y g d a s => some (packWord y g 22#6 (formT 2#3 d a (cat 7 0#1 s)))
  | .roli y g d a s => some (packWord y g 22#6 (formT 3#3 d a (cat 7 0#1 s)))
  | .rori y g d a s => some (packWord y g 22#6 (formT 4#3 d a (cat 7 0#1 s)))
  | .shlWi y g d a s => some (packWord y g 22#6 (formT 5#3 d a (cat 7 0#1 s)))
  | .shrWi y g d a s => some (packWord y g 22#6 (formT 6#3 d a (cat 7 0#1 s)))
  | .sarWi y g d a s => some (packWord y g 22#6 (formT 7#3 d a (cat 7 0#1 s)))
  | .shflIdx y d a b => some (packWord y false 23#6 (formT 0#3 d a b))
  | .shflUp y d a b => some (packWord y false 23#6 (formT 1#3 d a b))
  | .shflDn y d a b => some (packWord y false 23#6 (formT 2#3 d a b))
  | .shflXor y d a b => some (packWord y false 23#6 (formT 3#3 d a b))
  | .bcast y d a => some (packWord y false 23#6 (formT 4#3 d a 0#7))
  | .vset y d a => some (packWord y false 23#6 (formT 5#3 d (cat 7 7#3 a) 0#7))
  | .redadd y d a => some (packWord y false 23#6 (formT 6#3 d a 0#7))
  | .redmaxS y d a => some (packWord y false 23#6 (formT 7#3 d a 0#7))
  | .mpopc y d a => some (packWord y true 24#6 (formT 0#3 d a 0#7))
  | .mffs y d a => some (packWord y true 24#6 (formT 1#3 d a 0#7))
  | .mfls y d a => some (packWord y true 24#6 (formT 2#3 d a 0#7))
  | .mtest y d a b => some (packWord y true 24#6 (formT 3#3 (cat 7 0#4 d) a b))
  | .qand y d a b => some (packWord y true 24#6 (formT 4#3 (cat 7 0#4 d) (cat 7 0#4 a) (cat 7 0#4 b)))
  | .qor y d a b => some (packWord y true 24#6 (formT 5#3 (cat 7 0#4 d) (cat 7 0#4 a) (cat 7 0#4 b)))
  | .qxor y d a b => some (packWord y true 24#6 (formT 6#3 (cat 7 0#4 d) (cat 7 0#4 a) (cat 7 0#4 b)))
  | .qnot y d a => some (packWord y true 24#6 (formT 7#3 (cat 7 0#4 d) (cat 7 0#4 a) 0#7))
  | .mov y d a => some (packWord y false 25#6 (formT 0#3 d a 0#7))
  | .movg y d a => some (packWord y true 25#6 (formT 1#3 d a 0#7))
  | .movv y d a => some (packWord y false 25#6 (formT 2#3 d a 0#7))
  | .movq y d a => some (packWord y true 25#6 (formT 3#3 (cat 7 0#4 d) a 0#7))
  | .qmov y d a => some (packWord y true 25#6 (formT 4#3 d (cat 7 0#4 a) 0#7))
  | .ldS8 y g d a r => some (packWord y g 26#6 (formT 0#3 d a r))
  | .ldZ8 y g d a r => some (packWord y g 26#6 (formT 1#3 d a r))
  | .ldS16 y g d a r => some (packWord y g 26#6 (formT 2#3 d a r))
  | .ldZ16 y g d a r => some (packWord y g 26#6 (formT 3#3 d a r))
  | .ld32 y g d a r => some (packWord y g 26#6 (formT 4#3 d a r))
  | .ld64 y g d a r => some (packWord y g 26#6 (formT 5#3 d a r))
  | .ld128 y g d a r => some (packWord y g 26#6 (formT 6#3 d a r))
  | .ldE y g d a r => some (packWord y g 26#6 (formT 7#3 d a r))
  | .st8 y g d a r => some (packWord y g 27#6 (formT 0#3 d a r))
  | .st16 y g d a r => some (packWord y g 27#6 (formT 1#3 d a r))
  | .st32 y g d a r => some (packWord y g 27#6 (formT 2#3 d a r))
  | .st64 y g d a r => some (packWord y g 27#6 (formT 3#3 d a r))
  | .st128 y g d a r => some (packWord y g 27#6 (formT 4#3 d a r))
  | .stE y g d a r => some (packWord y g 27#6 (formT 5#3 d a r))
  | .atomAdd y d a s r => some (packWord y false 28#6 (formT 0#3 d a (cat 7 s r)))
  | .atomMinS y d a s r => some (packWord y false 28#6 (formT 1#3 d a (cat 7 s r)))
  | .atomMaxS y d a s r => some (packWord y false 28#6 (formT 2#3 d a (cat 7 s r)))
  | .atomMinN y d a s r => some (packWord y false 28#6 (formT 3#3 d a (cat 7 s r)))
  | .atomMaxN y d a s r => some (packWord y false 28#6 (formT 4#3 d a (cat 7 s r)))
  | .atomAnd y d a s r => some (packWord y false 28#6 (formT 5#3 d a (cat 7 s r)))
  | .atomOr y d a s r => some (packWord y false 28#6 (formT 6#3 d a (cat 7 s r)))
  | .atomExch y d a s r => some (packWord y false 28#6 (formT 7#3 d a (cat 7 s r)))
  | .atomxCas y d a s r => some (packWord y false 29#6 (formT 0#3 d a (cat 7 s r)))
  | .atomxXor y d a s r => some (packWord y false 29#6 (formT 1#3 d a (cat 7 s r)))
  | .atomxFadd y d a s r => some (packWord y false 29#6 (formT 2#3 d a (cat 7 s r)))
  | .atomxFmin y d a s r => some (packWord y false 29#6 (formT 3#3 d a (cat 7 s r)))
  | .atomxFmax y d a s r => some (packWord y false 29#6 (formT 4#3 d a (cat 7 s r)))
  | .atomxAdd64 y d a s r => some (packWord y false 29#6 (formT 5#3 d a (cat 7 s r)))
  | .atomxCas64 y d a s r => some (packWord y false 29#6 (formT 6#3 d a (cat 7 s r)))
  | .atomxIncw y d a s r => some (packWord y false 29#6 (formT 7#3 d a (cat 7 s r)))
  | .redAdd y d a s r => some (packWord y false 30#6 (formT 0#3 d a (cat 7 s r)))
  | .redMinS y d a s r => some (packWord y false 30#6 (formT 1#3 d a (cat 7 s r)))
  | .redMaxS y d a s r => some (packWord y false 30#6 (formT 2#3 d a (cat 7 s r)))
  | .redMinN y d a s r => some (packWord y false 30#6 (formT 3#3 d a (cat 7 s r)))
  | .redMaxN y d a s r => some (packWord y false 30#6 (formT 4#3 d a (cat 7 s r)))
  | .redAnd y d a s r => some (packWord y false 30#6 (formT 5#3 d a (cat 7 s r)))
  | .redOr y d a s r => some (packWord y false 30#6 (formT 6#3 d a (cat 7 s r)))
  | .redFadd y d a s r => some (packWord y false 30#6 (formT 7#3 d a (cat 7 s r)))
  | .ldlS8 y d a o => some (packWord y false 31#6 (formT 0#3 d a o))
  | .ldlZ8 y d a o => some (packWord y false 31#6 (formT 1#3 d a o))
  | .ldlS16 y d a o => some (packWord y false 31#6 (formT 2#3 d a o))
  | .ldlZ16 y d a o => some (packWord y false 31#6 (formT 3#3 d a o))
  | .ldl32 y d a o => some (packWord y false 31#6 (formT 4#3 d a o))
  | .ldl64 y d a o => some (packWord y false 31#6 (formT 5#3 d a o))
  | .ldl128 y d a o => some (packWord y false 31#6 (formT 6#3 d a o))
  | .stl8 y d a o => some (packWord y false 32#6 (formT 0#3 d a o))
  | .stl16 y d a o => some (packWord y false 32#6 (formT 1#3 d a o))
  | .stl32 y d a o => some (packWord y false 32#6 (formT 2#3 d a o))
  | .stl64 y d a o => some (packWord y false 32#6 (formT 3#3 d a o))
  | .stl128 y d a o => some (packWord y false 32#6 (formT 4#3 d a o))
  | .atomlAdd y d a o => some (packWord y false 33#6 (formT 0#3 d a o))
  | .atomlMinS y d a o => some (packWord y false 33#6 (formT 1#3 d a o))
  | .atomlMaxS y d a o => some (packWord y false 33#6 (formT 2#3 d a o))
  | .atomlAnd y d a o => some (packWord y false 33#6 (formT 3#3 d a o))
  | .atomlOr y d a o => some (packWord y false 33#6 (formT 4#3 d a o))
  | .atomlExch y d a o => some (packWord y false 33#6 (formT 5#3 d a o))
  | .atomlCas y d a o => some (packWord y false 33#6 (formT 6#3 d a o))
  | .atomlFadd y d a o => some (packWord y false 33#6 (formT 7#3 d a o))
  | .pref y a r => some (packWord y false 34#6 (formT 0#3 0#7 a r))
  | .prefx y a r => some (packWord y false 34#6 (formT 1#3 0#7 a r))
  | .evict y a r => some (packWord y false 34#6 (formT 2#3 0#7 a r))
  | .cpyGl y d a b => some (packWord y false 35#6 (formT 0#3 (cat 7 7#3 d) (cat 7 7#3 a) (cat 7 7#3 b)))
  | .cpyLg y d a b => some (packWord y false 35#6 (formT 1#3 (cat 7 7#3 d) (cat 7 7#3 a) (cat 7 7#3 b)))
  | .cpyGg y d a b => some (packWord y false 35#6 (formT 2#3 (cat 7 7#3 d) (cat 7 7#3 a) (cat 7 7#3 b)))
  | .cptGl y d a b => some (packWord y false 35#6 (formT 3#3 (cat 7 7#3 d) (cat 7 7#3 a) (cat 7 7#3 (cat 4 b 0#2))))
  | .cptLg y d a b => some (packWord y false 35#6 (formT 4#3 (cat 7 7#3 d) (cat 7 7#3 a) (cat 7 7#3 (cat 4 b 0#2))))
  | .cpbatch y a => some (packWord y false 35#6 (formT 5#3 0#7 (cat 7 7#3 a) 0#7))
  | .cpwait y d a => some (packWord y false 35#6 (formT 6#3 d (cat 7 7#3 a) 0#7))
  | .recfence y => some (packWord y false 35#6 (formT 7#3 0#7 0#7 0#7))
  | .tld y d a n => some (packWord y false 36#6 (formT 0#3 d (cat 7 7#3 a) (cat 7 0#3 n)))
  | .tst y d a n => some (packWord y false 36#6 (formT 1#3 d (cat 7 7#3 a) (cat 7 0#3 n)))
  | .tldg y d a b => some (packWord y false 36#6 (formT 2#3 (cat 7 7#3 d) (cat 7 7#3 a) (cat 7 7#3 b)))
  | .tstg y d a b => some (packWord y false 36#6 (formT 3#3 (cat 7 7#3 d) (cat 7 7#3 a) (cat 7 7#3 b)))
  | .tzero y d b => some (packWord y false 36#6 (formT 4#3 (cat 7 7#3 d) 0#7 (cat 7 7#3 b)))
  | .tcvt y d a b => some (packWord y false 36#6 (formT 5#3 (cat 7 7#3 d) (cat 7 7#3 a) (cat 7 7#3 b)))
  | .mmaE4m3 y d a b => some (packWord y false 37#6 (formT 0#3 (cat 7 7#3 d) a b))
  | .mmaE5m2 y d a b => some (packWord y false 37#6 (formT 1#3 (cat 7 7#3 d) a b))
  | .mmaBf16 y d a b => some (packWord y false 37#6 (formT 2#3 (cat 7 7#3 d) a b))
  | .mmaF16 y d a b => some (packWord y false 37#6 (formT 3#3 (cat 7 7#3 d) a b))
  | .mmaMxe4m3 y d a b => some (packWord y false 37#6 (formT 4#3 (cat 7 7#3 d) a b))
  | .mmaMxe2m3 y d a b => some (packWord y false 37#6 (formT 5#3 (cat 7 7#3 d) a b))
  | .mmaMxe2m1 y d a b => some (packWord y false 37#6 (formT 6#3 (cat 7 7#3 d) a b))
  | .mmaS8 y d a b => some (packWord y false 37#6 (formT 7#3 (cat 7 7#3 d) a b))
  | .qset y a => some (packWord y false 38#6 (formT 0#3 0#7 (cat 7 7#3 a) 0#7))
  | .qarr y => some (packWord y false 38#6 (formT 1#3 0#7 0#7 0#7))
  | .qwait y => some (packWord y false 38#6 (formT 2#3 0#7 0#7 0#7))
  | .qdrop y => some (packWord y false 38#6 (formT 3#3 0#7 0#7 0#7))
  | .samp y d a r => some (packWord y false 39#6 (formT 0#3 d a r))
  | .sampg y d a r => some (packWord y false 39#6 (formT 1#3 d a r))
  | .sampb y d a r => some (packWord y false 39#6 (formT 2#3 d a r))
  | .fetch y d a r => some (packWord y false 39#6 (formT 3#3 d a r))
  | .fetchf y d a r => some (packWord y false 39#6 (formT 4#3 d a r))
  | .gath4 y d a r => some (packWord y false 39#6 (formT 5#3 d a r))
  | .resq y d a r => some (packWord y false 39#6 (formT 6#3 d a r))
  | .rayld y a => some (packWord y false 40#6 (formT 0#3 0#7 a 0#7))
  | .boxt y d a => some (packWord y false 40#6 (formT 1#3 d a 0#7))
  | .trit y d a => some (packWord y false 40#6 (formT 2#3 d a 0#7))
  | .stkinit y d a b => some (packWord y false 40#6 (formT 3#3 d (cat 7 7#3 a) (cat 7 7#3 b)))
  | .stkpush y a => some (packWord y false 40#6 (formT 4#3 0#7 a 0#7))
  | .stkpop y d => some (packWord y false 40#6 (formT 5#3 d 0#7 0#7))
  | .ordbPx y => some (packWord y false 41#6 (formT 0#3 0#7 0#7 0#7))
  | .ordbSmp y => some (packWord y false 41#6 (formT 1#3 0#7 0#7 0#7))
  | .orde y => some (packWord y false 41#6 (formT 2#3 0#7 0#7 0#7))
  | .frag y d a => some (packWord y false 41#6 (formT 3#3 d (cat 7 7#3 a) 0#7))
  | .cover y d a => some (packWord y false 41#6 (formT 4#3 d a 0#7))
  | .scq y d a => some (packWord y false 42#6 (formT 0#3 d a 0#7))
  | .scwait y d a => some (packWord y false 42#6 (formT 1#3 d a 0#7))
  | .scpub y d a => some (packWord y false 42#6 (formT 2#3 d (cat 7 7#3 a) 0#7))
  | .scabort y d a => some (packWord y false 42#6 (formT 3#3 d (cat 7 7#3 a) 0#7))
  | .scinv y d a => some (packWord y false 42#6 (formT 4#3 d a 0#7))
  | .scpin y d a => some (packWord y false 42#6 (formT 5#3 d a 0#7))
  | .scunpin y d a => some (packWord y false 42#6 (formT 6#3 d a 0#7))
  | .sctick y => some (packWord y false 42#6 (formT 7#3 0#7 0#7 0#7))
  | .br y o => some (packWord y false 43#6 (formB 0#3 0#3 o))
  | .brQ y q o => some (packWord y false 43#6 (formB 1#3 q o))
  | .brNq y q o => some (packWord y false 43#6 (formB 2#3 q o))
  | .brZ y o => some (packWord y false 43#6 (formB 3#3 0#3 o))
  | .brNz y o => some (packWord y false 43#6 (formB 4#3 0#3 o))
  | .brFull y o => some (packWord y false 43#6 (formB 5#3 0#3 o))
  | .jmp y a => some (packWord y false 44#6 (formT 0#3 0#7 (cat 7 7#3 a) 0#7))
  | .call y d a => some (packWord y false 44#6 (formT 1#3 d (cat 7 7#3 a) 0#7))
  | .calli y d a => some (packWord y false 44#6 (formT 2#3 d a 0#7))
  | .ret y a => some (packWord y false 44#6 (formT 3#3 0#7 a 0#7))
  | .jmpi y a => some (packWord y false 44#6 (formT 4#3 0#7 a 0#7))
  | .psplit y d i => some (packWord y false 45#6 (formS 0#3 d i))
  | .pjoin y => some (packWord y false 45#6 (formT 1#3 0#7 0#7 0#7))
  | .pyield y => some (packWord y false 45#6 (formT 2#3 0#7 0#7 0#7))
  | .meld y d p n => some (packWord y false 45#6 (formT 3#3 d (cat 7 p 0#5) (cat 7 0#1 n)))
  | .melde y => some (packWord y false 45#6 (formT 4#3 0#7 0#7 0#7))
  | .pren y a e p s b => some (packWord y false 45#6 (formT 5#3 a (cat 7 e (cat 3 p s)) b))
  | .barSync y k => some (packWord y false 46#6 (formT 0#3 0#7 0#7 (cat 7 0#3 k)))
  | .barArr y k => some (packWord y false 46#6 (formT 1#3 0#7 0#7 (cat 7 0#3 k)))
  | .barWait y k => some (packWord y false 46#6 (formT 2#3 0#7 0#7 (cat 7 0#3 k)))
  | .cbarSync y k => some (packWord y false 46#6 (formT 3#3 0#7 0#7 (cat 7 0#4 k)))
  | .cbarArr y k => some (packWord y false 46#6 (formT 4#3 0#7 0#7 (cat 7 0#4 k)))
  | .cbarWait y k => some (packWord y false 46#6 (formT 5#3 0#7 0#7 (cat 7 0#4 k)))
  | .gbarArr y d => some (packWord y false 46#6 (formT 6#3 d 0#7 0#7))
  | .gbarWait y => some (packWord y false 46#6 (formT 7#3 0#7 0#7 0#7))
  | .fenceAcq y s => some (packWord y false 47#6 (formT 0#3 0#7 0#7 (cat 7 0#5 s)))
  | .fenceRel y s => some (packWord y false 47#6 (formT 1#3 0#7 0#7 (cat 7 0#5 s)))
  | .fenceAr y s => some (packWord y false 47#6 (formT 2#3 0#7 0#7 (cat 7 0#5 s)))
  | .fenceSc y s => some (packWord y false 47#6 (formT 3#3 0#7 0#7 (cat 7 0#5 s)))
  | .yield_ y => some (packWord y false 47#6 (formT 4#3 0#7 0#7 0#7))
  | .sleep y n => some (packWord y false 47#6 (formS 5#3 0#7 n))
  | .watchPhase y => some (packWord y false 47#6 (formT 6#3 0#7 0#7 0#7))
  | .rpush y a b => some (packWord y false 48#6 (formT 0#3 0#7 a b))
  | .rpop y d a => some (packWord y false 48#6 (formT 1#3 d a 0#7))
  | .rpeek y d a => some (packWord y false 48#6 (formT 2#3 d a 0#7))
  | .rclose y a => some (packWord y false 48#6 (formT 3#3 0#7 a 0#7))
  | .trap y n => some (packWord y false 49#6 (formS 0#3 0#7 n))
  | .tfence y => some (packWord y false 49#6 (formT 1#3 0#7 0#7 0#7))
  | .brk y n => some (packWord y false 49#6 (formS 2#3 0#7 n))
  | .exit y => some (packWord y false 49#6 (formT 3#3 0#7 0#7 0#7))
  | .tclr y m m2 => some (packWord y false 49#6 (formT 4#3 0#7 (cat 7 0#1 (cat 6 m 0#1)) (cat 7 0#2 m2)))
  | .tret y => some (packWord y false 49#6 (formT 5#3 0#7 0#7 0#7))
  | .xregAcq y => some (packWord y false 49#6 (formT 6#3 0#7 0#7 0#7))
  | .xregRel y => some (packWord y false 49#6 (formT 7#3 0#7 0#7 0#7))
  | .srd y g d i => some (packWord y g 50#6 (formS 0#3 d (cat 14 0#6 i)))
  | .swr y g d i => some (packWord y g 50#6 (formS 1#3 d (cat 14 0#6 i)))
  | .srdl y g d i => some (packWord y g 50#6 (formS 2#3 d (cat 14 0#6 i)))
  | .invr y a b => some (packWord y false 51#6 (formT 0#3 0#7 (cat 7 7#3 a) (cat 7 7#3 b)))
  | .invrRangedesc y a b => some (packWord y false 51#6 (formT 0#3 0#7 (cat 7 7#3 a) (cat 7 7#3 b)))
  | .replayByPage y a b => some (packWord y false 51#6 (formT 1#3 0#7 (cat 7 7#3 a) (cat 7 7#3 b)))
  | .replayByToken y a b => some (packWord y false 51#6 (formT 1#3 0#7 (cat 7 7#3 a) (cat 7 7#3 b)))
  | .pin y d a b => some (packWord y false 51#6 (formT 2#3 d (cat 7 7#3 a) (cat 7 7#3 b)))
  | .unpin y d a b => some (packWord y false 51#6 (formT 3#3 d (cat 7 7#3 a) (cat 7 7#3 b)))
  | .migr y d a => some (packWord y false 51#6 (formT 4#3 d (cat 7 7#3 a) 0#7))
  | .frpop y d => some (packWord y false 51#6 (formT 5#3 d 0#7 0#7))
  | .dbghalt y d a => some (packWord y false 51#6 (formT 6#3 d (cat 7 7#3 a) 0#7))
  | .dbgres y d a => some (packWord y false 51#6 (formT 7#3 d (cat 7 7#3 a) 0#7))
  | .rst y d a r => some (packWord y false 52#6 (formT 0#3 d a r))
  | .rld y d a r => some (packWord y false 52#6 (formT 1#3 d a r))
  | .ratom y d a r => some (packWord y false 52#6 (formT 2#3 d a r))
  | .rfence y => some (packWord y false 52#6 (formT 3#3 0#7 0#7 0#7))
  | .tlaunch y d a b => some (packWord y false 53#6 (formT 0#3 d (cat 7 7#3 a) (cat 7 7#3 b)))
  | .tlaunchJob y d a b => some (packWord y false 53#6 (formT 0#3 d (cat 7 7#3 a) (cat 7 7#3 b)))
  | .tdec y d a b => some (packWord y false 53#6 (formT 1#3 d (cat 7 7#3 a) (cat 7 7#3 b)))
  | .tcancel y d a => some (packWord y false 53#6 (formT 2#3 d (cat 7 7#3 a) 0#7))
  | .tstat y d a => some (packWord y false 53#6 (formT 3#3 d (cat 7 7#3 a) 0#7))
  | .clauseIssue => none
  | .issueArbitration _ _ => none
  | .asyncResultReturn _ _ _ _ => none
  | .storeAcknowledge _ _ _ => none
  | .deferredFaultSplit _ _ _ => none
  | .deliveryPoint _ _ => none
  | .runAheadEnd _ _ => none
  | .faultRingSpaceFreed _ _ => none
  | .replayApply _ => none
  | .faultPathResume _ _ _ => none
  | .translationWalk _ _ _ => none
  | .l2Request _ _ _ _ => none
  | .ownedLineServe _ => none
  | .wayWakeComplete _ _ => none
  | .bankWakeComplete _ _ => none
  | .copySegmentStart _ _ _ => none
  | .pinRetry _ _ _ => none
  | .copySegmentMove _ _ _ => none
  | .copySegmentComplete _ _ _ => none
  | .batchComplete _ _ => none
  | .saddleRelease _ => none
  | .matrixOpApply _ => none
  | .feedbackReportAppend _ => none
  | .tokenNotice _ => none
  | .resourceRelease _ => none
  | .blockDispatch _ _ => none
  | .launchComplete _ => none
  | .counterArrive _ => none
  | .gridLatchReply _ _ => none
  | .cancelFinish _ => none
  | .queueDoorbell _ _ _ => none
  | .queueConfigWrite _ _ _ _ => none
  | .registerWrite _ _ _ => none
  | .cpSlotRead _ _ _ => none
  | .tdispStop _ => none
  | .tdiRunResume _ => none
  | .ideIntegrityFailure _ => none
  | .flitTagFailure _ _ => none
  | .inboundAccess _ _ _ _ _ => none
  | .portCasLoop _ _ _ _ _ => none
  | .stageEnqueue _ _ _ => none
  | .stageClosedPoll _ => none
  | .stageCoreDivision _ => none
  | .displaceBlock _ => none
  | .preemptSave _ => none
  | .blockRestore _ _ => none
  | .waitcycleProbeSend _ _ => none
  | .waitcycleProbeReceive => none
  | .sleepEnd _ _ => none
  | .slotEntryEdge => none
  | .shutterDrainComplete _ => none
  | .drainBudgetExpiry _ => none
  | .sealComplete _ => none
  | .scrubComplete _ => none
  | .thermalWarning _ => none
  | .thermalShutter _ => none
  | .thermalResume => none
  | .thermalPowerRemove _ => none
  | .powerOn _ _ _ _ => none
  | .warmReset _ _ _ _ => none
  | .wcreate _ _ => none
  | .wset _ _ => none
  | .wdestroy _ => none
  | .slots _ => none
  | .heap _ _ _ _ _ => none
  | .objset _ _ => none
  | .objclr _ => none
  | .route _ _ => none
  | .gate _ _ _ _ => none
  | .events _ => none
  | .eventsUnfreeze => none
  | .measurementRequest _ => none
  | .mextRequest _ _ _ => none
  | .mextResponse _ => none
  | .clkloRead _ _ _ => none
  | .debugAttach _ _ _ _ => none
  | .profilingControlWrite _ _ _ _ => none
  | .traceSample _ => none
  | .dbghaltApply _ => none
  | .migrDemote _ => none
  | .migrPromote _ => none
  | .migrCopyf _ => none
  | .migrMapset _ => none
  | .migrMapclr _ => none
  | .invrAcknowledge _ _ _ => none
  | .tdispLock _ _ => none
  | .linkRetrain _ => none

/-- A 32-bit value from its four bytes, lowest address first (R3). -/
def leWord (b0 b1 b2 b3 : Byte) : Word := b3 ++ (b2 ++ (b1 ++ b0))

/-- Decode the first instruction word of a byte string; the rest of the string comes back with it. -/
def decodeBytes : List Byte → Except DecodeError (Instr × List Byte)
  | b0 :: b1 :: b2 :: b3 :: rest =>
    match decode (leWord b0 b1 b2 b3) with
    | .ok i => .ok (i, rest)
    | .error e => .error e
  | _ => .error .short

/-- The bytes of a word, lowest address first (R3). -/
def wordBytes (w : Word) : List Byte :=
  [w.extractLsb' 0 8, w.extractLsb' 8 8, w.extractLsb' 16 8, w.extractLsb' 24 8]

/-- The bytes of a well-formed instruction that has a word. -/
def encode (i : Instr) : List Byte :=
  match encodeWord i with
  | some w => wordBytes w
  | none => []

/-- What the decoder reads from an instruction word given as a number whose bits are those of
spec/opcode_table.json: the word's four bytes, least significant first. -/
def decodeTableWord (_nbits w : Nat) : Option Instr :=
  match decodeBytes (wordBytes (BitVec.ofNat 32 w)) with
  | .ok (i, _) => some i
  | .error _ => none

end

end Sys2Proof
end

