-- ==== Sys2Proof/Config.lean ====
section
/-! DEFINITION. The free values of the model: constants without a body, so that nothing can be proved
of what they are. Each is applied to the model's own counter `State.free`, which every use advances
(notes/assumptions/1.md), or to the operands the open value may depend on. -/

namespace Sys2Proof.Config

/-- A choice between two outcomes that the spec leaves open: whether a cached line, translation or
code word is still held (R33, R67, R94, R324), or which of two values a racing access sees (R36,
R126, R152). -/
opaque freeBit : Nat → Bool
/-- A choice among many that the spec leaves open: the wave slot, lane pair, core (R369, R456),
wait-table entry (R80) or cache victim (R123, R275). -/
opaque freeNat : Nat → Nat
/-- Core cycles that pass in one step beyond the first one: every latency is open (R94, R392). -/
opaque cycles : Nat → Nat
/-- TMASK of a trap for which the spec names no lanes (R390, R394, R459). -/
opaque freeMask : Nat → BitVec 32
/-- Payload length in 16-byte units of a compressed image, private to the part (R88). -/
opaque imageLen : Nat → Nat
/-- Bytes of the shadow store that Shethar gives a world: no rule states its division (R412). -/
opaque shadowShare : Nat → Nat
/-- Bytes of on-module foothill memory, which may be less than its window (R17, R59). -/
opaque moduleBytes : Nat
/-- The set of a slice that a line falls into, private to the part (R94). -/
opaque l2Set : Nat → Nat
/-- Entries of a translator's pin table beyond the first: no rule states its size (R71). -/
opaque pinEntries : Nat
/-- A byte of a compressed and encrypted image (R88): image address, byte number, use. -/
opaque imageByte : Nat → Nat → Nat → BitVec 8

end Sys2Proof.Config
end

