-- ==== Sys2Proof/Machine/Ops.lean ====
section
/-! DEFINITION. The named operations over maps, memory bytes, registers and paths that every meaning is
written with, the issue of an instruction word (R49, R50), taking a trap (R394, R395) and returning
from one (R400). -/

namespace Sys2Proof.Machine

open Sys2Proof

/-! ### Maps -/

/-- The value at a key, `d` where none is listed. -/
def SMap.get {α : Type} (d : α) (m : SMap α) (k : Nat) : α :=
  match m.find? (fun e => e.1 == k) with
  | some e => e.2
  | none => d

/-- Insert in key order. -/
def SMap.ins {α : Type} (k : Nat) (v : α) : SMap α → SMap α
  | [] => [(k, v)]
  | e :: t => if k < e.1 then (k, v) :: e :: t else e :: SMap.ins k v t

/-- Write a key; the default value leaves the key unlisted. -/
def SMap.put {α : Type} [DecidableEq α] (d : α) (m : SMap α) (k : Nat) (v : α) : SMap α :=
  let m' := m.filter (fun e => e.1 != k)
  if v = d then m' else SMap.ins k v m'

/-- Canonical: keys strictly rising, no default value listed. -/
def SMap.wf {α : Type} [DecidableEq α] (d : α) (m : SMap α) : Bool :=
  (m.map Prod.fst).Pairwise (· < ·) && m.all (fun e => e.2 ≠ d)

/-- Insert before the first element that it does not follow. -/
def insertBy {α : Type} (le : α → α → Bool) (x : α) : List α → List α
  | [] => [x]
  | y :: t => if le x y then x :: y :: t else y :: insertBy le x t

/-- Sort in the order `le`; equal elements keep their places. -/
def sortBy {α : Type} (le : α → α → Bool) (l : List α) : List α := l.foldr (insertBy le) []

/-! ### Memory bytes by PA -/

/-- A byte of memory; an unlisted byte reads 0 (notes/assumptions/3.md). -/
def memByte (m : List Host.Cell) (a : Nat) : Byte := SMap.get 0 m a

/-- Write a byte of memory, keeping the list canonical. -/
def memSet (m : List Host.Cell) (a : Nat) (b : Byte) : List Host.Cell := SMap.put 0 m a b

/-- Bytes `a` to `a + n - 1`. -/
def memBytes (m : List Host.Cell) (a n : Nat) : List Byte :=
  (List.range n).map fun i => memByte m (a + i)

/-- Write consecutive bytes. -/
def memPut (m : List Host.Cell) (a : Nat) (bs : List Byte) : List Host.Cell :=
  bs.zipIdx.foldl (fun m e => memSet m (a + e.2) e.1) m

/-- The canonical form of memory. -/
abbrev Memory.wf (m : List Host.Cell) : Prop := SMap.wf 0 m = true

/-- A little-endian number from bytes, lowest address first (R3). -/
def leNat (bs : List Byte) : Nat := bs.foldr (fun b n => b.toNat + 256 * n) 0

/-- The `n` low bytes of a number, lowest first. -/
def natBytes (n x : Nat) : List Byte := (List.range n).map fun i => BitVec.ofNat 8 (x / 256 ^ i)

/-- Bits `hi`:`lo` of a record or word as a number. -/
def fld {n : Nat} (r : BitVec n) (hi lo : Nat) : Nat := (r.toNat / 2 ^ lo) % 2 ^ (hi + 1 - lo)

/-- Bits `hi`:`lo` of a record set to `x`. -/
def setFld {n : Nat} (r : BitVec n) (hi lo x : Nat) : BitVec n :=
  BitVec.ofNat n (r.toNat - fld r hi lo * 2 ^ lo + (x % 2 ^ (hi + 1 - lo)) * 2 ^ lo)

/-- Bit `i` of a mask. -/
def bitAt (w : Word) (i : Nat) : Bool := w.getLsbD i

/-- The mask of the lanes for which `f` holds. -/
def maskOf (f : Nat → Bool) : Word :=
  BitVec.ofNat 32 (((List.range 32).filter f).foldl (fun n i => n + 2 ^ i) 0)

/-- The lanes of a mask, ascending. -/
def lanesOf (w : Word) : List Nat := (List.range 32).filter (bitAt w)

/-- Canonical addresses (R57). -/
def canonical (va : DWord) : Bool := va.toNat < 2 ^ 56 || 2 ^ 64 - 2 ^ 56 ≤ va.toNat

/-! ### Parts of the state -/

/-- The block numbered `b` (blocks are never renumbered). -/
def State.blk (s : State) (b : Nat) : Block := s.blocks.getD b default
def State.modBlk (s : State) (b : Nat) (f : Block → Block) : State :=
  { s with blocks := s.blocks.modify b f }
def State.wv (s : State) (b w : Nat) : Wave := (s.blk b).waves.getD w default
def Block.modWv (k : Block) (w : Nat) (f : Wave → Wave) : Block :=
  { k with waves := k.waves.modify w f }
def State.modWv (s : State) (b w : Nat) (f : Wave → Wave) : State :=
  s.modBlk b fun k => k.modWv w f
def Wave.path (v : Wave) (p : Nat) : Path := v.paths.getD p default
def Wave.modPath (v : Wave) (p : Nat) (f : Path → Path) : Wave :=
  { v with paths := v.paths.modify p f }
def State.modPath (s : State) (b w p : Nat) (f : Path → Path) : State :=
  s.modWv b w fun v => v.modPath p f
def State.launchOf (s : State) (b : Nat) : Launch := s.launches.getD (s.blk b).launch default
def State.modLaunch (s : State) (l : Nat) (f : Launch → Launch) : State :=
  { s with launches := s.launches.modify l f }
def State.core (s : State) (c : Nat) : Core := SMap.get {} s.cores c
def State.modCore (s : State) (c : Nat) (f : Core → Core) : State :=
  { s with cores := SMap.put {} s.cores c (f (s.core c)) }
def State.modWorld (s : State) (w : Nat) (f : World → World) : State :=
  { s with worlds := s.worlds.modify w f }
def State.world (s : State) (w : Nat) : World := s.worlds.getD w {}
def State.modCluster (s : State) (c : Nat) (f : Cluster → Cluster) : State :=
  { s with clusters := s.clusters.modify c f }

/-- A fresh free bit: which of two outcomes the spec leaves open. -/
def State.freeBit (s : State) : Bool × State :=
  (Config.freeBit s.free, { s with free := s.free + 1 })
/-- A fresh free number below `n` (0 where `n` is 0). -/
def State.freeNat (s : State) (n : Nat) : Nat × State :=
  (Config.freeNat s.free % n, { s with free := s.free + 1 })

/-! ### Launch-record fields (R364) -/

def recEntry (r : BitVec 2048) : DWord := r.extractLsb' 0 64
def recArg (r : BitVec 2048) : DWord := r.extractLsb' 64 64
def recRecva (r : BitVec 2048) : DWord := r.extractLsb' 128 64
def recHandler (r : BitVec 2048) : DWord := r.extractLsb' 192 64
def recCntva (r : BitVec 2048) : Nat := fld r 319 256
def recErrva (r : BitVec 2048) : Nat := fld r 383 320
def recSucc0 (r : BitVec 2048) : Nat := fld r 447 384
def recSucc1 (r : BitVec 2048) : Nat := fld r 511 448
def recGridX (r : BitVec 2048) : Nat := fld r 543 512
def recGridY (r : BitVec 2048) : Nat := fld r 559 544
def recGridZ (r : BitVec 2048) : Nat := fld r 575 560
def recThreads (r : BitVec 2048) : Nat := fld r 585 576 + 1
def recCluster (r : BitVec 2048) : Nat := fld r 595 592 + 1
def recB (r : BitVec 2048) : Nat := fld r 606 600
def recX (r : BitVec 2048) : Nat := fld r 614 608
def recCount (r : BitVec 2048) : Nat := fld r 622 616
def recPrio (r : BitVec 2048) : Nat := fld r 626 624
def recWatch (r : BitVec 2048) : Bool := r.getLsbD 627
def recTrows (r : BitVec 2048) : Nat := fld r 637 632 * 64
def recScratch (r : BitVec 2048) : Nat := fld r 660 640
def recAsid (r : BitVec 2048) : Nat := fld r 687 672
def recNF (r : BitVec 2048) : Nat := fld r 709 704
def recNM (r : BitVec 2048) : Nat := fld r 717 712
def recNV (r : BitVec 2048) : Nat := fld r 725 720
def recRV (r : BitVec 2048) : Bool := r.getLsbD 728
def recSV (r : BitVec 2048) : Bool := r.getLsbD 736
def recShade (r : BitVec 2048) : Bool := r.getLsbD 737
def recSidx (r : BitVec 2048) : Nat := fld r 740 738
def recPipe (r : BitVec 2048) : Nat := fld r 751 744
def recSqia (r : BitVec 2048) : Nat := fld r 831 768
def recCntgen (r : BitVec 2048) : Nat := fld r 847 832
def recSgen0 (r : BitVec 2048) : Nat := fld r 863 848
def recSgen1 (r : BitVec 2048) : Nat := fld r 879 864
def recDep (r : BitVec 2048) : BitVec 256 := r.extractLsb' 1792 256
/-- Waves of a block (R365). -/
def recNw (r : BitVec 2048) : Nat := (recThreads r + 31) / 32
/-- Scratchpad bytes SB, a multiple of 256 (R144). -/
def recSB (r : BitVec 2048) : Nat := (recScratch r + 255) / 256 * 256

/-! ### The last-events record (R434) -/

/-- Enter an event; a CLASS 7 event freezes the record. The ring holds 8,192 entries. A code or unit
number that the spec does not state is a free value. -/
def State.log (s : State) (cls : Nat) (code unit : Option Nat) (world : Nat) (data : Nat) : State :=
  if s.frozen then s else
    let e : Event :=
      { data := BitVec.ofNat 128 data, clk := BitVec.ofNat 64 s.clk, seq := BitVec.ofNat 32 s.eventSeq
        unit := unit.getD (Config.freeNat s.free % 256), world, cls
        code := code.getD (Config.freeNat (s.free + 1) % 256) }
    { s with
      events := (e :: s.events).take 8192
      eventSeq := s.eventSeq + 1
      frozen := cls == 7
      free := if code.isNone || unit.isNone then s.free + 2 else s.free }

/-- A fault that no wave takes: CLASS 1 for TRANS, 5 for DATA, and the trap code (R434). -/
def State.logFault (s : State) (f : Nat × Nat) (unit : Option Nat) (world data : Nat) : State :=
  s.log (if f.1 = 0x14 then 5 else 1) (some f.1) unit world data

/-! ### The issuing wave -/

/-- What the meaning of an instruction word sees: the issuing path, its wave, its block and launch. -/
structure Ctx where
  b : Nat
  w : Nat
  p : Nat
  blk : Block
  wv : Wave
  pa : Path
  lr : BitVec 2048
  world : Nat
deriving DecidableEq, Repr, Inhabited

/-- The issuing path of a state. -/
def State.ctxAt (s : State) (b w p : Nat) : Ctx :=
  { b, w, p, blk := s.blk b, wv := s.wv b w, pa := (s.wv b w).path p,
    lr := (s.launchOf b).record, world := (s.launchOf b).world }

/-- The path that issues: one of the 8 of a wave that its block has (R341, R365). -/
def State.ctx (s : State) : Option Ctx :=
  match s.cur with
  | some (b, w, p) =>
    let c := s.ctxAt b w p
    if b < s.blocks.length ∧ w < c.blk.waves.length ∧ w < recNw c.lr ∧ p < 8 ∧ p < c.wv.paths.length then some c else none
  | none => none

def Ctx.B (c : Ctx) : Nat := recB c.lr
def Ctx.X (c : Ctx) : Nat := recX c.lr
def Ctx.nw (c : Ctx) : Nat := recNw c.lr
def Ctx.asid (c : Ctx) : Nat := recAsid c.lr
/-- S mode: space 0 of the world (R388). -/
def Ctx.smode (c : Ctx) : Bool := c.asid % 4096 == 0
def Ctx.sb (c : Ctx) : Nat := recSB c.lr
def Ctx.trows (c : Ctx) : Nat := recTrows c.lr
def Ctx.pc (c : Ctx) : DWord := c.pa.pc
/-- A lane is active when its bit of the path's EXM is 1 (R340). -/
def Ctx.active (c : Ctx) (ln : Nat) : Bool := bitAt c.pa.exm ln
/-- H of TINFO: the wave is in handler mode (R391). -/
def Ctx.inHandler (c : Ctx) : Bool := c.wv.tinfo.getLsbD 31
/-- A shade-stage wave (R310). -/
def Ctx.shade (c : Ctx) : Bool := recSV c.lr && recShade c.lr

/-! ### Registers -/

/-- The row of v-register `n` of wave `w` in its block's storage (R148, R405). -/
def vRow (nw B X w n : Nat) : Nat :=
  if n < B then w * B + n else nw * B + (w / 2) * X + (n - B)

/-- A row that holds zero in every lane. -/
def zeroRow : Row := List.replicate 32 0

/-- Lane `ln` of row `r`. -/
def rowGet (v : SMap Row) (r ln : Nat) : Word := (SMap.get zeroRow v r).getD ln 0

/-- Write row `r` in the lanes for which `act` holds. -/
def rowPut (v : SMap Row) (r : Nat) (act : Nat → Bool) (val : Nat → Word) : SMap Row :=
  SMap.put zeroRow v r ((List.range 32).map fun ln => if act ln then val ln else rowGet v r ln)

/-- The alternative number of `f` in table `side` of pair `pair`: the lowest entry that names it (R356).
An entry that has not been written names v0 for v0 (R339). -/
def renameReg (t : SMap (Nat × Nat)) (pair side f : Nat) : Nat :=
  match ((List.range 16).map fun e => SMap.get (0, 0) t (pair * 32 + side * 16 + e)).find? (fun e => e.1 == f) with
  | some e => e.2
  | none => f

/-- The side whose table a lane's registers are named through: `none` outside a melded region (R358). A lane that belongs to
another path is named through this path's tables too, on side A under MODE 1 and on the path's own side under MODE 2 and 3:
the spec leaves open which table a shuffle uses for such a source lane (DESIGN CHOICE, notes/assumptions/69.md). -/
def Path.laneSide (p : Path) (ln : Nat) : Option Nat :=
  match p.mode with
  | .plain => none
  | .melded => some (if bitAt p.side ln then 1 else 0)
  | .sideA => some 0
  | .sideB => some 1

/-- The v-register that field value `f` names in lane `ln` (R208, R358). -/
def Ctx.vreg (c : Ctx) (ln f : Nat) : Nat :=
  match c.pa.laneSide ln with
  | none => f
  | some side => renameReg c.wv.rename c.pa.pair side f

/-- v-register `n`, by its stored number, of lane `ln` of the issuing wave. -/
def Ctx.vraw (c : Ctx) (ln n : Nat) : Word := rowGet c.blk.v (vRow c.nw c.B c.X c.w n) ln

/-- Register `j` of the v run at field `f` in lane `ln`: the first register is renamed, the run goes on
from it (R358). -/
def Ctx.v (c : Ctx) (ln f j : Nat) : Word := c.vraw ln (c.vreg ln f + j)

/-- g-register `n` as the issuing path reads it: g0 is zero, g127 the path's EXM (R37, R41). -/
def Ctx.g (c : Ctx) (n : Nat) : Word :=
  if n = 0 then 0 else if n = 127 then c.pa.exm else SMap.get 0 c.wv.g n

/-- The pair at g-register `n`. -/
def Ctx.gPair (c : Ctx) (n : Nat) : DWord := (c.g (n + 1) ++ c.g n : BitVec 64)

/-- Predicate `n`; q0 is true (R41). -/
def Ctx.q (c : Ctx) (n : Nat) : Bool := n == 0 || c.wv.q.getLsbD n

/-- Write the v run of `n` registers at field `f` in the active lanes of the issuing path (R204). -/
def Ctx.writeV (c : Ctx) (f n : Nat) (val : Nat → Nat → Word) (s : State) : State :=
  s.modBlk c.b fun k =>
    { k with v := (List.range n).foldl (fun v j =>
        (((List.range 32).filter c.active).map fun ln => c.vreg ln f).dedup.foldl (fun v r =>
          rowPut v (vRow c.nw c.B c.X c.w (r + j)) (fun ln => c.active ln && c.vreg ln f == r)
            (fun ln => val ln j)) v) k.v }

/-- Write v-register `f`, by its stored number, in every lane (R141). -/
def Ctx.writeVAll (c : Ctx) (f : Nat) (val : Nat → Word) (s : State) : State :=
  s.modBlk c.b fun k => { k with v := rowPut k.v (vRow c.nw c.B c.X c.w f) (fun _ => true) val }

/-- Write g-register `n`: g0 ignores it, g127 keeps the bits of FULL (R41, R206). -/
def Ctx.writeG (c : Ctx) (n : Nat) (x : Word) (s : State) : State :=
  if n = 0 then s
  else if n = 127 then s.modPath c.b c.w c.p fun p => { p with exm := x &&& p.full }
  else s.modWv c.b c.w fun v => { v with g := SMap.put 0 v.g n x }

/-- Write a predicate; q0 ignores it (R41). -/
def Ctx.writeQ (c : Ctx) (n : Nat) (x : Bool) (s : State) : State :=
  if n = 0 then s
  else s.modWv c.b c.w fun v =>
    { v with q := if x then v.q ||| (1#8 <<< n) else v.q &&& ~~~(1#8 <<< n) }

/-! ### The path table (R342–R345) -/

def Path.live (p : Path) : Bool := p.st != .free && p.st != .done

/-- The path is RUN, or HELD and was RUN: it stands at a word that it issues. -/
def Path.issuing (p : Path) : Bool := p.st == .run || (p.st == .held && p.hst == .run)

/-- The path is WAIT at a join (R344). -/
def Path.atJoin (p : Path) : Bool := p.st == .wait && p.waitOn == .join

/-- Entries a new path may take, lowest first (R342). -/
def freeEntries (ps : List Path) : List Nat :=
  (List.range 8).filter fun i =>
    let p := ps.getD i default
    p.st == .free ||
      (p.st == .done && !((List.range 8).any fun j => (ps.getD j default).live && (ps.getD j default).parent == some i))

/-- Merge path `c` into path `p` (R344). -/
def mergePath (ps : List Path) (c p : Nat) : List Path :=
  let pc := ps.getD c default
  (ps.mapIdx fun i x =>
    if i = c then { x with st := .free, waitOn := .none, full := 0, exm := 0, join := 0, parent := none, mode := .plain, pair := 0, count := 0, side := 0 }
    else
      let x := if x.parent == some c then { x with parent := if i = p then none else some p } else x
      if i = p then { x with full := x.full ||| pc.full, exm := x.exm ||| pc.exm } else x)

/-- One round of R344 for path `i`: the state it leaves, `none` where nothing changes. -/
def joinRound (ps : List Path) (i : Nat) : Option (List Path) :=
  let x := ps.getD i default
  if !x.atJoin then none else
  let kids := (List.range 8).filter fun j => (ps.getD j default).live && (ps.getD j default).parent == some i
  if kids.any fun j => !(ps.getD j default).atJoin then none else
  if kids ≠ [] then some (kids.foldl (fun ps j => mergePath ps j i) ps) else
  match x.parent with
  | some pp => if (ps.getD pp default).atJoin then some (mergePath ps i pp) else none
  | none => some (ps.modify i fun x => { x with st := .run, waitOn := .none, join := 0, blocked := none })

/-- R344 for every path of a wave until nothing changes. -/
def resolveJoins (ps : List Path) : List Path :=
  (List.range 16).foldl (fun ps _ =>
    match (List.range 8).findSome? (joinRound ps) with
    | some ps' => ps'
    | none => ps) ps

/-- A path becomes DONE: its live children pass to its parent (R343). -/
def donePath (ps : List Path) (i : Nat) : List Path :=
  let x := ps.getD i default
  resolveJoins (ps.mapIdx fun j y =>
    if j = i then { y with st := .done, waitOn := .none, join := 0, blocked := none, parkedAt := [], phase := 0 }
    else if y.parent == some i then { y with parent := x.parent } else y)

/-! ### Block and cluster barriers (R345, R378, R379) -/

/-- A wave has arrived at generation `gen` through the arrivals `arr` of its paths. -/
def waveArrived (arr : Path → List (Nat × Nat)) (v : Wave) (k gen : Nat) : Bool :=
  let ps := v.paths.filter fun p => p.live && !p.atJoin
  ps.any (fun p => (arr p).contains (k, gen)) && ps.all fun p => (arr p).contains (k, gen)

/-- The end of a barrier's wait reaches a path that is HELD or FAULT: it finds its wait over when it runs again (R343). -/
def Path.noteBarEnd (k gen : Nat) (p : Path) : Path :=
  if (p.st == .held || p.st == .fault) && p.waitOn == .bar k gen then
    { p with hst := if p.st == .held && p.hst == .wait then .run else p.hst, waitOn := .none, join := 0, acq := some 0 }
  else p

/-- The end of a block barrier's wait in one wave: every path waiting at it, or at a join, merges into the
lowest that waits at it, which runs on after Acq(block) (R345, R328). HELD and FAULT paths record the event; so does the
checkpoint of a run-ahead, whose path is FAULT there (R77). It is a point at which the wave chooses a path (R338). -/
def endBarWait (v : Wave) (k gen : Nat) : Wave :=
  let ps := v.paths.map (Path.noteBarEnd k gen)
  let v : Wave := { v with ra := v.ra.map fun r => { r with savedPaths := r.savedPaths.map (Path.noteBarEnd k gen) } }
  match (List.range 8).find? fun i => (ps.getD i default).st == .wait && (ps.getD i default).waitOn == .bar k gen with
  | none => { v with paths := ps }
  | some t =>
    let others := (List.range 8).filter fun i => i ≠ t &&
      ((ps.getD i default).atJoin || ((ps.getD i default).st == .wait && (ps.getD i default).waitOn == .bar k gen))
    let ps := others.foldl (fun ps i => mergePath ps i t) ps
    { v with paths := resolveJoins (ps.modify t fun p =>
        { p with st := .run, waitOn := .none, join := 0, acq := some 0, blocked := some .fetch, again := true }) }

/-- Recompute the arrivals of block barrier `k`, and complete its generation when every wave that is not
DONE has arrived (R378). -/
def checkBar (blk : Block) (k : Nat) : Block :=
  let br := blk.bars.getD k {}
  let arr := (List.range blk.waves.length).filter fun w =>
    br.arrived.contains w || ((blk.waves.getD w default).st != .done && waveArrived Path.barArr (blk.waves.getD w default) k br.gen)
  if arr ≠ [] ∧ (List.range blk.waves.length).all (fun w => arr.contains w || (blk.waves.getD w default).st == .done) then
    { blk with
      bars := blk.bars.set k { gen := br.gen + 1, arrived := [] }
      waves := blk.waves.map fun v => endBarWait v k br.gen }
  else { blk with bars := blk.bars.set k { br with arrived := arr } }

/-- Number of a wave in watch records. -/
def watchNo (b w : Nat) : Nat := b * 32 + w
/-- Number of a generation of a block barrier in watch records. -/
def watchBar (b k gen : Nat) : Nat := (gen * 16 + k) * 2 ^ 32 + b
/-- A wave's wait at a barrier has ended (R334 rule 3). -/
def State.watchEnd (s : State) (b w bar : Nat) : State :=
  if recWatch (s.launchOf b).record then
    s.modLaunch (s.blk b).launch fun l => { l with watchEnds := (watchNo b w, bar, l.watchSeq) :: l.watchEnds, watchSeq := l.watchSeq + 1 }
  else s

/-- All the block barriers of a block. -/
def State.checkBars (s : State) (b : Nat) : State :=
  let old := s.blk b
  let s := s.modBlk b fun blk => (List.range 16).foldl checkBar blk
  (List.range 16).foldl (fun s k =>
    let gen := (old.bars.getD k {}).gen
    if ((s.blk b).bars.getD k {}).gen = gen then s
    else (List.range old.waves.length).foldl (fun s w =>
      if (old.waves.getD w default).paths.any fun p => p.waitOn == .bar k gen then s.watchEnd b w (watchBar b k gen) else s) s) s

/-- Ranks and waves of a cluster that have arrived in the open generation of cluster barrier `k`: those that had, and those
whose live paths, joins apart, have all issued an arrival (R379). -/
def clusterWaves (s : State) (cl : Cluster) (k : Nat) (br : Barrier) : List (Nat × Nat) :=
  (List.range cl.members.length).flatMap fun r =>
    let ws := (s.blk (cl.members.getD r 0)).waves
    ((List.range ws.length).filter fun w =>
      br.waves.contains (r, w) ||
        ((ws.getD w default).st != .done && waveArrived Path.cbarArr (ws.getD w default) k br.gen)).map (r, ·)

/-- Ranks of a cluster that have arrived: every wave of theirs that is not DONE has (R379). -/
def clusterArrived (s : State) (cl : Cluster) (ws : List (Nat × Nat)) : List Nat :=
  (List.range cl.members.length).filter fun r =>
    let vs := (s.blk (cl.members.getD r 0)).waves
    (List.range vs.length).all fun w => (vs.getD w default).st == .done || ws.contains (r, w)

/-- One cluster barrier after an arrival or an end of a wave: its generation completes once every rank has arrived in it, and
an arrival stands until then (R378, R379). -/
def checkCbar (s : State) (cl : Cluster) (k : Nat) (br : Barrier) : Barrier :=
  let waves := clusterWaves s cl k br
  let arrived := (List.range cl.members.length).filter fun r => br.arrived.contains r || (clusterArrived s cl waves).contains r
  let open? := waves ≠ [] || br.arrived ≠ [] ||
    cl.members.any fun m => (s.blk m).waves.any fun v => v.paths.any fun p => p.live && p.cbarArr.contains (k, br.gen)
  if !open? then br
  else if arrived.length = cl.members.length then { gen := br.gen + 1 }
  else { br with arrived, waves }

/-- All the cluster barriers of a block's cluster. -/
def State.checkCbars (s : State) (b : Nat) : State :=
  s.modCluster (s.blk b).cluster fun cl => { cl with bars := cl.bars.mapIdx (checkCbar s cl) }

/-! ### Taking a trap (R394, R395) -/

/-- What a trap reports. -/
structure TrapInfo where
  code : Nat
  sub : Nat := 0
  /-- TPC, CPOS and THDR -/
  pc : DWord
  cpos : Nat := 0
  hdr : Word := 0
  /-- TMASK; `none` where the spec names no lanes -/
  mask : Option Word := none
  va : DWord := 0
deriving DecidableEq, Repr, Inhabited

/-- A wave becomes DONE with its last live path (R336, R399): it counts as arrived at every barrier. -/
def State.waveEnd (s : State) (b w : Nat) : State :=
  if ((s.wv b w).paths.any Path.live) then s
  else ((s.modWv b w fun v =>
    { v with
      st := .done
      armed := none
      deferred := []
      saddle := none
      scwait := []
      ypark := false
      batches := v.batches.map (fun x => { x with closed := true })
      openBatch := if v.batches.any (fun x => !x.closed) then v.openBatch + 1 else v.openBatch }).checkBars
    b).checkCbars b

/-- EndWave of R395: every path becomes DONE, and the trap goes to the exit record. -/
def State.endWave (s : State) (b w p : Nat) (t : TrapInfo) : State :=
  ((s.modWv b w fun v =>
    { v with
      paths := v.paths.map (fun x =>
        if x.live then { x with st := .done, waitOn := .none, join := 0, blocked := none, parkedAt := [] } else x)
      ended := some ⟨t.code, t.sub, t.pc, t.va, p⟩ }).modLaunch (s.blk b).launch
    fun l => { l with trapEnd := true }).waveEnd b w

/-- An SWR of MEXT holds the whole wave (R393). -/
def State.mextHeld (s : State) (b w : Nat) : Bool := (s.world (s.launchOf b).world).mextq.any fun e => e.1 == b && e.2.1 == w

/-- The wave's MMA held at the saddle latch is this path's (R240). -/
def Wave.latchPath (v : Wave) (p : Path) : Bool := p.issuing && v.saddle.any fun x => x.1 == p.word && p.blocked.isSome

/-- TakeTrap (R394): the one operation by which every trap is taken. An SWR of MEXT of another path goes on holding the wave
(R393). -/
def State.takeTrap (s : State) (b w p : Nat) (t : TrapInfo) : State :=
  let v := s.wv b w
  let handler := recHandler (s.launchOf b).record
  if v.tinfo.getLsbD 31 || handler == 0 then s.endWave b w p t else
  let mask := match t.mask with | some m => m | none => Config.freeMask s.free
  let s := match t.mask with | some _ => s | none => { s with free := s.free + 1 }
  s.modWv b w fun v =>
    let pa := v.path p
    let smode := match pa.mode with | .plain => 0 | .melded => 1 | .sideA => 2 | .sideB => 3
    { v with
      tcode := BitVec.ofNat 32 (t.sub * 256 + t.code)
      tpc := t.pc
      tmask := mask
      tva := t.va
      tinfo := BitVec.ofNat 32 (2 ^ 31 + (v.tinfo.toNat / 2 ^ 30 % 2) * 2 ^ 30 + smode * 2 ^ 20 + t.cpos % 16 * 2 ^ 16 + p % 8)
      thdr := t.hdr
      excl := if s.mextHeld b w ∧ v.excl ≠ some p then v.excl else none
      saddle := if v.latchPath pa then none else v.saddle
      texm := pa.exm
      fflags := if t.code = 0x20 then v.fflags &&& ~~~(0x1F00#32) else v.fflags
      paths := v.paths.modify p fun x =>
        { x with mode := .plain, exm := x.full, pc := handler, cpos := 0, words := [], join := 0, st := .run, waitOn := .none, blocked := none, phase := 0 } }

/-- The trap of a word inside a clause: TPC is the word, CPOS its index, THDR the clause's header. -/
def Ctx.trap (c : Ctx) (code : Nat) (mask : Option Word := none) (va : DWord := 0) : TrapInfo :=
  { code, pc := c.pa.pc, cpos := c.pa.cpos, hdr := if c.pa.cpos = 0 then 0 else c.pa.hdr, mask, va }

/-- TRET (R400): the trap it raises, or the state it returns to. -/
def Ctx.tret (c : Ctx) (s : State) : TrapInfo ⊕ State :=
  let cpos := c.wv.tinfo.toNat / 2 ^ 16 % 16
  let hdr := c.wv.thdr
  if !c.inHandler then .inl (c.trap 0x01)
  else if cpos ≠ 0 ∧ (fld hdr 31 27 ≠ 0b11110 ∨ fld hdr 26 23 < cpos) then .inl (c.trap 0x02)
  else .inr (s.modWv c.b c.w fun v =>
    { v with
      tinfo := v.tinfo &&& 0x7FFFFFFF#32
      paths := v.paths.modify (v.tinfo.toNat % 8) fun x =>
        { x with
          exm := v.texm &&& x.full
          mode := (match v.tinfo.toNat / 2 ^ 20 % 4 with | 0 => .plain | 1 => .melded | 2 => .sideA | _ => .sideB)
          pc := v.tpc, cpos, hdr, words := [], phase := 0, blocked := none } })

/-! ### Issuing an instruction word (R49, R50) -/

/-- What the body of an instruction answers: a next state, a trap, that it is held at issue, or a state in which
the path does not go on. -/
inductive Act where
  | done (s : State)
  /-- the path stays at the word, in a state the body has set -/
  | stay (s : State)
  | trap (t : TrapInfo)
  /-- a trap in a state that what the word has read leaves behind (R22, R123) -/
  | trapIn (t : TrapInfo) (s : State)
  | hold (r : Stall) (s : State)
deriving Repr, Inhabited

/-- A trap of what follows a read is taken in the state that the read leaves. -/
def Act.after (s : State) : Act → Act
  | .trap t => .trapIn t s
  | a => a

/-- The v-registers that a field names in the issuing path's active lanes: the field itself outside a
melded region, otherwise its renamed numbers (R358). -/
def Ctx.bases (c : Ctx) (f : Nat) : List Nat :=
  match c.pa.mode with
  | .plain => [f]
  | _ => (((List.range 32).filter c.active).map fun ln => c.vreg ln f).dedup

/-- The v run that a use names, if it names one. -/
def useRun : Use → Option (Nat × Nat × Bool)
  | .vd f n e | .vo f n e => some (f.toNat, n, e)
  | .vs f n e => if f.toNat < 0x70 then some (f.toNat, n, e) else none
  | _ => none

/-- R42, R43 and R358 for a v run: whether it raises ILL. -/
def Ctx.runIll (c : Ctx) (f n : Nat) (even : Bool) : Bool :=
  n ≠ 0 && (c.B + c.X < f + n || (c.bases f).any fun r => (even && r % 2 == 1) || c.B + c.X < r + n)

/-- Only the words of the vector, memory and co-processor classes are renamed in a melded region (R358). -/
def renamedClass (cls : Nat) : Bool := [0, 2, 3].contains cls

/-- The wave holds its pair's extended lock (R148). -/
def Ctx.holdsLock (c : Ctx) : Bool := SMap.get none c.blk.xlock (c.w / 2) == some c.w

/-- R149 for a v run: it reaches the extended set without the lock. -/
def Ctx.runXreg (c : Ctx) (f n : Nat) : Bool :=
  !c.holdsLock && (c.bases f).any fun r => c.B < r + n && n ≠ 0

/-- Instructions that raise PRIV in U mode (R388). -/
@[inline] def needsS (i : Instr) : Bool :=
  match i with
  | .sctick _ => true
  | .swr _ _ _ x => x.toNat == 0x29 || x.toNat == 0x2A || x.toNat == 0x2B
  | .mextRequest _ _ _ => true
  | _ => i.cls == some 6

/-- MELDE, the one word that closes a melded region. -/
@[inline] def isMelde (i : Instr) : Bool := match i with | .melde _ => true | _ => false

/-- What an instruction does in run-ahead (R77). -/
inductive RaKind where
  | plain | load | probe | flow | ends
deriving DecidableEq, Repr, Inhabited

/-- The row of R77's table an instruction falls under. -/
@[inline] def raKind (i : Instr) : RaKind :=
  match i with
  | .ldS8 _ _ _ _ _ | .ldZ8 _ _ _ _ _ | .ldS16 _ _ _ _ _ | .ldZ16 _ _ _ _ _ | .ld32 _ _ _ _ _
  | .ld64 _ _ _ _ _ | .ld128 _ _ _ _ _ | .ldE _ _ _ _ _ | .ldlS8 _ _ _ _ | .ldlZ8 _ _ _ _
  | .ldlS16 _ _ _ _ | .ldlZ16 _ _ _ _ | .ldl32 _ _ _ _ | .ldl64 _ _ _ _ | .ldl128 _ _ _ _ => .load
  | .st8 _ _ _ _ _ | .st16 _ _ _ _ _ | .st32 _ _ _ _ _ | .st64 _ _ _ _ _ | .st128 _ _ _ _ _
  | .stE _ _ _ _ _ | .stl8 _ _ _ _ | .stl16 _ _ _ _ | .stl32 _ _ _ _ | .stl64 _ _ _ _ | .stl128 _ _ _ _
  | .atomAdd _ _ _ _ _ | .atomMinS _ _ _ _ _ | .atomMaxS _ _ _ _ _ | .atomMinN _ _ _ _ _
  | .atomMaxN _ _ _ _ _ | .atomAnd _ _ _ _ _ | .atomOr _ _ _ _ _ | .atomExch _ _ _ _ _
  | .atomxCas _ _ _ _ _ | .atomxXor _ _ _ _ _ | .atomxFadd _ _ _ _ _ | .atomxFmin _ _ _ _ _
  | .atomxFmax _ _ _ _ _ | .atomxAdd64 _ _ _ _ _ | .atomxCas64 _ _ _ _ _ | .atomxIncw _ _ _ _ _
  | .redAdd _ _ _ _ _ | .redMinS _ _ _ _ _ | .redMaxS _ _ _ _ _ | .redMinN _ _ _ _ _
  | .redMaxN _ _ _ _ _ | .redAnd _ _ _ _ _ | .redOr _ _ _ _ _ | .redFadd _ _ _ _ _
  | .atomlAdd _ _ _ _ | .atomlMinS _ _ _ _ | .atomlMaxS _ _ _ _ | .atomlAnd _ _ _ _
  | .atomlOr _ _ _ _ | .atomlExch _ _ _ _ | .atomlCas _ _ _ _ | .atomlFadd _ _ _ _ => .probe
  | .br _ _ | .brQ _ _ _ | .brNq _ _ _ | .brZ _ _ | .brNz _ _ | .brFull _ _ | .jmp _ _ | .call _ _ _
  | .ret _ _ => .flow
  | i => if i.cls = some 0 ∨ i.cls = some 1 then .plain else .ends

/-- The predicates an instruction reads, and the one it writes (R205, R221, R348). -/
@[inline] def raPreds (i : Instr) : List Nat × Option Nat :=
  match i with
  | .icmpEq _ g d _ _ | .icmpNe _ g d _ _ | .icmpLtS _ g d _ _ | .icmpLeS _ g d _ _ | .icmpLtN _ g d _ _
  | .icmpLeN _ g d _ _ | .icmpTest _ g d _ _ => ([], if g then some d.toNat else none)
  | .mtest _ d _ _ => ([], some d.toNat)
  | .movq _ d _ => ([], some d.toNat)
  | .qand _ d a b | .qor _ d a b | .qxor _ d a b => ([a.toNat, b.toNat], some d.toNat)
  | .qnot _ d a => ([a.toNat], some d.toNat)
  | .qmov _ _ a => ([a.toNat], none)
  | .brQ _ q _ | .brNq _ q _ => ([q.toNat], none)
  | _ => ([], none)

/-- Instructions of R204 that read their destination as well as write it (R211–R214, R228–R231). -/
@[inline] def raReadsD (i : Instr) : Bool :=
  match i with
  | .mad _ _ _ _ _ | .madwS _ _ _ _ _ | .madwN _ _ _ _ _ | .bfi _ _ _ _ _ | .prmt _ _ _ _ _ | .fma _ _ _ _
  | .fms _ _ _ _ | .fnma _ _ _ _ | .fnms _ _ _ _ | .fmaF64 _ _ _ _ | .fmsF64 _ _ _ _ | .fnmaF64 _ _ _ _
  | .fnmsF64 _ _ _ _ | .hfma2F16 _ _ _ _ | .hfma2Bf16 _ _ _ _ | .dot2F16 _ _ _ _ | .dot2Bf16 _ _ _ _
  | .dot4E4m3 _ _ _ _ | .dot4E5m2 _ _ _ _ | .dot4S8 _ _ _ _ | .dot4Z8 _ _ _ _ => true
  | _ => false

/-- The lane whose register a LANE instruction reads for lane `ln`, by b's value (R220); `none` for an
instruction that reads its own lane. -/
@[inline] def shflKind (i : Instr) : Option (Nat → Word → Nat) :=
  match i with
  | .shflIdx _ _ _ _ => some fun _ k => k.toNat % 32
  | .shflUp _ _ _ _ => some fun ln k => if ln < k.toNat % 32 then ln else ln - k.toNat % 32
  | .shflDn _ _ _ _ => some fun ln k => if 31 < ln + k.toNat % 32 then ln else ln + k.toNat % 32
  | .shflXor _ _ _ _ => some fun ln k => ln ^^^ (k.toNat % 32)
  | _ => none

/-- What the checks at issue read of an instruction word. -/
structure Info where
  /-- well-formed by its bits (R49, R55) -/
  wf : Bool
  uses : List Use
  /-- class (R45) -/
  cls : Nat
  /-- literal words (R44) -/
  lits : Nat
  /-- privileged (R388) -/
  priv : Bool
  melde : Bool
  /-- run-ahead (R77): its kind, predicates, whether it reads its destination, its source lanes -/
  ra : RaKind
  preds : List Nat × Option Nat
  readsD : Bool
  shfl : Option (Nat → Word → Nat)
deriving Inhabited

/-- The facts of an instruction word that its issue reads. -/
@[inline] def info (i : Instr) : Info :=
  { wf := i.wellFormed, uses := i.uses, cls := i.cls.getD 5, lits := i.literals, priv := needsS i, melde := isMelde i,
    ra := raKind i, preds := raPreds i, readsD := raReadsD i, shfl := shflKind i }

/-- The role of a wave may issue a class (R375). -/
def Ctx.roleAllows (c : Ctx) (cls : Nat) : Bool :=
  !recRV c.lr ||
    (if c.w < recNF c.lr then [1, 2, 5, 6].contains cls
     else if c.w < recNF c.lr + recNM c.lr then [1, 4, 5, 6].contains cls
     else [0, 1, 3, 5, 6].contains cls)

/-- The registers that a shuffle of a melded region reads in the lanes it names, which may be inactive: each is renamed by
its own lane's table (R208, R220, R358). -/
def Ctx.shflRegs (c : Ctx) (i : Info) : List Nat :=
  match c.pa.mode, i.shfl, i.uses with
  | .plain, _, _ => []
  | _, some f, [_, .vs a _ _, .vs b _ _] =>
    if a.toNat < 0x70 then
      (((List.range 32).filter c.active).map fun ln =>
        c.vreg (f ln (if b.toNat < 0x70 then c.v ln b.toNat 0 else c.g (b.toNat - 0x70))) a.toNat).dedup
    else []
  | _, _, _ => []

/-- CLASS (R29, R30). -/
def Ctx.classErr (c : Ctx) (i : Info) : Bool :=
  let k := fld c.pa.hdr 22 20
  let last := c.pa.cpos == fld c.pa.hdr 26 23
  if c.pa.hdr.getLsbD 19 then
    !(i.melde && last) && (!([0, 2, 3].contains i.cls) || (k ≠ 7 && k ≠ i.cls))
  else k ≠ 7 && k ≠ i.cls

/-- R42 and R43 for a v run of a word: its fields are renamed unless its class keeps it out of melded regions (R30, R358). -/
def Ctx.wordRunIll (c : Ctx) (i : Info) (f n : Nat) (even : Bool) : Bool :=
  if renamedClass i.cls || !c.classErr i then c.runIll f n even else n ≠ 0 && (c.B + c.X < f + n || (even && f % 2 == 1))

/-- ILL by the word, the budget, the rename tables and the open melded region (R49, R358). -/
def Ctx.ill (c : Ctx) (i : Info) : Bool :=
  !i.wf || i.uses.any (fun u => match useRun u with | some (f, n, e) => c.wordRunIll i f n e | none => false) ||
    (c.shflRegs i).any (c.B + c.X ≤ ·) ||
    (match c.pa.mode with
     | .plain => i.melde
     | _ => if i.melde then c.pa.count ≠ 0 else c.pa.count == 0)

/-- The checks every instruction word makes before its own, in the order of R50; `ill` adds the ILL
conditions of its description. -/
def Ctx.check (c : Ctx) (i : Info) (ill : Bool) : Option TrapInfo :=
  if ill || c.ill i then some (c.trap 0x01)
  else if i.priv && !c.smode then some (c.trap 0x04)
  else if c.classErr i then some (c.trap 0x03)
  else if !c.roleAllows i.cls then some (c.trap 0x07)
  else if i.uses.any (fun u => match useRun u with | some (f, n, _) => c.runXreg f n | none => false) ||
      (!c.holdsLock && (c.shflRegs i).any (c.B ≤ ·)) then some (c.trap 0x05)
  else none

/-- The position after an instruction word (R27, R44): PC and CPOS. -/
def Ctx.nextPos (c : Ctx) (lits : Nat) : DWord × Nat :=
  let n := c.pa.cpos + 1 + lits
  (c.pa.pc + BitVec.ofNat 64 (4 * (1 + lits)), if n > fld c.pa.hdr 26 23 then 0 else n)

/-- What every issued word leaves behind: its path no longer held, COUNT of an open melded region lowered (R358),
the park bit noted (R35), the path noted as the last that issued (R338). -/
def Ctx.issued (c : Ctx) (y : Bool) (s : State) : State :=
  s.modWv c.b c.w fun v =>
    { v with
      ypark := v.ypark || y
      lastPath := c.p
      lastIssue := s.clk
      excl := none
      paths := v.paths.modify c.p fun p =>
        { p with phase := 0, blocked := none, count := if c.pa.mode = .plain then p.count else p.count - 1 } }

/-- A memory-class instruction disarms a release, and ends the run of a returning atomic that it is not
itself (R327). -/
def Ctx.noteMemory (c : Ctx) (cls : Nat) (s : State) : State :=
  if cls ≠ 2 then s
  else s.modWv c.b c.w fun v =>
    { v with armed := none, lastAtom := if v.lastAtom = c.wv.lastAtom then none else v.lastAtom }

/-- Move the issuing path past the word and its literals. -/
def Ctx.advance (c : Ctx) (lits : Nat) (s : State) : State :=
  s.modPath c.b c.w c.p fun p => { p with pc := (c.nextPos lits).1, cpos := (c.nextPos lits).2 }

/-! ### Run-ahead at issue (R77) -/

/-- A source use is invalid in lane `ln`. -/
def Ctx.raBadUse (c : Ctx) (r : RunAhead) (ln : Nat) (u : Use) : Bool :=
  let run (f n : Nat) : Bool := (List.range n).any fun j => r.badV.contains ((c.vreg ln f + j) * 32 + ln)
  let regs (n k : Nat) : Bool := (List.range k).any fun j => r.badG.contains (n + j)
  match u with
  | .vd f n _ | .vo f n _ => run f.toNat n
  | .vs f n _ => if f.toNat < 0x70 then run f.toNat n else regs (f.toNat - 0x70) n
  | .vf f | .rs f => if f.toNat < 0x70 then run f.toNat 1 else regs (f.toNat - 0x70) 1
  | .gd f n _ => regs f.toNat n
  | .bc x e => regs x.toNat (if e then 2 else 1)

/-- The source uses of an instruction: all but its destination, and that too where it is read. -/
def Info.sources (i : Info) : List Use :=
  match i.uses with
  | [] => []
  | u :: rest =>
    let dst := match u with | .vd _ _ _ => true | .gd _ _ _ => i.preds.2.isNone | _ => false
    if i.readsD || !dst then u :: rest else rest

/-- An operand of the instruction is invalid in lane `ln`. -/
def Ctx.raBad (c : Ctx) (r : RunAhead) (i : Info) (ln : Nat) : Bool :=
  i.preds.1.any (fun q => r.badQ.contains q) ||
  (match i.shfl, i.uses with
   | some f, [_, a, b] =>
     let k := match b with
       | .vs x _ _ => if x.toNat < 0x70 then c.v ln x.toNat 0 else c.g (x.toNat - 0x70)
       | _ => 0
     c.raBadUse r ln b || c.raBadUse r (f ln k) a
   | _, _ => i.sources.any fun u => c.raBadUse r ln u)

/-- The registers an instruction has written become valid or invalid. -/
def Ctx.raMark (c : Ctx) (r : RunAhead) (i : Info) : RunAhead :=
  let async := i.ra == .load || i.ra == .probe
  let lanes := (List.range 32).filter c.active
  let anyBad := async || (if i.cls = 1 then c.raBad r i 0 else lanes.any fun ln => c.raBad r i ln)
  let upd (l : List Nat) (k : Nat) (bad : Bool) : List Nat :=
    let l' := l.filter (fun x => x != k)
    if bad then k :: l' else l'
  let r := match i.preds.2 with
    | some q => { r with badQ := upd r.badQ q anyBad }
    | none => r
  match i.uses.head? with
  | some (.vd f n _) =>
    { r with badV := lanes.foldl (fun l ln => (List.range n).foldl
        (fun l j => upd l ((c.vreg ln f.toNat + j) * 32 + ln) (async || c.raBad r i ln)) l) r.badV }
  | some (.gd f n _) =>
    if i.preds.2.isSome then r
    else { r with badG := (List.range n).foldl (fun l j => upd l (f.toNat + j) anyBad) r.badG }
  | _ => r

/-- Run-ahead ends (R77). -/
def Ctx.raEnd (c : Ctx) (s : State) : State :=
  s.modWv c.b c.w fun v => { v with ra := v.ra.map fun r => { r with ended := true } }

/-- An instruction word in run-ahead: what R77's table says of it. -/
def Ctx.raIssue (c : Ctx) (r : RunAhead) (moves : Bool) (i : Info) (ill : Bool) (s : State)
    (body : Ctx → State → Act) : State :=
  if 256 ≤ r.count || i.ra == .ends || (c.check i ill).isSome ||
      (i.ra == .flow && (List.range 32).any fun ln => c.active ln && c.raBad r i ln) ||
      (i.ra == .flow && (i.preds.1.any (fun q => r.badQ.contains q) || (i.uses.isEmpty && r.badG.contains 127))) then c.raEnd s
  else
    match body c s with
    | .done s' =>
      ((if moves then s' else c.advance i.lits s').modWv c.b c.w fun v =>
        { v with
          paths := v.paths.modify c.p fun p => { p with phase := 0, blocked := none, count := if c.pa.mode = .plain then p.count else p.count - 1 }
          ra := v.ra.map fun r => { c.raMark r i with count := r.count + 1 } })
    | _ => c.raEnd s

/-- Issue an instruction word: the common checks, then its body. `moves` is true where the body itself
sets the path's position (control transfers). -/
def issueWith (moves : Bool) (i : Info) (y : Bool) (ill : Ctx → Bool) (s : State)
    (body : Ctx → State → Act) : Host.Outcome State Fault Refusal :=
  match s.ctx with
  | none => .fault .noIssuingWave
  | some c =>
    if let some r := c.wv.ra then .next (c.raIssue r moves i (ill c) s body) else
    match c.check i (ill c) with
    | some t => .next (s.takeTrap c.b c.w c.p t)
    | none =>
      match body c s with
      | .trap t => .next (s.takeTrap c.b c.w c.p t)
      | .trapIn t s' => .next (s'.takeTrap c.b c.w c.p t)
      | .stay s' => .next s'
      | .hold r s' => .next (s'.modPath c.b c.w c.p fun p => { p with blocked := some r, again := false })
      | .done s' => .next (c.noteMemory i.cls (c.issued y (if moves then s' else c.advance i.lits s')))

/-- Issue a word that goes on to the next one. -/
def issue (i : Info) (y : Bool) (s : State) (body : Ctx → State → Act) :
    Host.Outcome State Fault Refusal :=
  issueWith false i y (fun _ => false) s body

end Sys2Proof.Machine
end

