-- ==== Sys2Proof/Machine/Cache.lean ====
section
/-! DEFINITION. The memory controllers, L2 and L1: spec/04_l2_and_home_slices.md (R92–R113), the memory
map (R58, R59) and the L1 rules of R324. -/

namespace Sys2Proof.Machine

open Sys2Proof

/-! ### Addresses -/

/-- H of R92: the home slice of an IA. -/
def homeSlice (a : Nat) : Nat :=
  (a / 2 ^ 7 % 128) ^^^ (a / 2 ^ 14 % 128) ^^^ (a / 2 ^ 21 % 128) ^^^ (a / 2 ^ 28 % 128) ^^^
    (a / 2 ^ 35 % 128) ^^^ (a / 2 ^ 42 % 128) ^^^ (a / 2 ^ 49 % 8)

/-- IA[51:48] (R58). -/
def iaRegion (a : Nat) : Nat := a / 2 ^ 48 % 16
/-- The IA lies in a direct window (R58). -/
def iaDirect (a : Nat) : Bool := a / 2 ^ 44 % 16 == 15
/-- The direct-window IA of a PA in a region (R58). No IA reaches a PA of 2⁴⁴ or more: callers rule it out
(`tableFault`, the grants of MIGR) before they come here. -/
def directIA (region pa : Nat) : Nat := region * 2 ^ 48 + 15 * 2 ^ 44 + pa % 2 ^ 44

/-- What lies at a PA (R59). -/
inductive PaKind where
  | hbm | foothill | host | peer (p : Nat) | none
deriving DecidableEq, Repr, Inhabited

/-- The on-module foothill memory may be smaller than its window of 2 TiB and lies at its low end (R17, R59). -/
def paKind (pa : Nat) : PaKind :=
  if pa < 0x009000000000 then .hbm
  else if 0x040000000000 ≤ pa ∧ pa < 0x060000000000 then (if pa - 0x040000000000 < Config.moduleBytes then .foothill else .none)
  else if 0x080000000000 ≤ pa ∧ pa < 0x100000000000 then .foothill
  else if 0x100000000000 ≤ pa ∧ pa < 0x200000000000 then .host
  else if 0x2000000000000 ≤ pa ∧ pa < 0x2000000000000 + 32 * 0x100000000000 then
    .peer ((pa - 0x2000000000000) / 2 ^ 44)
  else .none

/-- Host and peer memory (R59). -/
def paFar (pa : Nat) : Bool := match paKind pa with | .host | .peer _ => true | _ => false

/-! ### World-record fields (R410) -/

def wrShareset (r : BitVec 4096) : Nat := fld r 1279 1024
def wrHeapva (r : BitVec 4096) : Nat := fld r 1023 960
def wrWspace (r : BitVec 4096) : Nat := fld r 959 896
def wrRoot (r : BitVec 4096) : Nat := fld r 895 832
def wrFria (r : BitVec 4096) : Nat := fld r 831 768
def wrFbia (r : BitVec 4096) : Nat := fld r 767 704
def wrOvria (r : BitVec 4096) : Nat := fld r 703 640
def wrSpillpa (r : BitVec 4096) : Nat := fld r 639 576
def wrSpillsize (r : BitVec 4096) : Nat := fld r 575 512
def wrVfs (r : BitVec 4096) : Nat := fld r 511 416
def wrWays (r : BitVec 4096) : Nat := fld r 415 400
def wrDrain (r : BitVec 4096) : Nat := fld r 389 384
def wrNgrant (r : BitVec 4096) : Nat := fld r 9 5
def wrV (r : BitVec 4096) : Bool := r.getLsbD 4
def wrWorld (r : BitVec 4096) : Nat := fld r 3 0
/-- Grant entry `i`: base and size. -/
def wrGrant (r : BitVec 4096) (i : Nat) : Nat × Nat :=
  (fld r (2048 + 128 * i + 49) (2048 + 128 * i), fld r (2048 + 128 * i + 127) (2048 + 128 * i + 64))
/-- The grant of a world: its ranges in use. -/
def wrGrants (r : BitVec 4096) : List (Nat × Nat) := (List.range (min 16 (wrNgrant r))).map (wrGrant r)

/-- The grant of an IA region (R60). -/
def State.grant (s : State) (region : Nat) : List (Nat × Nat) :=
  if region = 12 then s.sharedGrant
  else if region < 12 && wrV (s.world region).record then wrGrants (s.world region).record else []

/-- Bytes [pa, pa + n) lie inside the ranges of a grant, at most `fuel` of them one after the other. -/
def grantReach (g : List (Nat × Nat)) (pa n : Nat) : Nat → Bool
  | 0 => false
  | fuel + 1 =>
    match g.find? fun e => e.1 ≤ pa && pa < e.1 + e.2 with
    | none => false
    | some e => pa + n ≤ e.1 + e.2 || grantReach g (e.1 + e.2) (pa + n - (e.1 + e.2)) fuel
/-- Bytes [pa, pa + n) lie inside a grant; they may run from one of its ranges into an adjacent one (R60). -/
def inGrant (g : List (Nat × Nat)) (pa n : Nat) : Bool := grantReach g pa n (g.length + 1)

/-- The way mask of an IA region (R95). -/
def State.wayMask (s : State) (region : Nat) : Nat :=
  if region = 12 then s.sharedWays else if region < 12 then wrWays (s.world region).record else 0

/-! ### Memory controllers (R69) -/

/-- Bytes of a line as its data. -/
def lineOfBytes (bs : List Byte) : Line := BitVec.ofNat 1024 (leNat bs)
/-- Byte `i` of a line. -/
def lineByte (l : Line) (i : Nat) : Byte := l.extractLsb' (8 * i) 8
/-- Every byte bit of a mask spread over its byte. -/
def spread (m : LineMask) : Line :=
  BitVec.ofNat 1024 ((List.range 128).foldl (fun x i => if m.getLsbD i then x + 255 * 256 ^ i else x) 0)
/-- Bytes [o, o + n) of a line as a mask. -/
def byteMask (o n : Nat) : LineMask := BitVec.ofNat 128 ((2 ^ n - 1) * 2 ^ o)

/-- The line of memory that starts at a PA. -/
def State.memLine (s : State) (pa : Nat) : Line :=
  lineOfBytes (memBytes s.mem (pa / 128 * 128) 128)

/-- The region under whose key an HBM line was last written whole, `none` since power-on (R69). -/
def State.keyOf (s : State) (pa : Nat) : Option Nat := (s.keys.find? fun e => e.1 ≤ pa && pa < e.1 + e.2.1).map fun e => e.2.2

/-- The line of a PA cannot be read by a request of an IA region: an uncorrectable error, or a MAC that fails
because the line was not last written whole under the region's key (R69). -/
def State.bad (s : State) (region pa : Nat) : Bool :=
  s.badLines.contains (pa / 128) || (paKind pa == .hbm && s.keyOf pa ≠ some region)

/-- Write the marked bytes of a line for a request of an IA region. A partial write to a line that fails verification
is discarded and logged; a whole line gets a new MAC under the region's key (R69). -/
def State.ctrlWrite (s : State) (region world pa : Nat) (data : Line) (m : LineMask) : State :=
  if m = 0 then s
  else if s.bad region pa && m ≠ BitVec.allOnes 128 then s.log 5 (some 0x14) none world pa
  else
    { s with
      badLines := s.badLines.filter (fun l => l != pa / 128)
      keys := if m = BitVec.allOnes 128 ∧ paKind pa = .hbm ∧ s.keyOf pa ≠ some region then (pa / 128 * 128, 128, region) :: s.keys else s.keys
      mem := (List.range 128).foldl (fun mem i =>
        if m.getLsbD i then memSet mem (pa / 128 * 128 + i) (lineByte data i) else mem) s.mem }

/-! ### Ports (R427, R430) -/

/-- A slot-table entry's fields (R411). -/
def slDur (e : BitVec 512) : Nat := fld e 15 0
def slLast (e : BitVec 512) : Bool := e.getLsbD 16
def slRidge (e : BitVec 512) (r : Nat) : Nat := fld e (4 * r + 115) (4 * r + 112)
def slBw (e : BitVec 512) (w : Nat) : Nat := fld e (8 * w + 247) (8 * w + 240)
def slLink (e : BitVec 512) (p : Nat) : Nat := fld e (4 * p + 339) (4 * p + 336)
def slDonee (e : BitVec 512) (w : Nat) : Nat := fld e (4 * w + 403) (4 * w + 400)

/-- The slot-table entry in force. -/
def State.slot (s : State) : Option (BitVec 512) := s.slots[s.slotEntry]?

/-- The port that carries a world's accesses to peer `p` (R427, R412). -/
def State.peerPort (s : State) (world p : Nat) : Option Nat :=
  match s.slot, s.routes.find? (fun e => e.1 == p) with
  | some e, some r => (List.range 16).find? fun q => r.2.contains q && (slLink e q == world || slLink e q == 15)
  | _, _ => none

/-- An access to a PA can leave through its port: it goes, it has no port, or its link is training (R427, R430). -/
inductive PortRes where
  | ok | none | train
deriving DecidableEq, Repr, Inhabited

def State.portFor (s : State) (world pa : Nat) : PortRes :=
  match paKind pa with
  | .peer p =>
    (match s.peerPort world p with
     | some q => if SMap.get 0 s.flitTries q = 3 then .train else .ok
     | none => .none)
  | _ => .ok

/-! ### L2 -/

/-- An access of a wave: block, wave, operation and lane, with its core and world. A fetch and a record read stand under
their path, as lanes 33 and 32. -/
structure Who where
  b : Nat
  w : Nat
  op : Nat
  lane : Nat
  core : Nat
  world : Nat
deriving DecidableEq, Repr, Inhabited

/-- Why a request to L2 is not served: a check fails, it parks on a waking way (R111), no port leads to its PA (R427),
or the port's link is training (R430). -/
inductive L2Stop where
  | bad | park | noPort | train
deriving DecidableEq, Repr, Inhabited

/-- A request: issuing core (`none` for engines and ports), its world, IA, PA and policy (R97). A request of a core is
looked up in the core's near slice first, and counts for the die-streak. An engine's own access goes on, within its step,
once a training link is ready. -/
structure L2Req where
  core : Option Nat := none
  world : Nat := 0
  ia : Nat := 0
  pa : Nat := 0
  policy : Nat := 0
  engine : Bool := false
deriving DecidableEq, Repr, Inhabited

def State.l2line (s : State) (ln : Nat) : Option L2Line := SMap.get none s.l2 ln
def State.setL2 (s : State) (ln : Nat) (l : Option L2Line) : State := { s with l2 := SMap.put none s.l2 ln l }

/-- The world an L2 event is counted to (R113). -/
def countWorld (world ia : Nat) : Nat := if iaRegion ia < 12 then iaRegion ia else world

/-- Count event `n` of R113 at a slice: 0 lookups, 1 hits, 2 misses, 3 write-backs, 4 moves, 5 forwards, 6 recalls for copy
ownership, 7 recalls for cluster units, 8 waits for a wake. -/
def State.l2count (s : State) (world ia slice n : Nat) : State :=
  s.modWorld (countWorld world ia) fun w =>
    { w with l2cnt := SMap.put 0 w.l2cnt (slice * 16 + n) ((SMap.get 0 w.l2cnt (slice * 16 + n) + 1) % 2 ^ 64) }

/-- Ways of a mask that are enabled in a slice, and whether one of them is waking (R110, R111). -/
def State.enabledWays (s : State) (mask slice : Nat) : List Nat :=
  (List.range 16).filter fun w => mask.testBit w && !s.gatedWays.contains (slice, w) && !s.wakingWays.contains (slice, w)
def State.wakingIn (s : State) (mask slice : Nat) : Bool :=
  (List.range 16).any fun w => mask.testBit w && s.wakingWays.contains (slice, w)

/-- Bytes of a line put into its data. -/
def putBytes (d : Line) (o : Nat) (bs : List Byte) : Line :=
  (d &&& ~~~(spread (byteMask o bs.length))) ||| BitVec.ofNat 1024 (leNat bs * 256 ^ o)

/-- Write bytes into the copy of a line. -/
def L2Line.write (l : L2Line) (o : Nat) (bs : List Byte) : L2Line :=
  { l with data := putBytes l.data o bs, present := l.present ||| byteMask o bs.length, dirty := l.dirty ||| byteMask o bs.length }

/-- The slice of the translator that homes the granule of an IA (R93). -/
def granuleHome (ia : Nat) : Nat := homeSlice (ia / 65536 * 65536)

/-- OR bits into the low byte of a table entry where it stands, in L2 or in memory, for a request that waits for nothing. -/
def State.orInPlace (s : State) (world ent : Nat) (bits : Byte) : State :=
  let region := iaRegion ent
  let o := ent % 128
  match s.l2line (ent / 128) with
  | some l =>
    if l.bad || (!l.present.getLsbD o && s.bad region l.pa) then s
    else
      let old := lineByte (if l.present.getLsbD o then l.data else s.memLine l.pa) o
      s.setL2 (ent / 128) (some (l.write o [old ||| bits]))
  | none =>
    let pa := ent % 2 ^ 44
    s.ctrlWrite region (countWorld world ent) pa (putBytes 0 o [lineByte (s.memLine pa) o ||| bits]) (byteMask o 1)

/-- A write-back is a translation that sets DIRTY (R65, R66), and it makes no walk (R94): where the translator still caches
the translation that the line records, it sets DIRTY through that one, and where it does not, nothing is set
(DEDUCED, notes/assumptions/67.md). -/
def State.markDirty (s : State) (world ln : Nat) (l : L2Line) : State :=
  let ia := ln * 128
  match s.tlb.find? fun t => t.home == granuleHome ia && t.world == iaRegion ia && t.base ≤ ia && ia < t.base + t.size &&
      t.frame + (ia - t.base) == l.pa && !t.dirty with
  | none => s
  | some t =>
    let s := s.orInPlace world t.ent 0x08
    { s with tlb := s.tlb.map fun x => if x = t then { x with dirty := true } else x }

/-- Write a line back for a request of a world: the dirty bytes go to the recorded PA, and the line, where it stays, is clean
(R94, notes/assumptions/67.md). A line whose own check fails is not used (R122). Bytes of peer memory that no port takes
(R427) are discarded, and the event is logged (DESIGN CHOICE, notes/assumptions/67.md). -/
def State.writeBack (s : State) (world ln : Nat) : State :=
  match s.l2line ln with
  | none => s
  | some l =>
    let region := iaRegion (ln * 128)
    let by_ := countWorld world (ln * 128)
    if l.dirty = 0 then s
    else if l.bad then s.log 5 (some 0x14) none by_ l.pa
    else
      let s := s.markDirty world ln l
      let s := if s.portFor by_ l.pa = .none then s.logFault (0x10, 3) none by_ l.pa else s.ctrlWrite region by_ l.pa l.data l.dirty
      (s.l2count world (ln * 128) l.slice 3).setL2 ln (some { l with dirty := 0 })

/-- Write a line back and invalidate it; a cairn for it goes with it (R96, R102). -/
def State.l2Evict (s : State) (world ln : Nat) : State := (s.writeBack world ln).setL2 ln none

/-- The line that lies where a line of number `ln` would: the same slice, way and set. A slice has 2,048 sets, and which one
an IA falls into is private to the part (R17, R94). -/
def State.l2Occupant (s : State) (ln slice way : Nat) : Option Nat :=
  (s.l2.find? fun e => match e.2 with
    | some x => e.1 != ln && x.slice == slice && x.holder.isNone && x.way == way && Config.l2Set e.1 % 2048 == Config.l2Set ln % 2048
    | none => false).map Prod.fst

/-- Put a line into a slice: into an enabled way of its mask, evicting what lies there (R94, R95, R110). Where the slice
has no such way, the line is written back and leaves L2. -/
def State.l2Place (s : State) (world ln slice : Nat) (l : L2Line) : State :=
  match s.enabledWays (s.wayMask (iaRegion (ln * 128))) slice with
  | [] => (s.setL2 ln (some { l with holder := none })).l2Evict world ln
  | ways =>
    let (k, s) := s.freeNat ways.length
    let way := ways.getD k 0
    let s := match s.l2Occupant ln slice way with
      | some v => s.l2Evict world v
      | none => s
    s.setL2 ln (some { l with slice, way, holder := none })

/-- Allocate a line at its home (R94, R95). -/
def State.l2Alloc (s : State) (r : L2Req) (l : L2Line) : State := s.l2Place r.world (r.ia / 128) (homeSlice r.ia) l

/-- A line back at its home slice, from a cluster unit or from the slice that holds it away (R102, R103, R105, R109).
Every return of a cluster unit counts as a recall for cluster units, its own return of its least recently used line and the
returns at a shutter too (DESIGN CHOICE, notes/assumptions/67.md). -/
def State.recall (s : State) (world ln : Nat) : State :=
  match s.l2line ln with
  | none => s
  | some l =>
    let home := homeSlice (ln * 128)
    if l.holder.isSome then (s.l2count world (ln * 128) home 7).l2Place world ln home l
    else if l.slice = home then s
    else (s.l2count world (ln * 128) home 4).l2Place world ln home { l with streak := 0 }

/-- Move a line to another slice, if a way is enabled there; a full cairn directory first recalls its oldest line
(R100, R102). A line that moves again has a new cairn; of equally old ones the lowest line goes (notes/assumptions/67.md). -/
def State.l2Move (s : State) (world ln slice : Nat) : State :=
  match s.l2line ln with
  | none => s
  | some l =>
    let home := homeSlice (ln * 128)
    if s.enabledWays (s.wayMask (iaRegion (ln * 128))) slice = [] then s
    else
      let away := s.l2.filter fun e => match e.2 with
        | some x => homeSlice (e.1 * 128) == home && x.slice != home
        | none => false
      let oldest := away.foldl (fun b e => match e.2 with
        | some x => if x.moved < b.2 then (e.1, x.moved) else b
        | none => b) (0, s.clk + 1)
      let s := if slice ≠ home ∧ l.slice = home ∧ 4096 ≤ away.length then s.recall world oldest.1 else s
      (s.l2count world (ln * 128) home 4).l2Place world ln slice { l with streak := 0, moved := s.clk }

/-- A device- or system-scope atomic has executed on the line within the last 65,536 fabric cycles, 98,304 of CLK (R103). -/
def State.atomRecent (s : State) (ln : Nat) : Bool := s.atomAt.any fun e => e.1 == ln && s.clk < e.2 + 98304
/-- Note such an atomic. -/
def State.noteAtom (s : State) (ln : Nat) : State :=
  { s with atomAt := (ln, s.clk) :: s.atomAt.filter fun e => e.1 != ln && s.clk < e.2 + 98304 }

/-- Lines that do not migrate (R103). -/
def State.pinnedLine (s : State) (ln : Nat) (l : L2Line) : Bool :=
  s.owned.any (fun e => e.1 == ln) || l.holder.isSome || s.atomRecent ln

/-- Any request for a line that a cluster unit holds, or that does not migrate and is away, first recalls it home
(R103, R109). -/
def State.l2Settle (s : State) (world ln : Nat) : State :=
  match s.l2line ln with
  | some l => if l.holder.isSome || (l.slice ≠ homeSlice (ln * 128) && s.pinnedLine ln l) then s.recall world ln else s
  | none => s

/-- A line that a cluster unit holds comes back (R109). -/
def State.unhold (s : State) (world ia : Nat) : State :=
  match s.l2line (ia / 128) with
  | some l => if l.holder.isSome then s.recall world (ia / 128) else s
  | none => s

/-- Where a request is looked up, counted (R101, R113): in the near slice of a core's die, then at home, then at the slice
that a cairn names. -/
def State.l2Lookup (s : State) (r : L2Req) : State :=
  let home := homeSlice r.ia
  let held := (s.l2line (r.ia / 128)).map L2Line.slice
  let near := r.core.bind fun c => if c / 64 = home / 32 then none else some (c / 64 * 32 + home % 32)
  let count (s : State) (slice n : Nat) : State := s.l2count r.world r.ia slice n
  let s := match near with
    | some x => count (count s x 0) x (if held = some x then 1 else 2)
    | none => s
  if near.isSome ∧ held = near then s
  else match held with
    | none => count (count s home 0) home 2
    | some x => if x = home then count (count s home 0) home 1 else count (count (count (count s home 0) home 5) x 0) x 1

/-- A read, store or reduction of a core reaches the line: the die-streak, and a move it causes (R100). Where R103 keeps a
line from moving, a streak of 7 stays, and the line moves at that die's next request after the bar ends (DESIGN CHOICE,
notes/assumptions/67.md). -/
def State.l2Touch (s : State) (r : L2Req) : State :=
  match s.l2line (r.ia / 128), r.core with
  | some l, some core =>
    let ln := r.ia / 128
    let home := homeSlice (ln * 128)
    let d := core / 64
    let n := if d = l.slice / 32 then 0 else if d = l.streakDie then min 7 (l.streak + 1) else 1
    let l := { l with streak := n, streakDie := if n = 0 then l.streakDie else d }
    let s := s.setL2 ln (some l)
    if n < 7 ∨ s.pinnedLine ln l then s
    else s.l2Move r.world ln (if d = home / 32 then home else d * 32 + home % 32)
  | _, _ => s

/-- Bring the missing bytes of a line in beneath the written ones (R94). -/
def State.l2Complete (s : State) (ln : Nat) : Except (L2Stop × State) State :=
  match s.l2line ln with
  | none => .ok s
  | some l =>
    if l.bad then .error (.bad, s)
    else if l.present = BitVec.allOnes 128 then .ok s
    else if s.bad (iaRegion (ln * 128)) l.pa then .error (.bad, s)
    else
      let m := spread l.present
      .ok (s.setL2 ln (some { l with data := (l.data &&& m) ||| (s.memLine l.pa &&& ~~~m), present := BitVec.allOnes 128 }))

/-- Whether a miss under the policy allocates, or parks (R96, R97, R110, R111). -/
def State.allocates (s : State) (r : L2Req) : Except L2Stop Bool :=
  if r.policy = 1 ∨ r.policy = 2 then .ok false
  else
    let mask := s.wayMask (iaRegion r.ia)
    let slice := homeSlice r.ia
    if s.wakingIn mask slice then .error .park else .ok (s.enabledWays mask slice ≠ [])

/-- The port that a miss goes through to its PA. -/
def State.l2Port (s : State) (r : L2Req) : Except L2Stop Unit :=
  match s.portFor r.world r.pa with
  | .ok => .ok ()
  | .none => .error .noPort
  | .train => if r.engine then .ok () else .error .train

/-- A request reaches the line of its IA, wherever that is. -/
def State.l2Reach (s : State) (r : L2Req) : State := ((s.l2Settle r.world (r.ia / 128)).l2Lookup r).l2Touch r

/-- A request that L2 does not serve, which has reached it from a state: one that parks, or whose link trains, is made again
and counts for nothing yet. -/
def L2Stop.from (e : L2Stop) (before reached : State) : L2Stop × State :=
  match e with
  | .park | .train => (e, before)
  | .bad | .noPort => (e, reached)

/-- Make a line present in L2 whole, or give its data from memory under a policy that does not allocate
(R94, R97, R98). -/
def State.l2Load (s₀ : State) (r : L2Req) : Except (L2Stop × State) (Line × State) :=
  let ln := r.ia / 128
  let s := s₀.l2Reach r
  match s.l2line ln with
  | some _ => (s.l2Complete ln).map fun s => (((s.l2line ln).getD {}).data, s)
  | none =>
    match s.allocates r, s.l2Port r with
    | .error e, _ => .error (e.from s₀ s)
    | _, .error e => .error (e.from s₀ s)
    | .ok alloc, .ok _ =>
      if s.bad (iaRegion r.ia) r.pa then .error (.bad, s)
      else
        let data := s.memLine r.pa
        .ok (data, if alloc then s.l2Alloc r { pa := r.pa / 128 * 128, data, present := BitVec.allOnes 128 } else s)

/-- Bytes that a line holds in L2 without a memory read. -/
def State.l2Present (s : State) (ia n : Nat) : Option (List Byte) :=
  match s.l2line (ia / 128) with
  | some l =>
    if !l.bad && l.present &&& byteMask (ia % 128) n = byteMask (ia % 128) n then
      some ((List.range n).map fun i => lineByte l.data (ia % 128 + i))
    else none
  | none => none

/-- Bytes of one line from L2. A hit on bytes already present needs no memory read. -/
def State.l2Read (s : State) (r : L2Req) (n : Nat) : Except (L2Stop × State) (List Byte × State) :=
  match s.l2Load r with
  | .ok (d, s) => .ok ((List.range n).map fun i => lineByte d (r.ia % 128 + i), s)
  | .error (.bad, s) =>
    (match s.l2Present r.ia n with
     | some bs => .ok (bs, s)
     | none => .error (.bad, s))
  | .error e => .error e

/-- Write bytes of one line: into the L2 copy, a new line without a fill, or memory (R94, R97, R98). A line whose check
fails takes nothing, and neither does host or peer memory whose port answers with an error (R168) or that has no port
(R427). -/
def State.l2Write (s₀ : State) (r : L2Req) (bs : List Byte) : Except (L2Stop × State) State :=
  let ln := r.ia / 128
  let o := r.ia % 128
  let s := s₀.l2Reach r
  match s.l2line ln with
  | some l => if l.bad then .error (.bad, s) else .ok (s.setL2 ln (some (l.write o bs)))
  | none =>
    match s.allocates r, s.l2Port r with
    | .error e, _ => .error (e.from s₀ s)
    | _, .error e => .error (e.from s₀ s)
    | .ok true, .ok _ => .ok (s.l2Alloc r ({ pa := r.pa / 128 * 128 : L2Line }.write o bs))
    | .ok false, .ok _ =>
      if paFar r.pa && s.bad (iaRegion r.ia) r.pa then .error (.bad, s)
      else .ok (s.ctrlWrite (iaRegion r.ia) (countWorld r.world r.ia) r.pa (putBytes 0 o bs) (byteMask o bs.length))

/-- The old value at a location of a line and what an atomic leaves there (R106, R107): on the copy in L2, in a line that
a miss allocates, or in memory. A reduction that misses allocates its line without a fill (R94). `f` gives the new
bytes, `none` where nothing is written. -/
def State.l2Atomic (s : State) (r : L2Req) (n : Nat) (red : Bool) (f : List Byte → Option (List Byte)) : Except (L2Stop × State) (List Byte × State) :=
  let ln := r.ia / 128
  let o := r.ia % 128
  let bytes (d : Line) : List Byte := (List.range n).map fun i => lineByte d (o + i)
  match s.l2line ln with
  | some l =>
    let whole := if !l.bad && l.present &&& byteMask o n = byteMask o n then .ok s else s.l2Complete ln
    whole.map fun s =>
      let l := (s.l2line ln).getD {}
      (bytes l.data, match f (bytes l.data) with
        | some bs => s.setL2 ln (some (l.write o bs))
        | none => s)
  | none =>
    match s.allocates r, s.l2Port r with
    | .error e, _ => .error (e, s)
    | _, .error e => .error (e, s)
    | .ok alloc, .ok _ =>
      if s.bad (iaRegion r.ia) r.pa then .error (.bad, s)
      else
        let d := s.memLine r.pa
        let l : L2Line := { pa := r.pa / 128 * 128 }
        let full : L2Line := { l with data := d, present := BitVec.allOnes 128 }
        .ok (bytes d, match f (bytes d) with
          | some bs =>
            if alloc then s.l2Alloc r ((if red then l else full).write o bs)
            else s.ctrlWrite (iaRegion r.ia) (countWorld r.world r.ia) r.pa (putBytes 0 o bs) (byteMask o n)
          | none => if alloc then s.l2Alloc r full else s)

/-- Write back and invalidate the L2 copy of a line whose access goes to a port (R106, R182). -/
def State.toPort (s : State) (world ia : Nat) : State := (s.unhold world ia).l2Evict world (ia / 128)

/-- Write back every dirty line of a world whose PA lies in host or peer memory; with `inv`, invalidate
every such line (R326). -/
def State.systemLines (s : State) (world : Nat) (inv : Bool) : State :=
  (s.l2.map Prod.fst).foldl (fun s ln =>
    match s.l2line ln with
    | some l => if iaRegion (ln * 128) == world && paFar l.pa then (if inv then s.l2Evict world ln else s.writeBack world ln) else s
    | none => s) s

/-! ### L1 (R99, R324) -/

/-- Remove the line of an IA from a core's L1. -/
def State.l1Drop (s : State) (core ia : Nat) : State :=
  s.modCore core fun c => { c with l1 := c.l1.filter fun e => e.1 != ia / 128 }
/-- Invalidate every line of a core's L1. -/
def State.l1Clear (s : State) (core : Nat) : State := s.modCore core fun c => { c with l1 := [] }
/-- Invalidate the L1 lines of an IA region (R312). -/
def State.l1DropRegion (s : State) (core region : Nat) : State :=
  s.modCore core fun c => { c with l1 := c.l1.filter fun e => iaRegion (e.1 * 128) != region }
/-- A store that hits a line of its core's L1 updates it when it issues (R166). -/
def State.l1Update (s : State) (core ia : Nat) (bs : List Byte) : State :=
  s.modCore core fun c =>
    { c with l1 := c.l1.map fun e =>
        if e.1 = ia / 128 then
          (e.1, (e.2 &&& ~~~(spread (byteMask (ia % 128) bs.length))) ||| BitVec.ofNat 1024 (leNat bs * 256 ^ (ia % 128)))
        else e }
/-- Lines that fit into the ungated banks of a core's L1 region, 256 in each bank (R15, R143, R159). -/
def Core.l1Lines (c : Core) : Nat :=
  256 * ((List.range 96).filter fun x => c.splitR + c.splitS ≤ x && !c.gated.contains x && !c.waking.contains x).length
/-- Fill a line of a core's L1, replacing another where it is full (R324). -/
def State.l1Fill (s : State) (core ia : Nat) (d : Line) : State :=
  let others := (s.core core).l1.filter fun e => e.1 != ia / 128
  if others.length < (s.core core).l1Lines then s.modCore core fun c => { c with l1 := SMap.ins (ia / 128) d others }
  else
    let (k, s) := s.freeNat others.length
    s.modCore core fun c => { c with l1 := SMap.ins (ia / 128) d (others.eraseIdx k) }
/-- A lookup: the line may have been replaced (R324). -/
def State.l1Look (s : State) (core ia : Nat) : Option Line × State :=
  match (s.core core).l1.find? (fun e => e.1 == ia / 128) with
  | none => (none, s)
  | some e =>
    let (gone, s) := s.freeBit
    if gone then (none, s.l1Drop core ia) else (some e.2, s)

end Sys2Proof.Machine
end

