-- ==== Sys2Proof/Machine/Translate.lean ====
section
/-! DEFINITION. Range descriptors and page tables: R56–R67, R310 and the spill region of R412. -/

namespace Sys2Proof.Machine

open Sys2Proof

/-! ### Range descriptors (R61–R63) -/

def rdV (d : BitVec 256) : Bool := d.getLsbD 192
def rdVabase (d : BitVec 256) : Nat := fld d 63 0
def rdSize (d : BitVec 256) : Nat := fld d 111 64
def rdIabase (d : BitVec 256) : Nat := fld d 191 128
def rdRD (d : BitVec 256) : Bool := d.getLsbD 200
def rdW (d : BitVec 256) : Bool := d.getLsbD 201
def rdA (d : BitVec 256) : Bool := d.getLsbD 202
def rdX (d : BitVec 256) : Bool := d.getLsbD 203
def rdU (d : BitVec 256) : Bool := d.getLsbD 204

/-- Malformed descriptors of world `w` (R61). -/
def rdMalformed (w : Nat) (d : BitVec 256) : Bool :=
  let va := rdVabase d
  let ia := rdIabase d
  let size := rdSize d * 65536
  fld d 255 208 ≠ 0 || fld d 207 205 ≠ 0 || fld d 199 193 ≠ 0 || fld d 127 112 ≠ 0 ||
    rdSize d == 0 || va % 65536 ≠ 0 || !canonical (BitVec.ofNat 64 va) || ia % 65536 ≠ 0 || 2 ^ 52 ≤ ia ||
    iaRegion ia ≠ iaRegion (ia + size - 1) || 2 ^ 52 < ia + size ||
    (iaRegion ia ≠ 12 && iaRegion ia ≠ w) ||
    (iaRegion ia == 12 && 12 * 2 ^ 48 + 15 * 2 ^ 44 < ia + size)

/-- What an access needs of its descriptor and record (R63). -/
inductive Need where
  | load | store | atomic (ret : Bool) | fetch
deriving DecidableEq, Repr, Inhabited

/-- Permits of R63. -/
def rdPermits (d : BitVec 256) : Need → Bool
  | .load => rdRD d
  | .store => rdW d
  | .atomic ret => rdA d && (!ret || rdRD d)
  | .fetch => rdX d

/-- The range registers of an ASID on a core. -/
def State.rangeRegs (s : State) (core asid : Nat) : List (BitVec 256) :=
  match (s.core core).ranges.find? (fun e => e.1 == asid) with
  | some e => e.2
  | none => []

/-- RangeMap of R63 for one access: the trap code, or the IA. -/
def rangeMap (regs : List (BitVec 256)) (world : Nat) (smode : Bool) (need : Need) (va : DWord) : Except Nat Nat :=
  let miss := if need = .fetch then 0x11 else 0x12
  if !canonical va then .error miss
  else
    match regs.find? (fun d => rdV d && rdVabase d ≤ va.toNat && va.toNat < rdVabase d + rdSize d * 65536) with
    | none => .error miss
    | some d =>
      if rdMalformed world d then .error 0x12
      else if !smode && !rdU d then .error 0x11
      else if !rdPermits d need then .error 0x11
      else .ok (rdIabase d + (va.toNat - rdVabase d))

/-! ### Page tables (R64–R67) -/

/-- A deferred fault: TRANS or DATA, and its subcause (R66). -/
abbrev WalkFault := Nat × Nat
def fTrans (sub : Nat) : WalkFault := (0x10, sub)
def fData (sub : Nat) : WalkFault := (0x14, sub)

/-- How a translation ends. -/
inductive Trans where
  | pa (p : Nat)
  | fault (f : WalkFault)
deriving DecidableEq, Repr, Inhabited

/-- Index of a level's entry: L0 IA[47:39], L1 IA[38:30], L2 IA[29:21], L3 IA[20:16] (R64). -/
def walkIndex (level ia : Nat) : Nat :=
  match level with
  | 0 => ia / 2 ^ 39 % 512
  | 1 => ia / 2 ^ 30 % 512
  | 2 => ia / 2 ^ 21 % 512
  | _ => ia / 2 ^ 16 % 32

/-- Page size of a leaf at a level. -/
def pageSize (level : Nat) : Nat :=
  match level with
  | 1 => 2 ^ 30
  | 2 => 2 ^ 21
  | _ => 2 ^ 16

/-- A PA that core accesses reach, or the subcause it gives (R66). -/
def paFault (g : List (Nat × Nat)) (pa n : Nat) : Option Nat :=
  if !inGrant g pa n then some 3
  else match paKind pa with
    | .foothill => some 4
    | .none => some 5
    | _ => none

/-- A page table that cannot be read: outside the grant, at a PA that no direct-window IA names, or in memory that
core accesses do not reach (R60, R66, R68, notes/assumptions/67.md). -/
def tableFault (g : List (Nat × Nat)) (pa n : Nat) : Option Nat :=
  if 2 ^ 44 < pa + n then some 3 else paFault g pa n

/-- The root table of an IA region (R64). -/
def State.root (s : State) (region : Nat) : Option Nat :=
  if region = 12 then s.sharedRoot
  else if region < 12 && wrV (s.world region).record then some (wrRoot (s.world region).record) else none

/-- The request of a translator for a table entry, for an access of a world. No rule states its policy, and it allocates nothing
(notes/assumptions/68.md). -/
def entryReq (world region pa : Nat) : L2Req := { world, ia := directIA region pa, pa, policy := 1, engine := true }

/-- Read a table entry through L2 at its direct-window IA; the entry of a partial walk may still be cached
by the translator of slice `home` (R66, R67). -/
def State.readEntry (s : State) (world home region pa : Nat) : Except (L2Stop × State) (DWord × State) :=
  let ia := directIA region pa
  let mine (e : Nat × Nat × Nat × DWord) : Bool := e.1 == home && e.2.1 == region && e.2.2.1 == ia
  let fetch (s : State) : Except (L2Stop × State) (DWord × State) :=
    (s.l2Read (entryReq world region pa) 8).map fun r => (BitVec.ofNat 64 (leNat r.1), r.2)
  match s.walks.find? mine with
  | some e =>
    let (gone, s) := s.freeBit
    if gone then fetch { s with walks := s.walks.filter fun x => !mine x } else .ok (e.2.2.2, s)
  | none => fetch s

/-- OR bits into the low byte of a table entry at its home slice (R66). -/
def State.orEntry (s : State) (world region ent : Nat) (bits : Byte) : Except (L2Stop × State) State :=
  let r := entryReq world region (ent % 2 ^ 44)
  let s := (s.recall world (ent / 128)).l2Lookup r
  (s.l2Atomic r 1 false fun bs => some [bs.getD 0 0 ||| bits]).map Prod.snd

/-- What a translator meets where L2 does not serve a table entry: peer memory that no port of the world leads to
(R66, R427), or an uncorrectable error. -/
def L2Stop.walkFault : L2Stop → WalkFault
  | .noPort => fTrans 3
  | _ => fData 6

/-- One level of a walk of the translator of slice `home` for an access of a world, and those below it: `left` levels remain.
The translation that it caches stands behind those of pinned granules, which stay (R71). -/
def State.walkFrom (s : State) (world home region ia : Nat) (store : Bool) (table : Nat) : Nat → State × Trans
  | 0 => (s, .fault (fTrans 0))
  | left + 1 =>
    let level := 3 - left
    let entPa := table + 8 * walkIndex level ia
    match tableFault (s.grant region) entPa 8 with
    | some sub => (s, .fault (fTrans sub))
    | none =>
      match s.readEntry world home region entPa with
      | .error (e, s) => (s, .fault e.walkFault)
      | .ok (e, s) =>
        let leaf := e.getLsbD 1
        if !e.getLsbD 0 then (s, .fault (fTrans 0))
        else if fld e 63 50 ≠ 0 || (leaf && (level == 0 || fld e 15 4 ≠ 0)) ||
            (!leaf && (level == 3 || fld e 7 2 ≠ 0 || (level < 2 && fld e 11 8 ≠ 0))) then (s, .fault (fTrans 1))
        else if leaf then
          let frame := fld e 49 16 * 65536
          let size := pageSize level
          if frame % size ≠ 0 then (s, .fault (fTrans 2))
          else
            match paFault (s.grant region) frame size with
            | some sub => (s, .fault (fTrans sub))
            | none =>
              match s.orEntry world region (directIA region entPa) (if store then 0x0C else 0x04) with
              | .error (e, s) => (s, .fault e.walkFault)
              | .ok s =>
                let new : TlbEntry :=
                  { home, world := region, base := ia / size * size, size, frame, ent := directIA region entPa, dirty := store || e.getLsbD 3 }
                ({ s with tlb := (s.tlb.filter fun t => !(t.home == home && t.world == region && t.base == new.base && t.size == size)) ++ [new] },
                  .pa (frame + ia % size))
        else
          let next := fld e 49 8 * 256
          match tableFault (s.grant region) next (if level = 2 then 256 else 4096) with
          | some sub => (s, .fault (fTrans sub))
          | none =>
            let ent := directIA region entPa
            State.walkFrom
              { s with walks := (home, region, ent, e) :: s.walks.filter fun x => !(x.1 == home && x.2.1 == region && x.2.2.1 == ent) }
              world home region ia store next left

/-- The pin count of a granule (R71). -/
def State.pinCount (s : State) (g : Nat) : Nat := SMap.get 0 s.pins g

/-- Change the pin count of a granule. -/
def State.setPin (s : State) (g n : Nat) : State := { s with pins := SMap.put 0 s.pins g n }

/-- The pin tables take one more pin on each of some granules: a translator's table has an entry for each granule that it
homes and that is pinned (R71). -/
def State.pinRoom (s : State) (gs : List Nat) : Bool :=
  let home (g : Nat) : Nat := granuleHome (g * 65536)
  let fresh := gs.dedup.filter fun g => s.pinCount g = 0
  fresh.all fun g => (s.pins.filter fun e => e.2 ≠ 0 && home e.1 == home g).length + (fresh.filter fun x => home x == home g).length ≤ Config.pinEntries + 1

/-- What stays cached of a translation that its translator discards: the pinned granules that it homes (R71). -/
def State.pinnedPart (s : State) (t : TlbEntry) : List TlbEntry :=
  (s.pins.filter fun e => e.2 ≠ 0 && t.base / 65536 ≤ e.1 && e.1 < (t.base + t.size) / 65536 && granuleHome (e.1 * 65536) == t.home).map
    fun e => { t with base := e.1 * 65536, size := 65536, frame := t.frame + (e.1 * 65536 - t.base) }

/-- Discard a cached translation. -/
def State.tlbDrop (s : State) (t : TlbEntry) : State :=
  { s with tlb := s.tlb.flatMap fun x => if x = t then s.pinnedPart x else [x] }

/-- Translate an IA for an access of a world at its home translator (R58, R64–R67, R93): a direct window needs no walk; a cached
translation is used while it stands, and certainly while its granule is pinned (R71), inside the grant in force (R60). -/
def State.translate (s : State) (world ia : Nat) (store : Bool) : State × Trans :=
  let region := iaRegion ia
  let home := granuleHome ia
  let walk (s : State) : State × Trans :=
    match s.root region with
    | none => (s, .fault (fTrans 0))
    | some r => s.walkFrom world home region ia store r 4
  if 12 < region then (s, .fault (fTrans 0))
  else if iaDirect ia then
    match paFault (s.grant region) (ia % 2 ^ 44) 1 with
    | some sub => (s, .fault (fTrans sub))
    | none => (s, .pa (ia % 2 ^ 44))
  else
    match s.tlb.find? fun t => t.home == home && t.world == region && t.base ≤ ia && ia < t.base + t.size with
    | some t =>
      let (gone, s) := if s.pinCount (ia / 65536) ≠ 0 then (false, s) else s.freeBit
      if gone then walk (s.tlbDrop t)
      else if let some sub := paFault (s.grant region) (t.frame + (ia - t.base)) 1 then (s, .fault (fTrans sub))
      else if store && !t.dirty then
        match s.orEntry world region t.ent 0x08 with
        | .error (e, s) => (s, .fault e.walkFault)
        | .ok s => ({ s with tlb := s.tlb.map fun x => if x = t then { x with dirty := true } else x }, .pa (t.frame + (ia - t.base)))
      else (s, .pa (t.frame + (ia - t.base)))
    | none => walk s

/-- The PA of an access: the one that its line in L2 records, or, on a miss, the one that its translator gives
(R93, R94, R98). -/
def State.paFor (s : State) (world ia : Nat) (store : Bool) : State × Trans :=
  match s.l2line (ia / 128) with
  | some l => (s, .pa (l.pa + ia % 128))
  | none => s.translate world ia store

/-! ### What an access may reach (R63, R310, R412) -/

/-- The spill region of a world, which its code reaches at none of its addresses: in the direct window, or through a page
whose translation, as its table now stands, leads there (R412). -/
def State.inSpill (s : State) (w ia : Nat) : Bool :=
  let r := (s.world w).record
  let spills (pa : Nat) : Bool := wrSpillpa r ≤ pa && pa < wrSpillpa r + wrSpillsize r
  iaRegion ia == w && wrSpillsize r ≠ 0 &&
    (if iaDirect ia then spills (ia % 2 ^ 44)
     else match (s.paFor w ia false).2 with
       | .pa pa => spills pa
       | .fault _ => false)

/-- The shading heap (R294, R310). -/
def State.inHeap (s : State) (ia : Nat) : Bool :=
  s.shade.heapia ≤ ia && ia < s.shade.heapia + s.shade.hslots * 2048

/-- R63 with R310 and R412, through given range registers: trap code or IA. -/
def State.mapThrough (s : State) (regs : List (BitVec 256)) (world : Nat) (smode shade : Bool) (need : Need) (va : DWord) : Except Nat Nat :=
  match rangeMap regs world smode need va with
  | .error e => .error e
  | .ok ia =>
    if s.inSpill world ia then .error 0x11
    else if iaRegion ia = 12 then
      match need with
      | .atomic _ => .error 0x11
      | .store => if s.inHeap ia && shade then .ok ia else .error 0x11
      | _ => .ok ia
    else .ok ia

/-- R63 for a wave of a space on a core. -/
def State.mapAccess (s : State) (core asid world : Nat) (smode shade : Bool) (need : Need) (va : DWord) : Except Nat Nat :=
  s.mapThrough (s.rangeRegs core asid) world smode shade need va

/-- R63 of the issuing wave. -/
def Ctx.map (c : Ctx) (s : State) (need : Need) (va : DWord) : Except Nat Nat :=
  s.mapAccess c.blk.core c.asid c.world c.smode c.shade need va

/-- An uncorrectable error is entered in the last-events record when it is delivered (R22). -/
def State.noteData (s : State) (f : WalkFault) (world ia : Nat) : State := if f.1 = 0x14 then s.log 5 (some 0x14) none world ia else s

/-! ### Synchronous reads and writes through R63 and translation -/

/-- Why a synchronous access does not complete: a trap, a fault, or it waits for a way or a link. -/
inductive SyncStop where
  | trap (code : Nat)
  | fault (f : WalkFault)
  | park
deriving DecidableEq, Repr, Inhabited

/-- A wave's access parks on a waking way of its slice, and is counted once (R111, R113). -/
def State.parkWait (s : State) (a : Who) (ia : Nat) : State :=
  let me := (homeSlice ia, a.b, a.w, a.op, a.lane)
  if s.wakeWait.contains me then s else { s.l2count a.world ia (homeSlice ia) 8 with wakeWait := s.wakeWait ++ [me] }

/-- What a stop of L2 at an IA is to a synchronous access of a wave, or of an engine. -/
def L2Stop.sync (who : Option Who) (ia : Nat) : L2Stop × State → SyncStop × State
  | (.bad, s) => (.fault (fData 7), s)
  | (.noPort, s) => (.fault (fTrans 3), s)
  | (.park, s) => (.park, who.elim s fun a => s.parkWait a ia)
  | (.train, s) => (.park, s)

/-- The request of a synchronous access: a core's, or an engine's, which allocates nothing (notes/assumptions/68.md). -/
def syncReq (who : Option Who) (world ia pa : Nat) : L2Req :=
  { core := who.map Who.core, world, ia, pa, engine := who.isNone, policy := if who.isNone then 1 else 0 }

/-- Read `n` bytes at an IA through translation and L2, one line at a time, for a wave's fetch or record read or for an
engine (`none`). What a walk has set stands, however the read ends (R66). A line that a copy unit owns is read as it stands:
R105 makes a thread's loads, stores, atomics and reductions wait, and names neither a record read nor an access of the
command processor or a ring (DESIGN CHOICE, notes/assumptions/67.md). -/
def State.readIA (s : State) (who : Option Who) (world ia : Nat) : Nat → Nat → Except (SyncStop × State) (List Byte × State)
  | 0, _ => .ok ([], s)
  | _, 0 => .ok ([], s)
  | fuel + 1, n =>
    let k := min n (128 - ia % 128)
    match s.paFor world ia false with
    | (s, .fault f) => .error (.fault f, s)
    | (s, .pa pa) =>
      match s.l2Read (syncReq who world ia pa) k with
      | .error e => .error (L2Stop.sync who ia e)
      | .ok (bs, s) =>
        match State.readIA s who world (ia + k) fuel (n - k) with
        | .error e => .error e
        | .ok (cs, s) => .ok (bs ++ cs, s)

/-- Write bytes at an IA through translation and L2, one line at a time, for an engine. -/
def State.writeIA (s : State) (world ia : Nat) : Nat → List Byte → Except (SyncStop × State) State
  | 0, _ => .ok s
  | _, [] => .ok s
  | fuel + 1, bs =>
    let k := min bs.length (128 - ia % 128)
    match s.paFor world ia true with
    | (s, .fault f) => .error (.fault f, s)
    | (s, .pa pa) =>
      match s.l2Write (syncReq none world ia pa) (bs.take k) with
      | .error e => .error (L2Stop.sync none ia e)
      | .ok s => State.writeIA s world (ia + k) fuel (bs.drop k)

/-- The issuing path's fetch (lane 33) or record read (lane 32), as an access of its wave. -/
def Ctx.own (c : Ctx) (lane : Nat) : Who := { b := c.b, w := c.w, op := c.p, lane, core := c.blk.core, world := c.world }

/-- Read the bytes [va, va + n) as the issuing wave's loads would, through R63. -/
def Ctx.readVA (c : Ctx) (s : State) (va : DWord) (n : Nat) : Except (SyncStop × State) (List Byte × State) :=
  match c.map s .load va with
  | .error code => .error (.trap code, s)
  | .ok ia => s.readIA (some (c.own 32)) c.world ia (n + 1) n

/-- Read the 16 descriptors of a space (R61, R62): one that cannot be read has V = 0 and is logged. -/
def State.readRanges (s : State) (unit : Option Nat) (asid : Nat) : List (BitVec 256) × State :=
  let world := asid / 4096
  let base := wrWspace (s.world world).record + asid % 4096 * 512
  (List.range 16).foldl (fun (p : List (BitVec 256) × State) i =>
    match p.2.readIA none world (base + 32 * i) 3 32 with
    | .ok (bs, s) => (p.1 ++ [BitVec.ofNat 256 (leNat bs)], s)
    | .error (.fault f, s) => (p.1 ++ [0], s.logFault f unit world (base + 32 * i))
    | .error (_, s) => (p.1 ++ [0], s)) ([], s)

/-- Load the range registers of an ASID on a core (R62). -/
def State.loadRanges (s : State) (core asid : Nat) : State :=
  let (ds, s) := s.readRanges (some core) asid
  s.modCore core fun c => { c with ranges := (asid, ds) :: c.ranges.filter fun e => e.1 != asid }

end Sys2Proof.Machine
end

