-- ==== Sys2Proof/Machine/Heap.lean ====
section
/-! DEFINITION. What the engines read and write by IA, the stage queues (R372), and the tag store, the slots and
the tokens of the shading cache (R293–R309). -/

namespace Sys2Proof.Machine

open Sys2Proof

/-! ### Accesses of the engines -/

/-- Read bytes at an IA for an engine: the fault where it cannot be done. -/
def State.engRead (s : State) (world ia n : Nat) : Except WalkFault (List Byte) × State :=
  match s.readIA none world ia (n + 1) n with
  | .ok (bs, s) => (.ok bs, s)
  | .error (.fault f, s) => (.error f, s)
  | .error (_, s) => (.error (fTrans 0), s)

/-- Write bytes at an IA for an engine: the fault where it cannot be done. -/
def State.engWrite (s : State) (world ia : Nat) (bs : List Byte) : Option WalkFault × State :=
  match s.writeIA world ia (bs.length + 1) bs with
  | .ok s => (none, s)
  | .error (.fault f, s) => (some f, s)
  | .error (_, s) => (some (fTrans 0), s)

/-! ### Accesses of the command processor (R363, R367) -/

/-- Map a VA of a space for the CP, as an S-mode wave of the space would: a trap code counts as a fault. -/
def State.cpMap (s : State) (asid : Nat) (needs : List Need) (va : Nat) : Except WalkFault Nat × State :=
  let (regs, s) := s.readRanges none asid
  let go (n : Need) : Except Nat Nat := s.mapThrough regs (asid / 4096) true false n (BitVec.ofNat 64 va)
  match needs.findSome? (fun n => match go n with | .error e => some e | .ok _ => none) with
  | some e => (.error (e, 0), s)
  | none => (match go (needs.headD .load) with | .ok ia => .ok ia | .error e => .error (e, 0), s)

/-- Read `n` bytes at a VA for the CP, at most 64 KiB. -/
def State.cpRead (s : State) (asid : Nat) (needs : List Need) (va n : Nat) : Except WalkFault (List Byte) × State :=
  let k := min n (65536 - va % 65536)
  let part (s : State) (va k : Nat) : Except WalkFault (List Byte) × State :=
    match s.cpMap asid needs va with
    | (.error f, s) => (.error f, s)
    | (.ok ia, s) => s.engRead (asid / 4096) ia k
  match part s va k with
  | (.error f, s) => (.error f, s)
  | (.ok a, s) =>
    if k = n then (.ok a, s)
    else
      match part s (va + k) (n - k) with
      | (.error f, s) => (.error f, s)
      | (.ok b, s) => (.ok (a ++ b), s)

/-- Write bytes at a VA for the CP, visible at system scope afterwards. -/
def State.cpWrite (s : State) (asid : Nat) (needs : List Need) (va : Nat) (bs : List Byte) : Option WalkFault × State :=
  let k := min bs.length (65536 - va % 65536)
  let part (s : State) (va : Nat) (bs : List Byte) : Option WalkFault × State :=
    match s.cpMap asid needs va with
    | (.error f, s) => (some f, s)
    | (.ok ia, s) =>
      match (s.systemLines (asid / 4096) false).engWrite (asid / 4096) ia bs with
      | (some f, s) => (some f, s)
      | (none, s) => (none, s.systemLines (asid / 4096) false)
  match part s va (bs.take k) with
  | (some f, s) => (some f, s)
  | (none, s) => if bs.drop k = [] then (none, s) else part s (va + k) (bs.drop k)

/-- Change the error record of launch `l` (R367). One that cannot be reached is logged (R363). -/
def State.errRecord (s : State) (l : Nat) (f : BitVec 256 → BitVec 256) : State :=
  let x := s.launches.getD l default
  let asid := recAsid x.record
  let va := recErrva x.record
  let fail (e : WalkFault) (s : State) : State := s.logFault e none x.world (x.va.toNat + va * 2 ^ 64)
  match s.cpRead asid [.load, .store] va 32 with
  | (.error e, s) => fail e s
  | (.ok bs, s) =>
    match s.cpWrite asid [.load, .store] va (natBytes 32 (f (BitVec.ofNat 256 (leNat bs))).toNat) with
    | (some e, s) => fail e s
    | (none, s) => s

/-- One more error completion of launch `l` (R169, R367 NERR). -/
def State.errorCompletion (s : State) (l : Nat) : State :=
  (s.modLaunch l fun x => { x with nerr := x.nerr + 1 }).errRecord l fun r => setFld r 127 96 (min (fld r 127 96 + 1) (2 ^ 32 - 1))

/-! ### Stage queues (R372) -/

/-- A stage-queue header. -/
structure StageQ where
  base : Nat
  cap : Nat
  head : Nat
  tail : Nat
  closed : Bool
  ok : Bool
deriving DecidableEq, Repr, Inhabited

/-- TAIL − HEAD. -/
def StageQ.used (q : StageQ) : Nat := (q.tail + 2 ^ 32 - q.head) % 2 ^ 32

/-- The header in a world's queue, and whether it is well formed. -/
def stageQ (world : Nat) (bs : List Byte) : StageQ :=
  let r := BitVec.ofNat 512 (leNat bs)
  let q : StageQ := { base := fld r 63 0, cap := fld r 95 64, head := fld r 127 96, tail := fld r 159 128, closed := r.getLsbD 160, ok := true }
  { q with ok := fld r 511 161 == 0 && 1 ≤ q.cap && q.cap ≤ 65536 && q.cap == 2 ^ Nat.log2 q.cap && q.base % 4096 == 0 &&
             q.base < 2 ^ 52 && iaRegion q.base == world && iaRegion (q.base + 32 * q.cap - 1) == world && q.used ≤ q.cap }

/-- Read the header at an IA. -/
def State.stageRead (s : State) (world sqia : Nat) : Except WalkFault StageQ × State :=
  match s.engRead world sqia 64 with
  | (.ok bs, s) => (.ok (stageQ world bs), s)
  | (.error f, s) => (.error f, s)

/-- Enqueue a job (R372): enqueued, refused because the queue is closed or full, or a fault. A malformed header
takes no job. -/
def State.enqueueJob (s : State) (world sqia : Nat) (job : List Byte) : Except WalkFault Bool × State :=
  match s.stageRead world sqia with
  | (.error f, s) => (.error f, s)
  | (.ok q, s) =>
    if !q.ok || q.closed || q.used = q.cap then (.ok false, s)
    else
      match s.engWrite world (q.base + q.tail % q.cap * 32) job with
      | (some f, s) => (.error f, s)
      | (none, s) =>
        match s.engWrite world (sqia + 16) (natBytes 4 (q.tail + 1)) with
        | (some f, s) => (.error f, s)
        | (none, s) => (.ok true, s)

/-! ### Objects (R295, R296) -/

def obKernel (r : BitVec 256) : Nat := fld r 191 128
def obSqia (r : BitVec 256) : Nat := fld r 127 64
def obTfmt (r : BitVec 256) : Nat := fld r 36 36
def obShare (r : BitVec 256) : Nat := fld r 31 24
def obOwner (r : BitVec 256) : Nat := fld r 19 16
def obEpoch (r : BitVec 256) : Nat := fld r 15 0
/-- V = 1, and nothing makes it count as 0. -/
def obValid (r : BitVec 256) : Bool :=
  r.getLsbD 37 && fld r 255 192 == 0 && fld r 63 38 == 0 && fld r 35 32 == 0 && fld r 23 20 == 0 && obOwner r ≤ 11

/-- Read object `h`: `none` where it counts as V = 0. A record that cannot be read is logged. -/
def State.object (s : State) (world h : Nat) : Option (BitVec 256) × State :=
  if s.shade.objcount ≤ h then (none, s)
  else
    match s.engRead world (s.shade.otia + 32 * h) 32 with
    | (.ok bs, s) =>
      let r := BitVec.ofNat 256 (leNat bs)
      (if obValid r then some r else none, s)
    | (.error f, s) => (none, s.logFault f none world (s.shade.otia + 32 * h))

/-- R296. -/
def State.mayRead (s : State) (w : Nat) (o : BitVec 256) : Bool :=
  w == obOwner o || (obShare o ≠ 0 && (wrShareset (s.world w).record).testBit (obShare o))

/-! ### The tag store (R297–R300) -/

def State.modShade (s : State) (f : Shading → Shading) : State := { s with shade := f s.shade }
/-- The set of a key. -/
def tagSet (k : Nat) : Nat := (k % 2 ^ 21) ^^^ (k / 2 ^ 21 % 2 ^ 21) ^^^ (k / 2 ^ 42 % 2 ^ 14)
def Shading.tag (h : Shading) (i : Nat) : Option Tag := SMap.get none h.tags i
def Shading.setTag (h : Shading) (i : Nat) (t : Option Tag) : Shading := { h with tags := SMap.put none h.tags i t }
/-- The entry of a key in a state: its index and contents. -/
def Shading.find (h : Shading) (k : Nat) (st : TagSt) : Option (Nat × Tag) :=
  (List.range 4).findSome? fun w =>
    match h.tag (tagSet k * 4 + w) with
    | some t => if t.key = k ∧ t.st = st then some (tagSet k * 4 + w, t) else none
    | none => none
def Shading.gen (h : Shading) (slot : Nat) : Nat := SMap.get 0 h.gens slot
/-- The token of an INFLIGHT entry (R299). -/
def Shading.token (h : Shading) (t : Tag) : Nat := h.gen t.slot * 2 ^ 23 + t.slot
/-- The INFLIGHT entry of a live token. -/
def Shading.live (h : Shading) (tok : Nat) : Option (Nat × Tag) :=
  if 2 ^ 31 ≤ tok then none
  else
    match h.tags.find? fun e => match e.2 with
      | some t => t.st == .inflight && t.slot == tok % 2 ^ 23 && h.gen t.slot == tok / 2 ^ 23
      | none => false with
    | some (i, some t) => some (i, t)
    | _ => none
/-- A slot leaves use: it enters quarantine (R302, R308). -/
def Shading.quarantine (h : Shading) (slot : Nat) : Shading := { h with quar := (slot, h.frame) :: h.quar }
/-- A slot leaves INFLIGHT use: its generation goes up (R299). -/
def Shading.bumpGen (h : Shading) (slot : Nat) : Shading := { h with gens := SMap.put 0 h.gens slot ((h.gen slot + 1) % 256) }
/-- An entry becomes INVALID, its slot entering quarantine where it holds one. -/
def Shading.evict (h : Shading) (i : Nat) : Shading :=
  match h.tag i with
  | some t => if t.st = .valid then (h.setTag i none).quarantine t.slot else h.setTag i none
  | none => h
/-- Slots in use by an entry. -/
def Shading.used (h : Shading) : List Nat :=
  h.tags.filterMap fun e => match e.2 with | some t => if t.st = .aborted then none else some t.slot | none => none
def Shading.freeCount (h : Shading) : Nat := h.hslots - h.used.length - h.quar.length
/-- Slot() of R302: the lowest free slot. -/
def Shading.freeSlot (h : Shading) : Option Nat :=
  let busy := h.used ++ h.quar.map Prod.fst
  (List.range (min h.hslots (busy.length + 1))).find? fun x => !busy.contains x
/-- The unpinned VALID entries of a list of indices with the greatest AGE. -/
def Shading.oldest (h : Shading) (is : List Nat) : List Nat :=
  let c := is.filterMap fun i => match h.tag i with | some t => if t.st = .valid ∧ t.pin = 0 then some (i, t.age) else none | none => none
  let m := (c.map Prod.snd).foldl max 0
  (c.filter fun e => e.2 == m).map Prod.fst
/-- Way(k) of R302. -/
def Shading.way (h : Shading) (k : Nat) : Option Nat :=
  let ways := (List.range 4).map (tagSet k * 4 + ·)
  match ways.find? fun i => (h.tag i).isNone with
  | some i => some i
  | none =>
    match ways.find? fun i => match h.tag i with | some t => t.st == .aborted | none => false with
    | some i => some i
    | none => (h.oldest (ways.filter fun i => match h.tag i with | some t => t.key ≠ k | none => false)).head?
/-- One eviction of the sweep (R302): the next entry at or after the hand, wrapping. -/
def Shading.sweepOne (h : Shading) : Shading :=
  let c := h.oldest (h.tags.map Prod.fst)
  match (c.find? fun i => h.hand ≤ i) <|> c.head? with
  | some i => { h.evict i with hand := (i + 1) % 8388608 }
  | none => h
/-- Background eviction after an allocation (R302). -/
def Shading.background (h : Shading) : Shading :=
  let h := if h.freeCount < h.hslots / 64 then { h with sweep := true } else h
  if !h.sweep then h
  else if h.hslots / 32 ≤ h.freeCount + h.quar.length then { h with sweep := false }
  else h.sweepOne

/-- Count event `n` of R321 at a tag bank: queries by status 0–7, 8 publishes, 9 aborts, 10 refusals. -/
def State.tagCount (s : State) (world bank n : Nat) : State :=
  s.modWorld world fun w =>
    { w with tagcnt := SMap.put 0 w.tagcnt (bank % 128 * 16 + n) ((SMap.get 0 w.tagcnt (bank % 128 * 16 + n) + 1) % 2 ^ 64) }

/-- A notice to every core (R305, R306). -/
def State.notify (s : State) (published : Bool) (tok : Nat) : State :=
  (List.range 256).foldl (fun s c => s.modCore c fun k => { k with notices := k.notices ++ [(published, tok)] }) s

/-- R305: publish a live token. -/
def State.publish (s : State) (world tok : Nat) : State :=
  match s.shade.live tok with
  | none => s
  | some (i, f) =>
    let h := s.shade
    let v := h.find f.key .valid
    let pin := match v with | some (_, t) => min t.pin 3 | none => 0
    let h := h.setTag i (some { f with st := .valid, age := 0, pin })
    let h := match v with | some (j, _) => h.evict j | none => h
    let h := match h.find f.key .aborted with | some (j, _) => h.setTag j none | none => h
    (({ s with shade := h.bumpGen f.slot }).notify true tok).tagCount world (i / 4) 8

/-- R306: abort a live token. -/
def State.abortToken (s : State) (world tok : Nat) : State :=
  match s.shade.live tok with
  | none => s
  | some (i, f) =>
    let h := (s.shade.setTag i (some { f with st := .aborted })).quarantine f.slot
    (({ s with shade := h.bumpGen f.slot }).notify false tok).tagCount world (i / 4) 9

/-- HeapVA of R294. -/
def State.heapVA (s : State) (w slot : Nat) : Nat := wrHeapva (s.world w).record + slot * 2048

/-- The answer of a query: status, token, VA, FMT (R301, R315). -/
structure QueryRes where
  status : Nat
  token : Nat := 0xFFFFFFFF
  va : Nat := 0
  fmt : Nat := 0
deriving DecidableEq, Repr, Inhabited

/-- The tile job of R303. -/
def tileJob (kernel dst req epoch token key : Nat) : List Byte :=
  natBytes 32 (key + token * 2 ^ 64 + epoch * 2 ^ 96 + req * 2 ^ 112 + dst % 2 ^ 64 * 2 ^ 128 + kernel * 2 ^ 192)

/-- Room in a stage queue; a header that cannot be read is found out by the enqueue. -/
def State.stageRoom (s : State) (o : BitVec 256) : Bool × State :=
  match s.stageRead (obOwner o) (obSqia o) with
  | (.ok q, s) => (q.ok && !q.closed && q.used ≠ q.cap, s)
  | (.error _, s) => (true, s)

/-- One lane's query (R301). The background eviction that its allocation owes follows its answer: an entry it takes becomes
INVALID and stays so, the key's own stale entry with the rest (R302). -/
def State.query (s : State) (w k : Nat) : QueryRes × State :=
  let count (r : QueryRes) (s : State) : QueryRes × State := (r, s.tagCount w (tagSet k) r.status)
  match s.object w (k % 2 ^ 24) with
  | (none, s) => count { status := 7 } s
  | (some o, s) =>
    if !s.mayRead w o || wrHeapva (s.world w).record = 0 then count { status := 4 } s
    else
      let v := s.shade.find k .valid
      let touch (s : State) : State := match v with
        | some (i, t) => s.modShade fun h => h.setTag i (some { t with age := 0 })
        | none => s
      let stale (tok : Nat) (s : State) : Option (QueryRes × State) := v.map fun e =>
        count { status := 3, token := tok, va := s.heapVA w e.2.slot, fmt := e.2.fmt } (touch s)
      let current := match v with | some (_, t) => t.epoch == obEpoch o | none => false
      if current then
        match v with
        | some (_, t) => count { status := 0, va := s.heapVA w t.slot, fmt := t.fmt } (touch s)
        | none => count { status := 7 } s
      else
        match s.shade.find k .inflight with
        | some (_, f) => (stale (s.shade.token f) s).getD (count { status := 1, token := s.shade.token f } s)
        | none =>
          match s.shade.find k .aborted with
          | some _ => (stale 0xFFFFFFFF s).getD (count { status := 6 } s)
          | none =>
            match s.shade.way k, s.shade.freeSlot, s.stageRoom o with
            | some i, some slot, (true, s) =>
              let f : Tag := { key := k, st := .inflight, age := s.shade.gen slot, epoch := obEpoch o, share := obShare o, slot, fmt := obTfmt o }
              let s := s.modShade fun h => (h.evict i).setTag i (some f)
              let tok := s.shade.token f
              let answer := match s.enqueueJob (obOwner o) (obSqia o)
                  (tileJob (obKernel o) (s.heapVA (obOwner o) slot) w (obEpoch o) tok k) with
                | (.ok _, s) => (stale tok s).getD (count { status := 2, token := tok } s)
                | (.error e, s) => count { status := 6 } ((s.abortToken w tok).logFault e none (obOwner o) (obSqia o))
              (answer.1, answer.2.modShade Shading.background)
            | _, _, (_, s) => count { status := 5 } s

/-- The slot check of a heap write (R311). -/
def State.heapWrite (s : State) (world ia : Nat) : Bool × State :=
  let slot := (ia - s.shade.heapia) / 2048
  let refuse (s : State) : Bool × State := (false, s.tagCount world (homeSlice ia) 10)
  match s.shade.tags.findSome? fun e => match e.2 with
    | some t => if t.st = .inflight ∧ t.slot = slot then some t else none
    | none => none with
  | none => refuse s
  | some t =>
    match s.object world (t.key % 2 ^ 24) with
    | (some o, s) => if obOwner o = world then (true, s) else refuse s
    | (none, s) => refuse s

end Sys2Proof.Machine
end

