-- ==== Sys2Proof/Machine/Operands.lean ====
section
/-! DEFINITION. Operand forms: broadcast fields, pairs, immediates, the vector and the uniform
execution (R37–R43, R204–R206), literals (R44, R219). -/

namespace Sys2Proof.Machine

open Sys2Proof

/-- Register `j` of the source run at field `f` in lane `ln`: v-registers, or the broadcast g-registers
g0–g15 for a field 0x70–0x7F (R41). -/
def Ctx.src (c : Ctx) (f : Field) (ln j : Nat) : Word :=
  if f.toNat < 0x70 then c.v ln f.toNat j else c.g (f.toNat - 0x70 + j)

/-- Register `j` of the operand at field `f`: g-registers with G = 1 (R205), else lane `ln`'s source. -/
def Ctx.opnd (c : Ctx) (g : Bool) (f : Field) (ln j : Nat) : Word :=
  if g then c.g (f.toNat + j) else c.src f ln j

/-- The 64-bit operand at an even pair, low word in the even register (R43). -/
def Ctx.opnd64 (c : Ctx) (g : Bool) (f : Field) (ln : Nat) : DWord :=
  c.opnd g f ln 1 ++ c.opnd g f ln 0

/-- A broadcast operand of a 4-bit field: g0–g15. -/
def Ctx.bc (c : Ctx) (r : BitVec 4) : Word := c.g r.toNat
/-- A broadcast pair of a 4-bit field. -/
def Ctx.bc64 (c : Ctx) (r : BitVec 4) : DWord := c.gPair r.toNat

/-- Word `j` of a 64-bit result. -/
def word64 (x : DWord) (j : Nat) : Word := if j = 0 then x.extractLsb' 0 32 else x.extractLsb' 32 32

/-- Write `n` consecutive g-registers, lowest first. -/
def Ctx.writeGs (c : Ctx) (d n : Nat) (val : Nat → Word) (s : State) : State :=
  (List.range n).foldl (fun s j => c.writeG (d + j) (val j) s) s

/-- Write the result registers of R204 or R205: `val ln j` is word `j` of lane `ln`'s result. With G = 1
the one execution is lane 0's. -/
def Ctx.writeD (c : Ctx) (g : Bool) (d : Field) (n : Nat) (val : Nat → Nat → Word) (s : State) : State :=
  if g then c.writeGs d.toNat n (val 0) s else c.writeV d.toNat n val s

/-- The lanes over which an instruction executes: the active ones, or one execution with G = 1. -/
def Ctx.execLanes (c : Ctx) (g : Bool) : List Nat := if g then [0] else (List.range 32).filter c.active

/-- A 10-bit immediate sign-extended, and zero-extended (R39). -/
def sext10 (i : BitVec 10) : Word := i.signExtend 32
def zext10 (i : BitVec 10) : Word := i.setWidth 32
def sext17 (i : BitVec 17) : Word := i.signExtend 32

/-- A 32-bit result in every executed lane. -/
def alu (i : Info) (y g : Bool) (d : Field) (s : State) (f : Ctx → Nat → Word) :
    Host.Outcome State Fault Refusal :=
  issue i y s fun c s => .done (c.writeD g d 1 (fun ln _ => f c ln) s)

/-- A 64-bit result in every executed lane. -/
def alu64 (i : Info) (y g : Bool) (d : Field) (s : State) (f : Ctx → Nat → DWord) :
    Host.Outcome State Fault Refusal :=
  issue i y s fun c s => .done (c.writeD g d 2 (fun ln j => word64 (f c ln) j) s)

/-- Two 32-bit operands, one 32-bit result. -/
def alu2 (i : Info) (y g : Bool) (d a b : Field) (s : State) (f : Word → Word → Word) :
    Host.Outcome State Fault Refusal :=
  alu i y g d s fun c ln => f (c.opnd g a ln 0) (c.opnd g b ln 0)

/-- One 32-bit operand, one 32-bit result. -/
def alu1 (i : Info) (y g : Bool) (d a : Field) (s : State) (f : Word → Word) :
    Host.Outcome State Fault Refusal :=
  alu i y g d s fun c ln => f (c.opnd g a ln 0)

/-- Two 32-bit operands and the old d, one 32-bit result. -/
def alu3 (i : Info) (y g : Bool) (d a b : Field) (s : State) (f : Word → Word → Word → Word) :
    Host.Outcome State Fault Refusal :=
  alu i y g d s fun c ln => f (c.opnd g a ln 0) (c.opnd g b ln 0) (c.opnd g d ln 0)

/-- A comparison: a lane mask into g-register d, or a predicate with G = 1 (R215). -/
def compare (i : Info) (y g : Bool) (d a b : Field) (s : State) (f : Word → Word → Bool) :
    Host.Outcome State Fault Refusal :=
  issue i y s fun c s => .done (
    if g then c.writeQ d.toNat (f (c.g a.toNat) (c.g b.toNat)) s
    else c.writeG d.toNat (maskOf fun ln => c.active ln && f (c.src a ln 0) (c.src b ln 0)) s)

end Sys2Proof.Machine
end

