-- ==== Sys2Proof/Machine/Flags.lean ====
section
/-! DEFINITION. Number formats, rounding and flags: spec/08_number_formats.md R185–R198. Values are
exact: a sign, a natural number and a power of two. -/

namespace Sys2Proof.Machine

open Sys2Proof

/-! ### Formats (R185) -/

inductive Fmt where
  | f64 | f32 | f16 | bf16 | e4m3 | e5m2 | e2m3 | e3m2 | e2m1
deriving DecidableEq, Repr, Inhabited

/-- Exponent bits, mantissa bits and bias. -/
def Fmt.exp : Fmt → Nat
  | .f64 => 11 | .f32 => 8 | .f16 => 5 | .bf16 => 8 | .e4m3 => 4 | .e5m2 => 5 | .e2m3 => 2 | .e3m2 => 3 | .e2m1 => 2
def Fmt.man : Fmt → Nat
  | .f64 => 52 | .f32 => 23 | .f16 => 10 | .bf16 => 7 | .e4m3 => 3 | .e5m2 => 2 | .e2m3 => 3 | .e3m2 => 2 | .e2m1 => 1
def Fmt.bias : Fmt → Nat
  | .f64 => 1023 | .f32 => 127 | .f16 => 15 | .bf16 => 127 | .e4m3 => 7 | .e5m2 => 15 | .e2m3 => 1 | .e3m2 => 3 | .e2m1 => 1
def Fmt.width (f : Fmt) : Nat := 1 + f.exp + f.man
/-- The formats with infinities and NaNs of IEEE form. -/
def Fmt.ieee : Fmt → Bool
  | .f64 | .f32 | .f16 | .bf16 | .e5m2 => true
  | _ => false
/-- The narrow formats of R192. -/
def Fmt.narrow : Fmt → Bool
  | .f64 | .f32 | .f16 | .bf16 => false
  | _ => true
/-- Sign-free pattern of the largest finite value. -/
def Fmt.maxBits (f : Fmt) : Nat :=
  match f with
  | .e4m3 => 0x7E
  | f => if f.ieee then (2 ^ f.exp - 1) * 2 ^ f.man - 1 else 2 ^ (f.exp + f.man) - 1
/-- Sign-free pattern of Inf, in the formats that have one. -/
def Fmt.infBits (f : Fmt) : Nat := (2 ^ f.exp - 1) * 2 ^ f.man
/-- Canonical NaN (R189); 0 in the formats without one (R192). -/
def Fmt.nan (f : Fmt) : Nat :=
  match f with
  | .e4m3 => 0x7F
  | f => if f.ieee then f.infBits + 2 ^ (f.man - 1) else 0
/-- Sign bit of a pattern. -/
def Fmt.sign (f : Fmt) (neg : Bool) : Nat := if neg then 2 ^ (f.exp + f.man) else 0

/-- A floating value: (−1)^neg × m × 2^e, Inf or NaN. -/
inductive FV where
  | nan (signalling : Bool)
  | inf (neg : Bool)
  | fin (neg : Bool) (m : Nat) (e : Int)
deriving DecidableEq, Repr, Inhabited

/-- The value of a pattern (R185, R186, R188). -/
def Fmt.value (f : Fmt) (x : Nat) : FV :=
  let neg := x / 2 ^ (f.exp + f.man) % 2 == 1
  let e := x / 2 ^ f.man % 2 ^ f.exp
  let m := x % 2 ^ f.man
  if f.ieee && e == 2 ^ f.exp - 1 then
    if m = 0 then .inf neg else .nan (m < 2 ^ (f.man - 1))
  else if f == .e4m3 && e == 15 && m == 7 then .nan false
  else if e = 0 then .fin neg m (1 - f.bias - f.man)
  else .fin neg (2 ^ f.man + m) (e - f.bias - f.man)

def FV.isNan : FV → Bool
  | .nan _ => true
  | _ => false
def FV.isSnan : FV → Bool
  | .nan x => x
  | _ => false
def FV.isInf : FV → Bool
  | .inf _ => true
  | _ => false
def FV.isZero : FV → Bool
  | .fin _ m _ => m == 0
  | _ => false
def FV.neg : FV → Bool
  | .inf n => n
  | .fin n _ _ => n
  | .nan _ => false
/-- The value with its sign turned. -/
def FV.negate : FV → FV
  | .inf n => .inf (!n)
  | .fin n m e => .fin (!n) m e
  | x => x

/-! ### Flags (R196) -/

/-- NV, DZ, OF, UF, NX as bits 4 to 0. -/
abbrev Raised := BitVec 5
def fNV : Raised := 0b10000
def fDZ : Raised := 0b01000
def fOF : Raised := 0b00100
def fUF : Raised := 0b00010
def fNX : Raised := 0b00001
/-- A flag that is raised when `b` holds. -/
def Raised.when (b : Bool) (f : Raised) : Raised := if b then f else 0

/-! ### Rounding (R190, R191) -/

inductive RMode where
  | rne | rz | ru | rd | rna
deriving DecidableEq, Repr, Inhabited

/-- The mode of an R190 code; DYN (5) takes FCTRL.RM (R226). -/
def rmode (code : Nat) (fctrl : Word) : RMode :=
  match if code = 5 then fctrl.toNat % 4 else code with
  | 0 => .rne | 1 => .rz | 2 => .ru | 3 => .rd | _ => .rna

/-- Round m ÷ 2^k (k ≥ 0) to an integer: the integer, and whether it is inexact. -/
def roundQuot (mode : RMode) (neg : Bool) (m k : Nat) : Nat × Bool :=
  let q := m / 2 ^ k
  let r := m % 2 ^ k
  let up := match mode with
    | .rne => 2 ^ k < 2 * r || (2 ^ k == 2 * r && q % 2 == 1)
    | .rz => false
    | .ru => !neg && r ≠ 0
    | .rd => neg && r ≠ 0
    | .rna => 2 ^ k ≤ 2 * r
  (if up && r ≠ 0 then q + 1 else q, r ≠ 0)

/-- Round m × 2^e to a multiple of 2^q: the multiple, and whether it is inexact. -/
def roundTo (mode : RMode) (neg : Bool) (m : Nat) (e q : Int) : Nat × Bool :=
  if q ≤ e then (m * 2 ^ (e - q).toNat, false) else roundQuot mode neg m (q - e).toNat

/-- m × 2^e < n × 2^k. -/
def dyLt (m : Nat) (e : Int) (n : Nat) (k : Int) : Bool :=
  if e ≤ k then m < n * 2 ^ (k - e).toNat else m * 2 ^ (e - k).toNat < n

/-- What rounding delivers: the pattern, whether R191 finds overflow, and the flags. -/
structure Rounded where
  bits : Nat
  ovf : Bool := false
  flags : Raised := 0
deriving DecidableEq, Repr, Inhabited

/-- The pattern of the overflowing result (R191 step 3); formats without Inf give their largest value. -/
def Fmt.overflow (f : Fmt) (mode : RMode) (neg : Bool) : Nat :=
  let toInf := match mode with | .rne | .rna => true | .rz => false | .ru => !neg | .rd => neg
  f.sign neg + (if toInf && f.ieee then f.infBits else f.maxBits)

/-- RoundFmt (R191) of a finite exact value, with the flags of R197. -/
def Fmt.round (f : Fmt) (mode : RMode) (neg : Bool) (m : Nat) (e : Int) : Rounded :=
  if m = 0 then { bits := f.sign neg } else
  let emin : Int := 1 - f.bias
  let lead : Int := m.log2 + e
  let q : Int := max (lead - f.man) (emin - f.man)
  let (r, inexact) := roundTo mode neg m e q
  let (ru, _) := roundTo mode neg m e (lead - f.man)
  let tiny := dyLt ru (lead - f.man) 1 emin
  -- the largest finite value is maxM × 2^maxQ
  let top := f.maxBits
  let maxQ : Int := (top / 2 ^ f.man : Nat) - f.bias - f.man
  let maxM := 2 ^ f.man + top % 2 ^ f.man
  if dyLt maxM maxQ r q then { bits := f.overflow mode neg, ovf := true, flags := fOF ||| fNX }
  else
    let bits :=
      if r < 2 ^ f.man then r
      else if r < 2 ^ (f.man + 1) then ((q + f.man + f.bias).toNat) * 2 ^ f.man + (r - 2 ^ f.man)
      else ((q + 1 + f.man + f.bias).toNat) * 2 ^ f.man
    { bits := f.sign neg + bits
      flags := Raised.when inexact fNX ||| Raised.when (tiny && inexact) fUF }

/-- A result with its flags. -/
abbrev Res := Nat × Raised

/-- FTZ on a result (R195): only FP32 and FP64 are flushed. -/
def Fmt.flush (f : Fmt) (ftz : Bool) (r : Res) : Res :=
  let mag := r.1 % 2 ^ (f.exp + f.man)
  if ftz && (f == .f32 || f == .f64) && mag ≠ 0 && mag < 2 ^ f.man then (r.1 - mag, r.2 ||| fUF ||| fNX) else r

/-- FTZ on an operand (R195): the pattern read. -/
def Fmt.operand (f : Fmt) (ftz : Bool) (x : Nat) : Nat :=
  let mag := x % 2 ^ (f.exp + f.man)
  if ftz && (f == .f32 || f == .f64) && mag < 2 ^ f.man then x - mag else x

/-- Rounding a value to a format, Inf and NaN included. -/
def Fmt.deliver (f : Fmt) (mode : RMode) (ftz : Bool) (x : FV) : Res :=
  match x with
  | .nan _ => (f.nan, 0)
  | .inf n => (f.sign n + f.infBits, 0)
  | .fin n m e => let r := f.round mode n m e; f.flush ftz (r.bits, r.flags)

/-! ### Exact arithmetic -/

/-- The exact product, and whether it is 0 × ∞. -/
def FV.mul (a b : FV) : FV × Bool :=
  match a, b with
  | .nan _, _ => (.nan false, false)
  | _, .nan _ => (.nan false, false)
  | .inf x, .inf y => (.inf (x != y), false)
  | .inf x, .fin y m _ => if m = 0 then (.nan false, true) else (.inf (x != y), false)
  | .fin x m _, .inf y => if m = 0 then (.nan false, true) else (.inf (x != y), false)
  | .fin x m e, .fin y n k => (.fin (x != y) (m * n) (e + k), false)

/-- A finite value as a signed multiple of 2^q. -/
def FV.scaled (q : Int) : FV → Int
  | .fin neg m e => (if neg then -1 else 1) * (m * 2 ^ (e - q).toNat : Nat)
  | _ => 0

/-- The exact sum of terms, and whether +∞ and −∞ meet. An exact zero has the terms' sign where all
share it, else − under RD and + otherwise (R191). -/
def FV.sum (mode : RMode) (ts : List FV) : FV × Bool :=
  let pinf := ts.any fun t => t == .inf false
  let ninf := ts.any fun t => t == .inf true
  if ts.any FV.isNan then (.nan false, pinf && ninf)
  else if pinf && ninf then (.nan false, true)
  else if pinf then (.inf false, false)
  else if ninf then (.inf true, false)
  else
    let q : Int := ts.foldl (fun q t => match t with | .fin _ m e => if m = 0 then q else min q e | _ => q) 0
    let x : Int := ts.foldl (fun x t => x + t.scaled q) 0
    if x = 0 then
      (.fin (if ts.all fun t => t.isZero && t.neg then true
             else if ts.all fun t => t.isZero && !t.neg then false else mode == .rd) 0 0, false)
    else (.fin (x < 0) x.natAbs q, false)

/-- Sum of products and addends rounded once: `ps` the factor pairs, `ds` the addends (R227–R231). -/
def fsumprod (f : Fmt) (mode : RMode) (ftz : Bool) (ps : List (FV × FV)) (ds : List FV) : Res :=
  let terms := ps.map fun p => p.1.mul p.2
  let s := FV.sum mode (terms.map Prod.fst ++ ds)
  let nv := ps.any (fun p => p.1.isSnan || p.2.isSnan) || ds.any FV.isSnan || terms.any Prod.snd || s.2
  let r := f.deliver mode ftz s.1
  (r.1, r.2 ||| Raised.when nv fNV)

/-- a × b of one format. -/
def fmulRes (f : Fmt) (mode : RMode) (ftz : Bool) (a b : FV) : Res :=
  let p := a.mul b
  let r := f.deliver mode ftz p.1
  (r.1, r.2 ||| Raised.when (a.isSnan || b.isSnan || p.2) fNV)

/-- a < b of values that are no NaN, −0 equal to +0. -/
def FV.lt (a b : FV) : Bool :=
  match a, b with
  | .inf x, .inf y => x && !y
  | .inf x, _ => x
  | _, .inf y => !y
  | .fin x m e, .fin y n k =>
    let q := min e k
    (FV.fin x m e).scaled q < (FV.fin y n k).scaled q
  | _, _ => false
/-- a = b of values that are no NaN, −0 equal to +0. -/
def FV.eq (a b : FV) : Bool := !a.isNan && !b.isNan && !a.lt b && !b.lt a
/-- The order of minimum and maximum: −0 below +0 (R197). -/
def FV.below (a b : FV) : Bool := a.lt b || (a.isZero && b.isZero && a.neg && !b.neg)

/-- Minimum or maximum of two patterns (R197): `num` for minimumNumber and maximumNumber. -/
def fminmax (f : Fmt) (ftz mx num : Bool) (a b : Nat) : Res :=
  let a := f.operand ftz a
  let b := f.operand ftz b
  let x := f.value a
  let y := f.value b
  let nv := Raised.when (x.isSnan || y.isSnan) fNV
  if x.isNan || y.isNan then
    (if num && !x.isNan then a else if num && !y.isNan then b else f.nan, nv)
  else (if (if mx then x.below y else y.below x) then b else a, nv)

/-- FCOPYSIGN on patterns (R227). -/
def copysign (a b : Word) : Word := (a &&& 0x7FFFFFFF#32) ||| (b &&& 0x80000000#32)

/-! ### Conversions (R192, R193) -/

/-- Encode a value into a format under a mode and a saturate bit (R191, R192). -/
def Fmt.encode (f : Fmt) (mode : RMode) (sat : Bool) (x : FV) : Res :=
  match x with
  | .nan sn => (f.nan, Raised.when (sn || !(f.ieee || f == .e4m3)) fNV)
  | .inf n =>
    if sat then (f.sign n + f.maxBits, Raised.when (!f.ieee) fNV)
    else if f.ieee then (f.sign n + f.infBits, 0)
    else if f == .e4m3 then (0x7F, fNV)
    else (f.sign n + f.maxBits, fNV)
  | .fin n m e =>
    let r := f.round mode n m e
    if r.ovf then
      let toInf := match mode with | .rne | .rna => true | .rz => false | .ru => !n | .rd => n
      (if sat then f.sign n + f.maxBits
       else if f == .e4m3 && toInf then 0x7F else r.bits, r.flags)
    else (r.bits, r.flags)

/-- Conversion to an integer between `lo` and `hi`: rounds by the mode and saturates (R193). -/
def toInteger (mode : RMode) (lo hi : Int) (x : FV) : Int × Raised :=
  match x with
  | .nan _ => (0, fNV)
  | .inf n => (if n then lo else hi, fNV)
  | .fin n m e =>
    let r := roundTo mode n m e 0
    let v : Int := if n then -(r.1 : Int) else r.1
    if hi < v then (hi, fNV) else if v < lo then (lo, fNV) else (v, Raised.when r.2 fNX)

/-- An integer as an exact value. -/
def ofInteger (x : Int) : FV := .fin (x < 0) x.natAbs 0

/-- Rounding to an integral value of the same format (R229). -/
def roundIntegral (f : Fmt) (mode : RMode) (ftz : Bool) (x : Nat) : Res :=
  let x := f.operand ftz x
  match f.value x with
  | .nan sn => (f.nan, Raised.when sn fNV)
  | .inf _ => (x, 0)
  | .fin n m e =>
    if 0 ≤ e then (x, 0) else ((f.round .rne n (roundTo mode n m e 0).1 0).bits, 0)

/-! ### Applying flags (R198) -/

/-- FCTRL.FTZ and FCTRL.RM of the issuing wave. -/
def Ctx.ftz (c : Ctx) : Bool := c.wv.fctrl.getLsbD 2
def Ctx.rm (c : Ctx) : RMode := rmode 5 c.wv.fctrl

/-- R198 on FFLAGS. -/
def applyRaised (fflags fctrl : Word) (raised : Raised) : Word :=
  let newly : Raised := raised &&& ~~~(fflags.setWidth 5)
  let pend : Raised := newly &&& fctrl.extractLsb' 8 5
  fflags ||| raised.setWidth 32 ||| (pend.setWidth 32 <<< 8)

/-- Raise flags in the issuing wave; run-ahead changes none (R198). -/
def Ctx.raise (c : Ctx) (raised : Raised) (s : State) : State :=
  s.modWv c.b c.w fun v =>
    if v.ra.isSome then v else { v with fflags := applyRaised v.fflags v.fctrl raised }

end Sys2Proof.Machine
end

