-- ==== Sys2Proof/Machine/Special.lean ====
section
/-! DEFINITION. The special functions of SFU (R233): the correctly rounded value of each, computed in
fixed point with far more bits than the rounding needs (notes/assumptions/10.md). -/

namespace Sys2Proof.Machine

open Sys2Proof

/-- The integer square root, bit by bit from bit `n - 1` down. -/
def isqrt (n x : Nat) : Nat :=
  (List.range n).reverse.foldl (fun r i => if (r + 2 ^ i) * (r + 2 ^ i) ≤ x then r + 2 ^ i else r) 0

/-- Round a value that lies at m × 2^e, or strictly between it and (m + 1) × 2^e where `sticky`. -/
def Fmt.roundSticky (f : Fmt) (mode : RMode) (neg : Bool) (m : Nat) (e : Int) (sticky : Bool) : Rounded :=
  f.round mode neg (2 * m + if sticky then 1 else 0) (e - 1)

/-- The result of an SFU function other than SQRT: RNE, or R191 under RM beyond the largest finite FP32
value (R233). -/
def sfuRound (rm : RMode) (ftz neg : Bool) (m : Nat) (e : Int) (sticky : Bool) : Res :=
  let beyond := dyLt (2 ^ 24 - 1) 104 (2 * m + if sticky then 1 else 0) (e - 1)
  let r := Fmt.f32.roundSticky (if beyond then rm else .rne) neg m e sticky
  Fmt.f32.flush ftz (r.bits, r.flags)

/-- Fraction bits of the fixed-point values. -/
def fixBits : Nat := 512

/-- atanh t for t = num ÷ den ≤ ⅓, as a fixed-point value. -/
def fixAtanh (num den : Nat) : Nat :=
  let t := num * 2 ^ fixBits / den
  let t2 := t * t / 2 ^ fixBits
  ((List.range 170).foldl (fun (p : Nat × Nat) k => (p.1 * t2 / 2 ^ fixBits, p.2 + p.1 / (2 * k + 1))) (t, 0)).2

/-- ln 2. -/
def fixLn2 : Nat := 2 * fixAtanh 1 3

/-- e^r for r in [0, 1). -/
def fixExp (r : Nat) : Nat :=
  ((List.range 110).foldl (fun (p : Nat × Nat) k => (p.1 * r / 2 ^ fixBits / (k + 1), p.2 + p.1)) (2 ^ fixBits, 0)).2

/-- arctan (1 ÷ n) by its series, and π by Machin's formula. -/
def fixAtanInv (n : Nat) : Nat :=
  ((List.range 230).foldl (fun (p : Nat × Int) k =>
    (p.1 / (n * n), if k % 2 = 0 then p.2 + (p.1 / (2 * k + 1) : Nat) else p.2 - (p.1 / (2 * k + 1) : Nat)))
    (2 ^ fixBits / n, 0)).2.toNat
def fixPi : Nat := 16 * fixAtanInv 5 - 4 * fixAtanInv 239

/-- sin (π × num ÷ 2^k) for num ÷ 2^k in [0, ½]. -/
def fixSinPi (num k : Nat) : Nat :=
  let x := fixPi * num / 2 ^ k
  let x2 := x * x / 2 ^ fixBits
  ((List.range 60).foldl (fun (p : Nat × Int) i =>
    (p.1 * x2 / 2 ^ fixBits / ((2 * i + 2) * (2 * i + 3)), if i % 2 = 0 then p.2 + p.1 else p.2 - p.1)) (x, 0)).2.toNat

/-- +1.0, and the patterns of FP32 NaN and Inf. -/
def one32 : Nat := 0x3F800000
def nan32 : Nat := 0x7FC00000
def inf32 (neg : Bool) : Nat := if neg then 0xFF800000 else 0x7F800000
def zero32 (neg : Bool) : Nat := if neg then 0x80000000 else 0

/-- A special function: its operand read under FTZ, and a NaN operand delivered. -/
def sfu (ftz : Bool) (x : Nat) (f : FV → Res) : Res :=
  match Fmt.f32.value (Fmt.f32.operand ftz x) with
  | .nan sn => (nan32, Raised.when sn fNV)
  | v => f v

def rcpRes (rm : RMode) (ftz : Bool) (x : Nat) : Res := sfu ftz x fun v =>
  match v with
  | .inf n => (zero32 n, 0)
  | .fin n m e =>
    if m = 0 then (inf32 n, fDZ)
    else sfuRound rm ftz n (2 ^ 200 / m) (-200 - e) (2 ^ 200 % m ≠ 0)
  | _ => (nan32, 0)

def rsqRes (rm : RMode) (ftz : Bool) (x : Nat) : Res := sfu ftz x fun v =>
  match v with
  | .inf n => if n then (nan32, fNV) else (0, 0)
  | .fin n m e =>
    if m = 0 then (inf32 n, fDZ) else if n then (nan32, fNV) else
    let m' := if e % 2 = 0 then m else 2 * m
    let k := e / 2
    let s := isqrt 201 (2 ^ 400 / m')
    sfuRound rm ftz false s (-200 - k) (s * s * m' ≠ 2 ^ 400)
  | _ => (nan32, 0)

/-- SQRT is correctly rounded, and NX follows R197: a perfect square sets none, though R233's list of exact inputs does not
name it (DEDUCED, notes/assumptions/69.md). -/
def sqrtRes (rm : RMode) (ftz : Bool) (x : Nat) : Res := sfu ftz x fun v =>
  match v with
  | .inf n => if n then (nan32, fNV) else (inf32 false, 0)
  | .fin n m e =>
    if m = 0 then (zero32 n, 0) else if n then (nan32, fNV) else
    let m' := if e % 2 = 0 then m else 2 * m
    let s := isqrt 70 (m' * 2 ^ 100)
    let r := Fmt.f32.roundSticky rm false s (e / 2 - 50) (s * s ≠ m' * 2 ^ 100)
    Fmt.f32.flush ftz (r.bits, r.flags)
  | _ => (nan32, 0)

def exp2Res (rm : RMode) (ftz : Bool) (x : Nat) : Res := sfu ftz x fun v =>
  match v with
  | .inf n => (if n then 0 else inf32 false, 0)
  | .fin n m e =>
    if m = 0 then (one32, 0)
    else if dyLt (2 ^ 13) 0 m e then sfuRound rm ftz false 3 (if n then -9000 else 9000) false
    else if 0 ≤ e then
      sfuRound rm ftz false 1 (if n then -(m * 2 ^ e.toNat : Nat) else (m * 2 ^ e.toNat : Nat)) false
    else
      let k := (-e).toNat
      let a : Int := if n then -(m : Int) else m
      let whole := a / 2 ^ k
      let frac := (a % 2 ^ k).toNat
      if frac = 0 then sfuRound rm ftz false 1 whole false
      else sfuRound rm ftz false (fixExp (fixLn2 * frac / 2 ^ k)) (whole - fixBits) true
  | _ => (nan32, 0)

def log2Res (rm : RMode) (ftz : Bool) (x : Nat) : Res := sfu ftz x fun v =>
  match v with
  | .inf n => if n then (nan32, fNV) else (inf32 false, 0)
  | .fin n m e =>
    if m = 0 then (inf32 true, fDZ) else if n then (nan32, fNV) else
    let l := m.log2
    let k : Int := l + e
    if m = 2 ^ l then
      (if k = 0 then (0, 0) else sfuRound rm ftz (k < 0) k.natAbs 0 false)
    else
      -- log2 of m ÷ 2^l in (1, 2), from atanh of its (z − 1) ÷ (z + 1)
      let f := 2 * fixAtanh (m - 2 ^ l) (m + 2 ^ l) * 2 ^ fixBits / fixLn2
      let y : Int := k * 2 ^ fixBits + f
      sfuRound rm ftz (y < 0) (if y < 0 then y.natAbs - 1 else y.natAbs) (-fixBits) true
  | _ => (nan32, 0)

/-- The fraction of a finite |a| < 2^22 that is no multiple of ½: a mod 2 as num ÷ 2^k. -/
def mod2 (m : Nat) (e : Int) : Nat × Nat :=
  let k := (-e).toNat
  (m % 2 ^ (k + 1), k)

def sinpiRes (rm : RMode) (ftz : Bool) (x : Nat) : Res := sfu ftz x fun v =>
  match v with
  | .inf _ => (nan32, fNV)
  | .fin n m e =>
    let (num, k) := if 0 ≤ e then (m * 2 ^ e.toNat % 2, 0) else mod2 m e
    let half := 2 ^ k
    if num % half = 0 then (zero32 n, 0)
    else
      let neg := n != decide (half ≤ num)
      let r := num % half
      if 2 * r = half then (one32 + zero32 neg, 0)
      else sfuRound rm ftz neg (fixSinPi (if half < 2 * r then half - r else r) k) (-fixBits) true
  | _ => (nan32, 0)

def cospiRes (rm : RMode) (ftz : Bool) (x : Nat) : Res := sfu ftz x fun v =>
  match v with
  | .inf _ => (nan32, fNV)
  | .fin _ m e =>
    let (num, k) := if 0 ≤ e then (m * 2 ^ e.toNat % 2, 0) else mod2 m e
    let half := 2 ^ k
    let r := if half < num then 2 * half - num else num
    if r = 0 then (one32, 0)
    else if r = half then (one32 + zero32 true, 0)
    else if 2 * r = half then (0, 0)
    else
      -- cos (π r) = sin (π (½ − r)), or its negative past ½
      let neg := decide (half < 2 * r)
      sfuRound rm ftz neg (fixSinPi (if neg then 2 * r - half else half - 2 * r) (k + 1)) (-fixBits) true
  | _ => (nan32, 0)

def tanhRes (rm : RMode) (ftz : Bool) (x : Nat) : Res := sfu ftz x fun v =>
  match v with
  | .inf n => (one32 + zero32 n, 0)
  | .fin n m e =>
    if m = 0 then (zero32 n, 0)
    else if dyLt m e 1 (-40) then
      -- between x (1 − x²) and x: below x by less than a rounding can see
      sfuRound rm ftz n (m * 2 ^ 64 - 1) (e - 64) true
    else if dyLt 128 0 m e then sfuRound rm ftz n (2 ^ 200 - 1) (-200) true
    else
      -- E = e^(2x) = 2^whole × e^frac
      let t := if 0 ≤ e + 1 then m * 2 ^ (e + 1).toNat * 2 ^ fixBits else m * 2 ^ fixBits / 2 ^ (-(e + 1)).toNat
      let ex := fixExp (t % fixLn2) * 2 ^ (t / fixLn2)
      sfuRound rm ftz n ((ex - 2 ^ fixBits) * 2 ^ fixBits / (ex + 2 ^ fixBits)) (-fixBits) true
  | _ => (nan32, 0)

end Sys2Proof.Machine
end

