-- ==== Sys2Proof/Machine/Record.lean ====
section
/-! DEFINITION. Buffer records, the record cache and the conversion stage: R114–R123. -/

namespace Sys2Proof.Machine

open Sys2Proof

/-! ### Fields of a buffer record (R114) -/

def rbEpa (r : BitVec 320) : Nat := fld r 303 296
def rbWatch (r : BitVec 320) : Bool := r.getLsbD 291
def rbA (r : BitVec 320) : Bool := r.getLsbD 290
def rbW (r : BitVec 320) : Bool := r.getLsbD 289
def rbRD (r : BitVec 320) : Bool := r.getLsbD 288
def rbInteg (r : BitVec 320) : Nat := fld r 287 280
def rbPolicy (r : BitVec 320) : Nat := fld r 279 272
def rbScaleva (r : BitVec 320) : DWord := (BitVec.ofNat 56 (fld r 271 216)).signExtend 64
def rbScale (r : BitVec 320) : Nat := fld r 215 184
def rbSmode (r : BitVec 320) : Nat := fld r 183 176
def rbIlv (r : BitVec 320) : Nat := fld r 175 168
def rbRfmt (r : BitVec 320) : Nat := fld r 167 160
def rbMenc (r : BitVec 320) : Nat := fld r 159 152
def rbKind (r : BitVec 320) : Nat := fld r 151 144
def rbPitch (r : BitVec 320) : Nat := fld r 143 112
def rbExtent (r : BitVec 320) : Nat := fld r 111 64
def rbBase (r : BitVec 320) : Nat := fld r 63 0

/-- Record 0, the flat record (R116). Its extent is not checked. -/
def flatRecord : BitVec 320 := BitVec.ofNat 320 (1 * 2 ^ 296 + 7 * 2 ^ 288 + 1 * 2 ^ 144)

/-! ### Encodings and register formats (R118) -/

/-- How a memory encoding holds a value. -/
inductive MemEnc where
  | int (signed : Bool) | flt (f : Fmt) | norm (signed : Bool)
deriving DecidableEq, Repr, Inhabited

/-- A memory encoding: its kind and width in bits. -/
def memEnc (m : Nat) : Option (MemEnc × Nat) :=
  match m with
  | 0x01 => some (.int true, 8) | 0x02 => some (.int false, 8) | 0x03 => some (.int true, 16)
  | 0x04 => some (.int false, 16) | 0x05 => some (.int true, 32)
  | 0x08 => some (.flt .f16, 16) | 0x09 => some (.flt .bf16, 16) | 0x0A => some (.flt .f32, 32)
  | 0x0B => some (.flt .f64, 64)
  | 0x10 => some (.flt .e4m3, 8) | 0x11 => some (.flt .e5m2, 8) | 0x12 => some (.flt .e2m3, 6)
  | 0x13 => some (.flt .e3m2, 6) | 0x14 => some (.flt .e2m1, 4)
  | 0x18 => some (.norm false, 8) | 0x19 => some (.norm true, 8) | 0x1A => some (.norm false, 16)
  | 0x1B => some (.norm true, 16)
  | _ => none

/-- A register format. -/
inductive RegFmt where
  | s32 | f32 | pk16 | pkb16 | f64
deriving DecidableEq, Repr, Inhabited

def regFmt (r : Nat) : Option RegFmt :=
  match r with
  | 0x20 => some .s32 | 0x21 => some .f32 | 0x22 => some .pk16 | 0x23 => some .pkb16 | 0x24 => some .f64
  | _ => none

/-- Registers of `n` elements. -/
def RegFmt.regs (f : RegFmt) (n : Nat) : Nat :=
  match f with
  | .s32 | .f32 => n
  | .pk16 | .pkb16 => n / 2
  | .f64 => 2 * n
def RegFmt.packed : RegFmt → Bool
  | .pk16 | .pkb16 => true
  | _ => false
def RegFmt.fmt : RegFmt → Fmt
  | .pk16 => .f16 | .pkb16 => .bf16 | .f64 => .f64 | _ => .f32

/-- The record breaks R115 or R117, whatever access uses it. -/
def recordMalformed (r : BitVec 320) : Bool :=
  fld r 319 304 ≠ 0 || fld r 295 292 ≠ 0 || (rbKind r ≠ 1 && rbKind r ≠ 3) || (rbKind r == 3 && rbIlv r ≠ 0) ||
    (rbMenc r ≠ 0 && (memEnc (rbMenc r)).isNone) || (rbRfmt r ≠ 0 && (regFmt (rbRfmt r)).isNone) ||
    3 < rbIlv r || 2 < rbSmode r || 3 < rbPolicy r || 1 < rbInteg r || !([1, 2, 4, 8].contains (rbEpa r)) ||
    !canonical (BitVec.ofNat 64 (rbBase r)) || rbBase r % 16 ≠ 0

/-- The register formats and scale modes R119 permits with a memory encoding. -/
def ePair (m : MemEnc) (r : RegFmt) (smode : Nat) : Bool :=
  match m with
  | .int _ => r == .s32 && smode == 0
  | .norm _ => r == .f32 && smode == 0
  | .flt .f16 => (r == .f32 || r == .pk16) && smode ≤ 1
  | .flt .bf16 => (r == .f32 || r == .pkb16) && smode ≤ 1
  | .flt .f32 => (r == .f32 || r.packed) && smode ≤ 1
  | .flt .f64 => (r == .f64 || r == .f32) && smode == 0
  | .flt _ => (r == .f32 || r.packed) && smode ≤ 2

/-- R119: the combination a .E access needs. -/
def ePermitted (r : BitVec 320) : Bool :=
  match memEnc (rbMenc r), regFmt (rbRfmt r) with
  | some (m, w), some f =>
    ePair m f (rbSmode r) && rbEpa r * w % 8 == 0 && (!f.packed || 2 ≤ rbEpa r) &&
      (rbSmode r ≠ 2 || rbIlv r == 0) && (rbIlv r == 0 || 8 ≤ w) &&
      (rbSmode r ≠ 1 || (match Fmt.f32.value (rbScale r) with | .fin _ m _ => m ≠ 0 | _ => false))
  | _, _ => false

/-- Width in bits of the record's elements, and registers of its .E run (R119). -/
def eWidth (r : BitVec 320) : Nat := match memEnc (rbMenc r) with | some (_, w) => w | none => 8
def eRegs (r : BitVec 320) : Nat := match regFmt (rbRfmt r) with | some f => f.regs (rbEpa r) | none => 0
def eEven (r : BitVec 320) : Bool := regFmt (rbRfmt r) == some .f64

/-- Interleave the bits of coordinates: bit i of coordinate c at position k·i + c. -/
def morton (k n : Nat) (cs : List Nat) : Nat :=
  (List.range n).foldl (fun x i => cs.zipIdx.foldl (fun x e => x + e.1 / 2 ^ i % 2 * 2 ^ (k * i + e.2)) x) 0

/-- Bit addresses of the elements of an access at byte offset `off` (R120). -/
def eBits (r : BitVec 320) (off : Nat) : List Nat :=
  (List.range (rbEpa r)).map fun j =>
    match rbIlv r with
    | 0 => off * 8 + j * eWidth r
    | 1 => (off + j * rbPitch r) * 8
    | 2 => morton 2 16 [off % 65536 + j, off / 65536 % 65536] * eWidth r
    | _ => morton 3 10 [off % 1024 + j, off / 1024 % 1024, off / 2 ^ 20 % 1024] * eWidth r

/-- The alignment of R120. -/
def eAligned (r : BitVec 320) (off : Nat) : Bool :=
  match rbIlv r with
  | 0 => off % (rbEpa r * eWidth r / 8) == 0
  | 1 => off % (eWidth r / 8) == 0
  | _ => true

/-- The Morton rules of R120 hold. -/
def eMortonOk (r : BitVec 320) (off : Nat) : Bool :=
  match rbIlv r with
  | 2 => off < 2 ^ 32 && off % 65536 + rbEpa r ≤ 65536
  | 3 => off < 2 ^ 30 && off % 1024 + rbEpa r ≤ 1024
  | _ => true

/-- Byte offsets from BASE of a .E access, element by element: a contiguous run for LINEAR (R120). -/
def eBytes (r : BitVec 320) (off : Nat) : List Nat :=
  if rbIlv r = 0 then (List.range (rbEpa r * eWidth r / 8)).map fun i => off + i
  else (eBits r off).flatMap fun b => (List.range (eWidth r / 8)).map fun i => b / 8 + i

/-- VA of the MX scale byte of an access (R121). -/
def eScaleVa (r : BitVec 320) (off : Nat) : DWord :=
  rbScaleva r + BitVec.ofNat 64 ((eBits r off).headD 0 / eWidth r / 32)

/-! ### The conversion stage (R121) -/

/-- Encode of R121: one rounding, RNE. -/
def stageEncode (f : Fmt) (x : FV) : Nat :=
  match x with
  | .nan _ => f.nan
  | .inf n => f.sign n + (if f.ieee then f.infBits else f.maxBits)
  | .fin n m e =>
    let r := f.round .rne n m e
    if r.ovf then f.sign n + (if f.narrow then f.maxBits else f.infBits) else r.bits

/-- A scale: the value multiplied on load; `none` is the NaN scale. -/
def scaleValue (r : BitVec 320) (mx : Nat) : Option FV :=
  match rbSmode r with
  | 0 => some (.fin false 1 0)
  | 1 => some (Fmt.f32.value (rbScale r))
  | _ => if mx = 255 then none else some (.fin false 1 ((mx : Int) - 127))

/-- The exact quotient of two values, rounded by `f` (R121): x finite or not, the divisor finite and non-zero. -/
def quotEncode (f : Fmt) (x d : FV) : Nat :=
  match x, d with
  | .fin n m e, .fin k p q =>
    if m = 0 then f.sign (n != k)
    else
      let a := m * 2 ^ 300
      let (neg, mm, ee) := (n != k, 2 * (a / p) + (if a % p = 0 then 0 else 1), e - q - 301)
      stageEncode f (.fin neg mm ee)
  | .inf n, .fin k _ _ => stageEncode f (.inf (n != k))
  | x, _ => stageEncode f (match x with | .nan s => .nan s | _ => .nan false)

/-- A norm decoded to F32 (R121): UN u ÷ (2^w − 1), SN max (s ÷ (2^(w−1) − 1), −1). -/
def normLoad (signed : Bool) (w x : Nat) : Nat :=
  let den := if signed then 2 ^ (w - 1) - 1 else 2 ^ w - 1
  let neg := signed && 2 ^ (w - 1) ≤ x
  let mag := min den (if neg then 2 ^ w - x else x)
  let a := mag * 2 ^ 100
  (Fmt.f32.round .rne neg (2 * (a / den) + if a % den = 0 then 0 else 1) (-101)).bits

/-- A value encoded as a norm (R121). -/
def normStore (signed : Bool) (w : Nat) (x : FV) : Nat :=
  let den := if signed then 2 ^ (w - 1) - 1 else 2 ^ w - 1
  let clamp (n : Bool) (k : Nat) : Nat := if n then (if signed ∧ k ≠ 0 then 2 ^ w - k else 0) else k
  match x with
  | .nan _ => 0
  | .inf n => clamp n den
  | .fin n m e => clamp n (min den (if dyLt 1 0 m e then den else (roundTo .rne n (m * den) e 0).1))

/-- One element loaded: memory bits to register bits. -/
def loadElem (r : BitVec 320) (mx : Nat) (x : Nat) : Nat :=
  match memEnc (rbMenc r), regFmt (rbRfmt r) with
  | some (.int sg, w), _ => if sg && 2 ^ (w - 1) ≤ x then x + (2 ^ 32 - 2 ^ w) else x
  | some (.norm sg, w), _ => normLoad sg w x
  | some (.flt f, _), some t =>
    (match scaleValue r mx with
     | none => t.fmt.nan
     | some sc => stageEncode t.fmt ((f.value x).mul sc).1)
  | _, _ => 0

/-- One element stored: register bits to memory bits. -/
def storeElem (r : BitVec 320) (mx : Nat) (x : Nat) : Nat :=
  match memEnc (rbMenc r), regFmt (rbRfmt r) with
  | some (.int _, w), _ => x % 2 ^ w
  | some (.norm sg, w), _ => normStore sg w (Fmt.f32.value x)
  | some (.flt f, _), some t =>
    (match scaleValue r mx with
     | none => f.nan
     | some sc => quotEncode f (t.fmt.value x) sc)
  | _, _ => 0

/-- LoadConvert: the element bytes, in order, to the registers of the run. -/
def loadConvert (r : BitVec 320) (mx : Nat) (bs : List Byte) : List Word :=
  let x := leNat bs
  let el (j : Nat) : Nat := loadElem r mx (x / 2 ^ (eWidth r * j) % 2 ^ eWidth r)
  match regFmt (rbRfmt r) with
  | some .f64 => (List.range (2 * rbEpa r)).map fun k => word64 (el (k / 2)) (k % 2)
  | some .pk16 | some .pkb16 => (List.range (rbEpa r / 2)).map fun k => BitVec.ofNat 32 (el (2 * k) + 65536 * el (2 * k + 1))
  | _ => (List.range (rbEpa r)).map fun k => BitVec.ofNat 32 (el k)
where
  /-- word `j` of an element of 64 bits -/
  word64 (x j : Nat) : Word := BitVec.ofNat 32 (x / 2 ^ (32 * j))

/-- StoreConvert: the registers of the run, lowest first as one number, to the element bytes. -/
def storeConvert (r : BitVec 320) (mx : Nat) (data : Nat) : List Byte :=
  let rw := match regFmt (rbRfmt r) with | some .f64 => 64 | some .pk16 | some .pkb16 => 16 | _ => 32
  let x := (List.range (rbEpa r)).foldl (fun x j =>
    x + storeElem r mx (data / 2 ^ (rw * j) % 2 ^ rw) * 2 ^ (eWidth r * j)) 0
  natBytes (rbEpa r * eWidth r / 8) x

/-! ### The record cache (R123) -/

/-- Key of a record: ASID and VA. -/
def recKey (asid : Nat) (va : DWord) : Nat := asid * 2 ^ 64 + va.toNat

/-- Add an entry to one half of the record cache; a full half gives up one of its own, which is not defined. -/
def State.recFill {α : Type} (s : State) (l : List (Nat × α)) (cap key : Nat) (x : α) : List (Nat × α) × State :=
  if l.length < cap then ((key, x) :: l, s)
  else
    let (v, s) := s.freeNat l.length
    ((key, x) :: l.eraseIdx v, s)

/-- The 40 bytes of a record-table entry, through the record cache. -/
def Ctx.recordBits (c : Ctx) (s : State) (va : DWord) : Except (SyncStop × State) (BitVec 320 × State) :=
  match (s.core c.blk.core).recs.find? (fun e => e.1 == recKey c.asid va) with
  | some e => .ok (e.2, s)
  | none =>
    match c.readVA s va 40 with
    | .error e => .error e
    | .ok (bs, s) =>
      let r := BitVec.ofNat 320 (leNat bs)
      let (l, s) := s.recFill (s.core c.blk.core).recs 64 (recKey c.asid va) r
      .ok (r, s.modCore c.blk.core fun k => { k with recs := l })

/-- VA of record-table entry `n` (R114). -/
def Ctx.recVa (c : Ctx) (n : Nat) : DWord := recRecva c.lr + BitVec.ofNat 64 (64 * n)

/-- What finding a record answers: its bits, a RECORD trap, or a wait for a waking way. -/
inductive RecRes where
  | ok (r : BitVec 320) (s : State)
  | bad (s : State)
  | park (s : State)
deriving Repr, Inhabited

/-- Record (R115, R116) without the checks of a kind. -/
def Ctx.record (c : Ctx) (s : State) (n : Nat) : RecRes :=
  if recCount c.lr ≤ n then .bad s
  else if n = 0 then .ok flatRecord s
  else
    match c.recordBits s (c.recVa n) with
    | .ok (r, s) => .ok r s
    | .error (.park, s) => .park s
    | .error (.fault f, s) => .bad (s.noteData f c.world (c.recVa n).toNat)
    | .error (.trap _, s) => .bad s

end Sys2Proof.Machine
end

