-- ==== Sys2Proof/Machine/Memory.lean ====
section
/-! DEFINITION. The issue of global loads, stores, atomics, reductions, cache operations and remote accesses:
spec/07_memory_instructions.md (R161–R183), with R114–R121, R310 and R333. What the accesses do when they
are performed stands in Machine/Access.lean. -/

namespace Sys2Proof.Machine

open Sys2Proof

/-! ### Issuing an asynchronous operation -/

def Wave.ctr (v : Wave) : Ctr → Nat
  | .lc => v.lc | .sc => v.sc | .cc => v.cc | .mc => v.mc
def Wave.setCtr (v : Wave) (c : Ctr) (n : Nat) : Wave :=
  match c with
  | .lc => { v with lc := n } | .sc => { v with sc := n } | .cc => { v with cc := n } | .mc => { v with mc := n }
/-- The stall reason of a counter (R25, R443). -/
def Ctr.stall : Ctr → Stall
  | .lc => .waitLd | .sc => .waitSt | .cc => .waitCo | .mc => .waitMx

/-- Enter an operation of the issuing path: its counter goes up, unless it is a run-ahead access (R77). -/
def Ctx.startOp (c : Ctx) (op : AsyncOp) (s : State) : State :=
  s.modWv c.b c.w fun v =>
    let op := { op with id := v.nextOp, path := c.p, pc := c.pa.pc, word := c.pa.word, lead := (lanesOf c.pa.full).headD 32, at_ := s.clk }
    let v := { v with ops := v.ops ++ [op], nextOp := v.nextOp + 1 }
    match v.ra with
    | some r => { v with ra := some { r with pend := (v.nextOp - 1) :: r.pend } }
    | none => v.setCtr op.ctr (v.ctr op.ctr + 1)

/-- Issue an operation, or hold it while its counter stands at 63 (R25). -/
def Ctx.async (c : Ctx) (op : AsyncOp) (s : State) : Act :=
  if c.wv.ra.isNone && 63 ≤ c.wv.ctr op.ctr then .hold op.ctr.stall s else .done (c.startOp op s)

/-! ### Global addresses and checks (R161–R164) -/

/-- The size of an access: fixed, by the record's elements, or 4 × EPA (R162). -/
inductive Sz where
  | fixed (n : Nat) | elems | words
deriving DecidableEq, Repr, Inhabited

/-- The permissions of a record (R163, "need"). -/
def rbPermits (r : BitVec 320) : Need → Bool
  | .load => rbRD r
  | .store => rbW r
  | .atomic ret => rbA r && (!ret || rbRD r)
  | .fetch => false

/-- The byte offset of a lane's access: the operand, or index × PITCH; none with record 0 (R161). -/
def Ctx.offset (c : Ctx) (g : Bool) (a : Field) (rc : BitVec 320) (ln : Nat) : Nat :=
  let x := (c.opnd g a ln 0).toNat
  if rbKind rc = 3 then x * rbPitch rc else x

/-- The VA of a lane's access (R161). -/
def Ctx.address (c : Ctx) (g : Bool) (a : Field) (rn : Nat) (rc : BitVec 320) (ln : Nat) : DWord :=
  if rn = 0 then c.opnd64 g a ln else BitVec.ofNat 64 (rbBase rc + c.offset g a rc ln)

/-- The byte VAs of a .E access, the scale byte's after them under MX (R120, R121). -/
def eVas (rc : BitVec 320) (off : Nat) : List DWord :=
  (eBytes rc off).map fun o => BitVec.ofNat 64 (rbBase rc + o)

/-- Map a list of VAs: the first trap, or all the IAs. -/
def mapAll (f : DWord → Except Nat Nat) : List DWord → Except Nat (List Nat)
  | [] => .ok []
  | va :: t =>
    match f va with
    | .error e => .error e
    | .ok ia => (mapAll f t).map (ia :: ·)

/-- The trap of a check step that some lanes fail: the lowest failing lane's code, the lanes that fail with
it, and that lane's VA (R163). -/
def Ctx.laneTrap (c : Ctx) (fails : List (Nat × Nat)) (va : Nat → DWord) : Option TrapInfo :=
  match fails with
  | [] => none
  | (ln, code) :: _ =>
    some (c.trap code (some (maskOf fun l => fails.contains (l, code))) (va ln))

/-- A watch-mode conflict of a checked access with the record of its sector (R334). -/
def watchConflict (l : Launch) (me sector : Nat) : Bool :=
  match l.watch.find? (fun e => e.1 == sector) with
  | none => false
  | some (_, w, t) =>
    w != me &&
    !(l.watchEnds.any fun x => x.1 == w && t < x.2.2 && l.watchEnds.any fun y => y.1 == me && y.2.1 == x.2.1 && t < y.2.2) &&
    !(l.watchOrd.any fun r => r.wave == w && r.kind == .release && t < r.issued &&
        l.watchOrd.any fun q => q.wave == me && q.kind == .acquire && q.ia == r.ia && r.done < q.done)

/-- The number of a wave in watch records. -/
def Ctx.watchId (c : Ctx) : Nat := c.b * 32 + c.w

/-- A checked store that has issued makes its wave the writer of its sectors (R334). -/
def State.watchWrite (s : State) (launch me : Nat) (secs : List Nat) : State :=
  s.modLaunch launch fun l =>
    { l with
      watch := secs.dedup.map (fun x => (x, me, l.watchSeq)) ++ l.watch.filter fun e => !secs.contains e.1
      watchSeq := l.watchSeq + 1 }

/-- Data of the run at field `d`, lowest register lowest. -/
def Ctx.runData (c : Ctx) (g : Bool) (d : Field) (n ln : Nat) : BitVec 512 :=
  BitVec.ofNat 512 ((List.range n).foldl (fun x j => x + (c.opnd g d ln j).toNat * 2 ^ (32 * j)) 0)

/-- The checks of R163 and the operation they lead to. `chk` is the instruction's own operand check: the
failing operand of a lane. `fin` completes the operation from the record. -/
def Ctx.globalOp (c : Ctx) (s : State) (i : Info) (g : Bool) (d a : Field) (rn : Nat) (need : Need) (sz : Sz)
    (nregs : Nat) (chk : Nat → Option Word) (fin : BitVec 320 → List LaneOp → State → Act) : Act :=
  let all := if g then 1 else c.pa.exm
  let eva := c.recVa rn
  match c.record s rn with
  | .bad s => .trapIn (c.trap 0x17 (some all) eva) s
  | .park s => .hold .park s
  | .ok rc s => Act.after s <|
    if (rn ≠ 0 && recordMalformed rc) || (sz == .elems && !ePermitted rc) then .trap (c.trap 0x17 (some all) eva)
    else
      let n := match sz with | .fixed _ => nregs | .elems => eRegs rc | .words => rbEpa rc
      let bytes := match sz with | .fixed k => k | .elems => rbEpa rc * eWidth rc / 8 | .words => 4 * rbEpa rc
      let even := sz == .elems && eEven rc
      let run := !g && sz ≠ .fixed bytes
      let runTrap (code : Nat) : Act := .trap (if c.pa.exm = 0 then c.trap code (some 0) eva else c.trap code)
      if run && (if d.toNat < 0x70 then c.runIll d.toNat n even else rbEpa rc ≠ 1) then runTrap 0x01
      else if run && d.toNat < 0x70 && c.runXreg d.toNat n then runTrap 0x05
      else if !rbPermits rc need then .trap (c.trap 0x11 (some all) eva)
      else
        let lanes := (c.execLanes g).filter fun ln =>
          match c.wv.ra with | some r => !c.raBad r i ln | none => true
        let off := c.offset g a rc
        let va := c.address g a rn rc
        let misaligned := lanes.filter fun ln =>
          if sz = .elems then !eAligned rc (off ln) else (va ln).toNat % bytes ≠ 0
        let outside := lanes.filter fun ln => rn ≠ 0 &&
          (if sz = .elems then !eMortonOk rc (off ln) || (eBytes rc (off ln)).any (fun o => rbExtent rc ≤ o)
           else rbExtent rc < off ln + bytes)
        let failing := lanes.filter fun ln => (chk ln).isSome
        match c.laneTrap (misaligned.map (·, 0x13)) va with
        | some t => .trap t
        | none =>
        match c.laneTrap (outside.map (·, 0x12)) va with
        | some t => .trap t
        | none =>
        match c.laneTrap (failing.map (·, 0x12)) (fun ln => ((chk ln).getD 0).setWidth 64) with
        | some t => .trap t
        | none =>
          let ias (ln : Nat) : Except Nat (List Nat) :=
            if sz = .elems then
              (match mapAll (c.map s need) (eVas rc (off ln)) with
               | .error e => .error e
               | .ok l =>
                 if rbSmode rc = 2 then (mapAll (c.map s .load) [eScaleVa rc (off ln)]).map (l ++ ·) else .ok l)
            else (c.map s need (va ln)).map ([·])
          match c.laneTrap (lanes.filterMap fun ln => match ias ln with | .error e => some (ln, e) | .ok _ => none) va with
          | some t => .trap t
          | none =>
            let ops : List LaneOp := lanes.map fun ln =>
              let l := match ias ln with | .ok l => l | .error _ => []
              { lane := ln, va := va ln, ia := l.headD 0, aux := if sz = .elems then l else []
                dst := if g then d.toNat else if d.toNat < 0x70 then c.vreg ln d.toNat else d.toNat
                data := c.runData g d n ln
                addr := if rn = 0 then c.opnd64 g a ln else (c.opnd g a ln 0).setWidth 64 }
            let l := s.launchOf c.b
            let watched := recWatch l.record && rbWatch rc && need ≠ .atomic true && need ≠ .atomic false && sz ≠ .words && c.wv.ra.isNone
            let clash := if watched then ops.filter (fun o =>
                (if sz = .elems then o.aux else [o.ia]).any fun ia => watchConflict l c.watchId (ia / 32)) else []
            match c.laneTrap (clash.map (fun o => (o.lane, 0x15))) va with
            | some t => .trap t
            | none =>
              if ops = [] then .done s
              else
                let secs := (ops.flatMap fun o => if sz = .elems then o.aux.take bytes else [o.ia]).map (· / 32)
                match fin rc ops s with
                | .done s => .done (if watched && need = .store then s.watchWrite c.blk.launch c.watchId secs else s)
                | r => r

/-! ### Loads and stores -/

/-- LD (R171). -/
def Ctx.load (c : Ctx) (s : State) (i : Info) (g : Bool) (d a : Field) (rn : Nat) (sz : Sz) (nregs : Nat)
    (signed : Bool) : Act :=
  c.globalOp s i g d a rn .load sz nregs (fun _ => none) fun rc lanes s =>
    c.async
      { ctr := .lc, uniform := g, nregs := if sz = .elems then eRegs rc else nregs, lanes
        kind := match sz with | .fixed n => .load n signed (rbPolicy rc) | _ => .loadE rc } s

/-- The bytes a store writes and where, for a lane whose bytes do not depend on memory. -/
def storeBytes (kind : OpKind) (o : LaneOp) : List (Nat × List Byte) :=
  match kind with
  | .store size _ => [(o.ia, natBytes size o.data.toNat)]
  | .storeE rc => (storeConvert rc 0 o.data.toNat).zipIdx.map fun e => (o.aux.getD e.2 0, [e.1])
  | _ => []

/-! ### Waves on a core -/

/-- The block is bound to a core. -/
def Block.bound (k : Block) : Bool := k.st == .resident
/-- Block and wave numbers of the waves bound to a core, DONE ones included. -/
def State.wavesOn (s : State) (core : Nat) : List (Nat × Nat) :=
  (List.range s.blocks.length).flatMap fun b =>
    if (s.blk b).bound && (s.blk b).core == core then (List.range (s.blk b).waves.length).map (b, ·) else []

/-- A pending access of a core's waves that keeps a line out of its L1: a bypass store, an MX .E store, an
atomic or reduction has invalidated the line at issue, and is still to be performed (R166). -/
def OpKind.keepsOut : OpKind → Bool
  | .store _ p => p == 2
  | .storeE rc => rbPolicy rc == 2 || rbSmode rc == 2
  | .atomic _ _ _ _ _ => true
  | _ => false

/-- Fill a line of a core's L1. The stores of its waves that are on their way to L2 show in it, in the order in which they
issued (R166, R323). -/
def State.fillL1 (s : State) (core ia : Nat) (d : Line) : State :=
  let ops := sortBy (fun x y => x.at_ ≤ y.at_) ((s.wavesOn core).flatMap fun bw => (s.wv bw.1 bw.2).ops)
  let pend := ops.flatMap fun op => (op.lanes.filter fun o => o.st = .pending ∨ o.st = .port).map fun o => (op.kind, o)
  if pend.any fun (e : OpKind × LaneOp) => e.1.keepsOut && (if e.2.aux = [] then [e.2.ia] else e.2.aux).any fun x => x / 128 == ia / 128 then s
  else (pend.flatMap fun (e : OpKind × LaneOp) => storeBytes e.1 e.2).foldl (fun s e =>
    if e.1 / 128 = ia / 128 then s.l1Update core e.1 e.2 else s) (s.l1Fill core ia d)

/-- What a store does to the L1 of its core when it issues (R166). -/
def State.l1Store (s : State) (core : Nat) (op : AsyncOp) : State :=
  op.lanes.foldl (fun s o =>
    match op.kind with
    | .store _ 2 => s.l1Drop core o.ia
    | .storeE rc =>
      if rbPolicy rc = 2 ∨ rbSmode rc = 2 then o.aux.foldl (fun s ia => s.l1Drop core ia) s
      else (storeBytes op.kind o).foldl (fun s e => s.l1Update core e.1 e.2) s
    | _ => (storeBytes op.kind o).foldl (fun s e => s.l1Update core e.1 e.2) s) s

/-- What an operation does to the L1 of its core when it issues, or is re-issued (R81, R166). -/
def State.l1Issue (s : State) (core : Nat) (op : AsyncOp) : State :=
  match op.kind with
  | .store _ _ | .storeE _ => s.l1Store core op
  | .atomic _ _ _ _ _ => op.lanes.foldl (fun s o => s.l1Drop core o.ia) s
  | _ => s

/-- ST (R172). In run-ahead the translations are probed only (R77). -/
def Ctx.store (c : Ctx) (s : State) (i : Info) (g : Bool) (d a : Field) (rn : Nat) (sz : Sz) (nregs : Nat) : Act :=
  c.globalOp s i g d a rn .store sz nregs (fun _ => none) fun rc lanes s =>
    let op : AsyncOp :=
      { ctr := .sc, uniform := g, nregs := if sz = .elems then eRegs rc else nregs, lanes
        kind := match sz with | .fixed n => .store n (rbPolicy rc) | _ => .storeE rc }
    if c.wv.ra.isSome then c.async { op with kind := .probe 1 } s
    else
      match c.async op s with
      | .done s => .done (s.l1Issue c.blk.core op)
      | r => r

/-! ### Atomics and reductions -/

/-- The deferred-access list holds no store, atomic or reduction (R75). -/
def Wave.r75 (v : Wave) : Bool :=
  v.deferred.all fun d => match d.op.kind with
    | .store _ _ | .storeE _ | .storeLocal _ | .atomic _ _ _ _ _ | .atomicLocal _ | .remStore _ _ | .remAtomic _ | .tstg _ _ _ _ => false
    | _ => true

/-- A TSTG of the wave has still to merge bytes in L2 (R254). -/
def Wave.tstgPending (v : Wave) : Bool :=
  v.ops.any fun o => match o.kind with
    | .tstg _ _ _ _ => o.lanes.any fun l => l.st == .pending
    | _ => false

/-- An atomic that returns a value, on a global address (R327). -/
def OpKind.returns : OpKind → Bool
  | .atomic _ _ _ ret _ => ret
  | _ => false

/-- An access of the wave that reads memory or a scratchpad for it, into its registers. -/
def OpKind.readsData : OpKind → Bool
  | .load _ _ _ | .loadE _ | .loadLocal _ _ | .atomicLocal _ | .remLoad _ _ | .remAtomic _ | .tex _ _ => true
  | k => k.returns

/-- ATOM, ATOMX and RED (R174–R177). A release atomic waits as R75 and R254 say. -/
def Ctx.atomic (c : Ctx) (s : State) (i : Info) (d a : Field) (rn sc size nregs : Nat) (op : AtomOp) (ret : Bool) : Act :=
  if c.wv.armed.isSome && (!c.wv.r75 || c.wv.tstgPending) && c.wv.ra.isNone then .hold .waitSt s
  else
    c.globalOp s i false d a rn (.atomic ret) (.fixed size) nregs (fun _ => none) fun rc lanes s =>
      let o : AsyncOp :=
        { ctr := if ret then .lc else .sc, nregs := if !ret then 0 else if size = 8 then 2 else 1, lanes
          rel := (match c.wv.armed with | some r => 2 ≤ min r sc | none => false), kind := .atomic op (size == 8) sc ret (rbPolicy rc)
          seq := (s.launchOf c.b).watchSeq, atom := c.wv.nextOp }
      if c.wv.ra.isSome then c.async { o with kind := .probe (if ret then 2 else 3) } s
      else
        match c.async o s with
        | .done s =>
          let s := s.l1Issue c.blk.core o
          let id := c.wv.nextOp
          let s := s.modWv c.b c.w fun v => { v with lastAtom := if ret then some (id, sc) else none }
          .done s
        | r => r

/-! ### Cache operations (R180) -/

/-- The lanes of a cache operation whose access raises nothing: lane, VA and IA. Of the lane's 128 bytes (R162) the addressed
one is held against EXTENT (DESIGN CHOICE, notes/assumptions/67.md). -/
def Ctx.cacheLanes (c : Ctx) (s : State) (a : Field) (rn : Nat) (rc : BitVec 320) : List LaneOp :=
  if !rbRD rc then []
  else ((List.range 32).filter c.active).filterMap fun ln =>
    if rn ≠ 0 && rbExtent rc ≤ c.offset false a rc ln then none
    else match c.map s .load (c.address false a rn rc ln) with
      | .ok ia => some { lane := ln, va := c.address false a rn rc ln, ia }
      | .error _ => none

/-- The record checks of a cache operation, then its effect on the lanes left. -/
def Ctx.cacheOp (c : Ctx) (s : State) (a : Field) (rn : Nat) (f : BitVec 320 → List LaneOp → State → Act) : Act :=
  match c.record s rn with
  | .bad s => .trapIn (c.trap 0x17 (some c.pa.exm) (c.recVa rn)) s
  | .park s => .hold .park s
  | .ok rc s => Act.after s <|
    if rn ≠ 0 && recordMalformed rc then .trap (c.trap 0x17 (some c.pa.exm) (c.recVa rn))
    else f rc (c.cacheLanes s a rn rc) s

/-- Fetch the line of an IA into L2, and into L1 where `l1`; nothing where that faults. `none`: it waits for a way or a link
(R111, R180, R430). -/
def Ctx.prefetch (c : Ctx) (l1 near : Bool) (s : State) (ia : Nat) : Bool × State :=
  match s.paFor c.world ia false with
  | (s, .pa pa) =>
    (match s.l2Load { core := some c.blk.core, world := c.world, ia, pa } with
     | .ok (d, s) =>
       let s := if l1 then s.fillL1 c.blk.core ia d else s
       let die := c.blk.core / 64
       let home := homeSlice (ia / 128 * 128)
       let dest := if die = home / 32 then home else die * 32 + home % 32
       (true, match s.l2line (ia / 128) with
        | some l => if near && l.slice ≠ dest && !s.pinnedLine (ia / 128) l then s.l2Move c.world (ia / 128) dest else s
        | none => s)
     | .error (.park, s) => (false, s.parkWait (c.own 32) ia)
     | .error (.train, s) => (false, s)
     | .error (_, s) => (true, s))
  | (s, _) => (true, s)

/-- PREF and PREFX: lane after lane; `phase` counts the lanes that have been fetched where one waits. -/
def Ctx.prefetchAll (c : Ctx) (l1 near : Bool) : Nat → List LaneOp → State → Act
  | _, [], s => .done s
  | k, o :: os, s =>
    match c.prefetch l1 near s o.ia with
    | (true, s) => Ctx.prefetchAll c l1 near (k + 1) os s
    | (false, s) => .hold .park (s.modPath c.b c.w c.p fun p => { p with phase := k })

end Sys2Proof.Machine
end

