-- ==== Sys2Proof/Machine/Faults.lean ====
section
/-! DEFINITION. Deferred faults: the split of a path (R73, R74, R359), the wait table and its tokens (R80),
the delivery point, run-ahead and fault records (R76–R79, R83), rings (R457), release and REPLAY (R81,
R86), and late errors (R169). -/

namespace Sys2Proof.Machine

open Sys2Proof

/-- Bit `p` of an 8-bit set. -/
def setBit8 (x : BitVec 8) (p : Nat) (v : Bool) : BitVec 8 := if v then x ||| (1#8 <<< p) else x &&& ~~~(1#8 <<< p)

/-! ### Rings (R79, R457) -/

/-- How an append to a ring ends. -/
inductive RingRes where
  | done | full | dropped
deriving DecidableEq, Repr, Inhabited

/-- The header of a ring of the G96 (R79, R277, R417, R444). -/
structure RingHdr where
  base : Nat
  cap : Nat
  head : Nat
  tail : Nat
  drops : Nat
  zero : Bool
deriving DecidableEq, Repr, Inhabited

def ringHdr (bs : List Byte) : RingHdr :=
  let r := BitVec.ofNat 512 (leNat bs)
  { base := fld r 63 0, cap := fld r 95 64, head := fld r 127 96, tail := fld r 159 128, drops := fld r 191 160
    zero := fld r 511 192 == 0 }

/-- Well formed (R457): no reserved bit, CAP a power of two within its range, BASE aligned, no overrun. -/
def RingHdr.ok (h : RingHdr) (lo hi align : Nat) : Bool :=
  h.zero && lo ≤ h.cap && h.cap ≤ hi && h.cap == 2 ^ Nat.log2 h.cap && h.base % align == 0 &&
    (h.tail + 2 ^ 32 - h.head) % 2 ^ 32 ≤ h.cap

/-- One more in the drop count of a ring, saturating, where its header can be written (R457). -/
def State.ringDrop (s : State) (world hia : Nat) : State :=
  match s.readIA none world (hia + 20) 5 4 with
  | .ok (bs, s) =>
    (match s.writeIA world (hia + 20) 5 (natBytes 4 (min (leNat bs + 1) (2 ^ 32 - 1))) with
     | .ok s => s
     | .error e => e.2)
  | .error e => e.2

/-- Append an entry to a ring whose header is at an IA and whose BASE maps to IA by `map`. `entry` gives
the bytes from TAIL. A ring that cannot be used drops the entry and logs it (R457); a full one is the
caller's matter. -/
def State.ringAppend (s : State) (world hia lo hi align size : Nat) (map : Nat → Option Nat) (entry : Nat → List Byte) :
    RingRes × State :=
  let fail (s : State) : RingRes × State := (.dropped, (s.ringDrop world hia).log 1 none none world hia)
  match s.readIA none world hia 65 64 with
  | .error e => fail e.2
  | .ok (bs, s) =>
    let h := ringHdr bs
    if !h.ok lo hi align then fail s
    else if (h.tail + 2 ^ 32 - h.head) % 2 ^ 32 = h.cap then (.full, s)
    else
      match map (h.base + h.tail % h.cap * size) with
      | none => fail s
      | some ia =>
        match s.writeIA world ia (size + 1) (entry h.tail) with
        | .error e => fail e.2
        | .ok s =>
          match s.writeIA world (hia + 16) 5 (natBytes 4 (h.tail + 1)) with
          | .error e => fail e.2
          | .ok s => (.done, s)

/-! ### The wait table (R80) -/

/-- An entry is in use by a FAULT path or by SCWAIT. -/
def State.keyUsed (s : State) (core idx : Nat) : Bool :=
  (s.wavesOn core).any fun bw =>
    let v := s.wv bw.1 bw.2
    v.st == .live && (v.scKeys.contains idx || v.deferred.any (fun d => d.keys.contains idx) ||
      v.paths.any fun p => p.live && p.parkedAt.contains idx)

/-- Free the entries under which nothing is parked: their generation goes up. Those in `keep` stay. -/
def State.pruneKeys (s : State) (core : Nat) (keep : List Nat := []) : State :=
  let dead := ((s.core core).wait.filter fun e => e.2.isSome && !s.keyUsed core e.1 && !keep.contains e.1).map Prod.fst
  s.modCore core fun c =>
    { c with
      wait := c.wait.filter fun e => !dead.contains e.1
      waitGen := dead.foldl (fun g i => SMap.put 0 g i ((SMap.get 0 g i + 1) % 128)) c.waitGen }

/-- Take the entry of a key: the one that holds it, or a free one. `keep` are entries already taken for the same access. -/
def State.takeKey (s : State) (core : Nat) (k : WaitKey) (keep : List Nat := []) : Option Nat × State :=
  let s := s.pruneKeys core keep
  let t := (s.core core).wait
  match t.find? (fun e => match e.2 with | some x => x.key == k | none => false) with
  | some e => (some e.1, s)
  | none =>
    let free := (List.range 512).filter fun i => (SMap.get none t i).isNone
    if free = [] then (none, s)
    else
      let (n, s) := s.freeNat free.length
      let i := free.getD n 0
      (some i, s.modCore core fun c => { c with wait := SMap.put none c.wait i (some { key := k }) })

/-- CORE × 2^16 + generation × 2^9 + index. -/
def State.waitToken (s : State) (core idx : Nat) : Nat :=
  core * 2 ^ 16 + SMap.get 0 (s.core core).waitGen idx * 2 ^ 9 + idx

/-! ### The deferred-access list (R73, R74, R168) -/

/-- KIND of R78 and R168. -/
def OpKind.faultKind : OpKind → Nat
  | .load _ _ _ | .loadE _ | .loadLocal _ _ | .migr => 0
  | .store _ _ | .storeE _ | .storeLocal _ | .evict => 1
  | .atomic _ _ _ ret _ => if ret then 2 else 3
  | .atomicLocal _ => 2
  | .probe k => k
  | .fetch => 4
  | .remStore _ _ | .remLoad _ _ | .remAtomic _ => 5
  | .tldg _ _ _ _ => 0
  | .tstg _ _ _ _ => 1
  | _ => 6

/-- An operation that writes registers (R36). -/
def OpKind.hasDst : OpKind → Bool
  | .store _ _ | .storeE _ | .storeLocal _ | .remStore _ _ | .evict | .tst _ _ | .stkPush | .probe _ | .fetch | .sctick => false
  | _ => true

/-- The fault a lane has received: cause, subcause, VA and IA. -/
def LaneOp.fault? (o : LaneOp) : Option (Nat × Nat × DWord × Nat) :=
  match o.st with
  | .faulted c k va ia => some (c, k, va, ia)
  | _ => none
def LaneOp.granule (o : LaneOp) : Nat := match o.fault? with | some (_, _, _, ia) => ia / 65536 | none => 0

/-- Put an access into the list in issue order. Lanes of one access that fault later in the same FAULT path join its
entry, which stays one deferred access (R73, R76). -/
def insDeferred (d : Deferred) : List Deferred → List Deferred
  | [] => [d]
  | e :: t =>
    if d.op.id < e.op.id then d :: e :: t
    else if d.op.id = e.op.id ∧ d.path = e.path ∧ !e.recorded then
      { e with op := { e.op with lanes := sortBy (fun x y => x.lane ≤ y.lane) (e.op.lanes ++ d.op.lanes) }
               keys := e.keys ++ d.keys.filter fun k => !e.keys.contains k } :: t
    else e :: insDeferred d t

/-- A late error: the wave, or the lane's path, has ended (R169). -/
def State.lateError (s : State) (b : Nat) (o : LaneOp) : State :=
  match o.fault? with
  | some (c, k, va, _) =>
    (s.logFault (c, k) (some (s.blk b).core) (s.launchOf b).world va.toNat).errorCompletion (s.blk b).launch
  | none => s

/-- Append lanes of an operation to the list of FAULT path `p`, taking their wait-table entries (R73, R80). -/
def State.attach (s : State) (b w p : Nat) (op : AsyncOp) (lanes : List LaneOp) : State :=
  let core := (s.blk b).core
  let world := (s.launchOf b).world
  let (keys, missing, s) := (lanes.map LaneOp.granule).dedup.foldl
    (fun (r : List Nat × Bool × State) g =>
      match r.2.2.takeKey core (.granule world g) r.1 with
      | (some i, s) => (r.1 ++ [i], r.2.1, s)
      | (none, s) => (r.1, true, s)) (([] : List Nat), false, s)
  s.modWv b w fun v =>
    { v with
      deferred := insDeferred { op := { op with lanes }, path := p, kind := op.kind.faultKind, keys } v.deferred
      paths := v.paths.modify p fun x => { x with wtFull := x.wtFull || missing } }

/-! ### The splits (R73, R359) -/

/-- The path is FAULT, or HELD and was FAULT. -/
def Path.isFault (p : Path) : Bool := p.st == .fault || (p.st == .held && p.hst == .fault)
/-- Give a path a state, through its hold if it is HELD. -/
def Path.setSt (p : Path) (x : PathSt) : Path := if p.st == .held then { p with hst := x } else { p with st := x }
/-- A path of `pa`'s wave, at its place, with other lanes and another parent. -/
def Path.split (pa : Path) (st : PathSt) (mode : MeldMode) (full : Word) (parent : Nat) : Path :=
  Path.setSt
    { pa with
      hst := .free, waitOn := .none, join := 0, parent := some parent, mode, full, exm := pa.exm &&& full
      side := if mode = .sideB then full else 0
      ymark := false, parkedAt := [], parked := false, wtFull := false, retrying := false, blocked := none } st

/-- R359: the lanes `m` of melded path `i` fault; the paths that hold FA and FB are returned with their lanes. The lanes
that have not faulted again of a path that RETRY has released stay FAULT until their accesses have returned (R81). -/
def meldSplit (ps : List Path) (i : Nat) (m : Word) : List Path × List (Nat × Word) :=
  let p := ps.getD i default
  let rb := p.full &&& p.side &&& ~~~m
  let ra := p.full &&& ~~~p.side &&& ~~~m
  let fb := m &&& p.side
  let fa := m &&& ~~~p.side
  let child := (List.range 8).find? fun j =>
    let x := ps.getD j default
    x.isFault && x.parent == some i && x.mode == .sideA
  let joins := child.isSome && fa ≠ 0
  let groups : List (Nat × Word × PathSt × MeldMode) :=
    [(0, ra, if p.retrying then .fault else .run, .sideA), (1, rb, if p.retrying then .fault else .run, .sideB),
      (2, fa, .fault, .sideA), (3, fb, .fault, .sideB)]
  let need := groups.filter fun g => g.2.1 ≠ 0 && !(g.1 == 2 && joins)
  match need with
  | [] =>
    match child with
    | some j => ((ps.modify i fun x => { x with full := 0, exm := 0 }).modify j fun x =>
        { x with full := x.full ||| fa, exm := x.exm ||| (p.exm &&& fa) }, [(j, fa)])
    | none => (ps.modify i fun x => x.setSt .fault, [(i, m)])
  | first :: later =>
    let free := freeEntries ps
    if free.length < later.length then (ps.modify i fun x => x.setSt .fault, [(i, m)])
    else
      let taken := later.zip free
      let q := if first.1 = 1 then some i else (taken.find? fun e => e.1.1 == 1).map Prod.snd
      let ps := taken.foldl (fun ps e =>
        let par := if e.1.1 = 3 then q.getD i else i
        ps.set e.2 { p.split e.1.2.2.1 e.1.2.2.2 e.1.2.1 par with retrying := p.retrying && e.1.1 < 2 }) ps
      let ps := match child with
        | some j => if joins then ps.modify j fun x => { x with full := x.full ||| fa, exm := x.exm ||| (p.exm &&& fa) } else ps
        | none => ps
      let ps := ps.modify i fun x =>
        Path.setSt { x with full := first.2.1, exm := x.exm &&& first.2.1, mode := first.2.2.2, retrying := x.retrying && first.1 < 2
                            side := if first.2.2.2 = .sideB then first.2.1 else 0 } first.2.2.1
      let at3 (k : Nat) : List (Nat × Word) :=
        if first.1 = k then [(i, first.2.1)]
        else match taken.find? (fun e => e.1.1 == k) with | some e => [(e.2, e.1.2.1)] | none => []
      (ps, (match child with | some j => if joins then [(j, fa)] else at3 2 | none => at3 2) ++ at3 3)

/-- R73, R359, R394: the lanes `m` of path `i` have received a deferred fault. The paths that own the faulted
lanes afterwards are returned with them. Lanes join a FAULT path that exists, even the last lanes of their path, unless
the access is `once` for the whole path. -/
def faultSplit (v : Wave) (i : Nat) (m : Word) (once : Bool) : List Path × List (Nat × Word) :=
  let ps := v.paths
  let p := ps.getD i default
  let tpath := v.tinfo.getLsbD 31 && v.tinfo.toNat % 8 == i
  if p.isFault && (!p.retrying || v.deferred.any fun d => d.path == i && !d.again) then (ps, [(i, m)])
  else if p.mode == .melded && !tpath then meldSplit ps i m
  else
    let whole := (ps.modify i fun x => x.setSt PathSt.fault, [(i, m)])
    let move (ps : List Path) := ps.modify i fun x => { x with full := x.full &&& ~~~m, exm := x.exm &&& ~~~m }
    match (List.range 8).find? fun j => (ps.getD j default).isFault && (ps.getD j default).parent == some i &&
        (ps.getD j default).mode == p.mode && !tpath with
    | some j =>
      if once then whole
      else ((move ps).modify j fun x => { x with full := x.full ||| m, exm := x.exm ||| (p.exm &&& m) }, [(j, m)])
    | none =>
      if m = p.full || tpath then whole
      else
        match freeEntries ps with
        | [] => whole
        | j :: _ => ((move ps).set j (p.split .fault p.mode m i), [(j, m)])

/-- One access for every lane of the issuing path: a uniform access, and the command read of a MIGR (R88, R168). -/
def AsyncOp.once (o : AsyncOp) : Bool := o.uniform || o.kind == .migr

/-- The faulted lanes of an operation leave their paths (R73). -/
def State.deferLanes (s : State) (b w : Nat) (op : AsyncOp) (lanes : List LaneOp) : State :=
  if lanes = [] then s
  else if (s.wv b w).st != .live then lanes.foldl (fun s o => s.lateError b o) s
  else
    let lane (o : LaneOp) : Nat := if op.once then op.lead else o.lane
    let owner (s : State) (o : LaneOp) : Option Nat :=
      if op.once && op.lead == 32 then (if ((s.wv b w).path op.path).live then some op.path else none)
      else (List.range 8).find? fun i => ((s.wv b w).path i).live && bitAt ((s.wv b w).path i).full (lane o)
    let lost := lanes.filter fun o => (owner s o).isNone
    let s' := lost.foldl (fun s o => s.lateError b o) s
    (List.range 8).foldl (fun s' i =>
      let mine := lanes.filter fun o => owner s o == some i
      if mine = [] then s'
      else
        let m := if op.once then ((s.wv b w).path i).full else maskOf fun l => mine.any fun o => o.lane == l
        let (ps, own) := faultSplit (s'.wv b w) i m op.once
        let s' := s'.modWv b w fun v => { v with paths := ps }
        own.foldl (fun s' (e : Nat × Word) =>
          s'.attach b w e.1 op (mine.filter fun o => op.once || bitAt e.2 o.lane)) s') s'

/-! ### Operations of a wave -/

def Wave.op? (v : Wave) (id : Nat) : Option AsyncOp := v.ops.find? fun o => o.id == id
def Wave.modOp (v : Wave) (id : Nat) (f : AsyncOp → AsyncOp) : Wave :=
  { v with ops := v.ops.map fun o => if o.id = id then f o else o }
def State.modOp (s : State) (b w id : Nat) (f : AsyncOp → AsyncOp) : State := s.modWv b w fun v => v.modOp id f
def State.modLane (s : State) (b w id lane : Nat) (f : LaneOp → LaneOp) : State :=
  s.modOp b w id fun o => { o with lanes := o.lanes.map fun l => if l.lane = lane then f l else l }

/-- An operation belongs to the run-ahead in progress. -/
def Wave.isRa (v : Wave) (id : Nat) : Bool := match v.ra with | some r => r.pend.contains id | none => false

/-- Remove an operation all of whose lanes have returned, lowering its counter once (R25, R165). -/
def State.retire (s : State) (b w id : Nat) : State :=
  s.modWv b w fun v =>
    match v.op? id with
    | none => v
    | some o =>
      if o.lanes.all fun l => l.st == .returned then
        let v' := { v with ops := v.ops.filter fun x => x.id != id }
        if v.isRa id then { v' with ra := v'.ra.map fun r => { r with pend := r.pend.filter (· != id) } }
        else v'.setCtr o.ctr (v'.ctr o.ctr - 1)
      else v

/-- A fault found by run-ahead in one lane (R77, R78). -/
def RunAhead.note (r : RunAhead) (known : List Nat) (op : AsyncOp) (kind lane : Nat) (f : Nat × Nat × DWord × Nat) : RunAhead :=
  let g := f.2.2.2 / 65536
  let bit : Word := maskOf (· == lane)
  match r.found.find? (fun x => x.granule == g && x.op == op.id) with
  | some x =>
    let y := if (lanesOf x.lanes).all (lane < ·) then { x with va := f.2.2.1, ia := f.2.2.2, cause := f.1, sub := f.2.1 } else x
    { r with found := r.found.map fun z => if z = x then { y with lanes := x.lanes ||| bit } else z }
  | none =>
    let new : Found :=
      { granule := g, lanes := bit, va := f.2.2.1, ia := f.2.2.2, cause := f.1, sub := f.2.1, kind, pc := op.pc, op := op.id
        known := known.contains g || r.found.any fun x => x.granule == g }
    { r with found := r.found ++ [new] }

/-- Granules of the deferred-access list. -/
def Wave.deferredGranules (v : Wave) : List Nat := (v.deferred.flatMap fun d => d.op.lanes.map LaneOp.granule).dedup

/-- The faulted lanes of an operation are taken out of it: they count as returned (R74), and leave their paths
or are noted by run-ahead. -/
def State.splitFaults (s : State) (b w id : Nat) : State :=
  match (s.wv b w).op? id with
  | none => s
  | some op =>
    let bad := op.lanes.filter fun o => o.fault?.isSome
    if bad = [] then s
    else
      let s := s.modOp b w id fun o => { o with lanes := o.lanes.map fun l => if l.fault?.isSome then { l with st := .returned } else l }
      let s := if (s.wv b w).isRa id then
          s.modWv b w fun v =>
            let known := v.deferredGranules
            { v with ra := v.ra.map fun r =>
                let r := bad.foldl (fun r o => match o.fault? with
                  | some f => r.note known op op.kind.faultKind o.lane f
                  | none => r) r
                if 64 ≤ (known ++ r.found.map Found.granule).dedup.length then { r with ended := true } else r }
        else s.deferLanes b w op bad
      s.retire b w id

/-- Every split that is due in the waves of a core (R82: fault reports arrive before a later REPLAY). -/
def State.splitAll (s : State) (core : Nat) : State :=
  (s.wavesOn core).foldl (fun s bw =>
    ((s.wv bw.1 bw.2).ops.map AsyncOp.id).foldl (fun s id => s.splitFaults bw.1 bw.2 id) s) s

/-! ### Release (R81, R86) -/

/-- One access of many rows, of which every faulting granule is kept as a part of its own (R254). -/
def AsyncOp.whole (o : AsyncOp) : Bool := match o.kind with | .tldg _ _ _ _ | .tstg _ _ _ _ => true | _ => false

/-- Re-issue the deferred accesses of a released path in their original order, as far as their counters go (R25, R81). An
atomic stays the one that a fence may make an acquire (`AsyncOp.atom`, R327). -/
def Wave.reissue (v : Wave) (p : Nat) : Nat → Wave
  | 0 => v
  | fuel + 1 =>
    match v.deferred.find? fun d => d.path == p && d.again with
    | none => v
    | some d =>
      let v' := { v with deferred := v.deferred.erase d }
      if d.op.kind == .fetch then v'.reissue p fuel
      else if 63 ≤ v.ctr d.op.ctr then v
      else
        let op := { d.op with id := v.nextOp, path := p, retry := true, phase := 0,
                              lanes := (if d.op.whole then d.op.lanes.take 1 else d.op.lanes).map fun l => { l with st := .pending, res := [] } }
        (({ v' with ops := v'.ops ++ [op], nextOp := v'.nextOp + 1 }).setCtr op.ctr (v.ctr op.ctr + 1)).reissue p fuel

/-- The operations that the re-issue of a released path's accesses has entered, and what they do to L1 (R166). -/
def State.reissue (s : State) (b w p : Nat) : State :=
  let v := s.wv b w
  let s := s.modWv b w fun v => v.reissue p (v.deferred.length + 1)
  ((s.wv b w).ops.drop v.ops.length).foldl (fun s op => s.l1Issue (s.blk b).core op) s

/-- Release a FAULT path for RETRY: its deferred accesses are issued again in their original order. -/
def State.release (s : State) (b w p : Nat) : State :=
  (s.modWv b w fun v =>
    { v with
      deferred := v.deferred.map fun d => if d.path = p then { d with again := true, recorded := true, keys := [] } else d
      paths := v.paths.modify p fun x => { x with retrying := true, parked := false, parkedAt := [], wtFull := false } }).reissue b w p

/-- Every entry a FAULT path references has been replayed (R81). -/
def State.allReplayed (s : State) (b w p : Nat) : Bool :=
  let keys := ((s.wv b w).deferred.filter fun d => d.path == p).flatMap Deferred.keys
  keys ≠ [] && keys.all fun i =>
    match SMap.get none (s.core (s.blk b).core).wait i with
    | some e => e.replayed ≠ 0
    | none => true

/-- A FAULT path takes the trap of its earliest deferred access (R86, R394). -/
def State.deliver (s : State) (b w p : Nat) : State :=
  let v := s.wv b w
  let pa := v.path p
  match v.deferred.filter fun d => d.path == p with
  | [] => s
  | d :: _ =>
    let (code, sub, va) := match d.op.lanes.findSome? LaneOp.fault? with
      | some (c, k, va, _) => (c, k, va)
      | none => (0x10, 0, 0)
    let s := s.modWv b w fun v =>
      { v with
        deferred := v.deferred.filter fun d => d.path != p
        pendDeliver := setBit8 v.pendDeliver p false
        paths := v.paths.modify p fun x => { x with st := .run, parked := false, parkedAt := [], wtFull := false } }
    s.takeTrap b w p { code, sub, pc := pa.pc, cpos := pa.cpos, hdr := if pa.cpos = 0 then 0 else pa.hdr, mask := some pa.full, va }

/-- An event of path `p` need not wait for the end of handler mode: the wave is not in it, or the path is its own (R394). -/
def Wave.mayTake (v : Wave) (p : Nat) : Bool := !v.tinfo.getLsbD 31 || v.tinfo.toNat % 8 == p

/-- A DELIVER reaches a FAULT path: taken at once, or queued while the wave is in handler mode on another path, while the
path is HELD, or while an SWR of MEXT holds the wave (R343, R393, R394). -/
def State.deliverOrQueue (s : State) (b w p : Nat) : State :=
  let v := s.wv b w
  if !v.mayTake p || (v.path p).st == .held || s.mextHeld b w then
    s.modWv b w fun v => { v with pendDeliver := setBit8 v.pendDeliver p true }
  else s.deliver b w p

/-- The queued DELIVER releases that need not wait for the end of handler mode, in ascending path order: the first that
takes the wave there leaves the others queued (R394). -/
def State.takeDelivers (s : State) (b w : Nat) : State :=
  (List.range 8).foldl (fun s p =>
    let v := s.wv b w
    if v.pendDeliver.getLsbD p && v.mayTake p && (v.path p).st == .fault then s.deliver b w p else s) s

/-- The FAULT paths of a wave whose entries have all been replayed are released, or take their traps where one of the
entries was replayed with DELIVER (R81, R82, R86). In run-ahead that waits for the checkpoint. -/
def State.wakeReplayed (s : State) (b w : Nat) : State :=
  (List.range 8).foldl (fun s p =>
    let v := s.wv b w
    let pa := v.path p
    if v.st == .live && v.ra.isNone && pa.isFault && !pa.retrying && !pa.wtFull && s.allReplayed b w p then
      let keys := (v.deferred.filter fun d => d.path == p).flatMap Deferred.keys
      if keys.any fun i => match SMap.get none (s.core (s.blk b).core).wait i with | some e => e.replayed == 2 | none => false
      then s.deliverOrQueue b w p else s.release b w p
    else s) s

/-- After a replay: the FAULT paths of a core that it releases, those without an entry among them, parked or not (R80, R82).
`hit` is the entry it marked; `deliver` its disposition. What concerns a wave in run-ahead waits for its checkpoint to come back (R77, R82). -/
def State.wakeCore (s : State) (core : Nat) (hit : List Nat) (deliver : Bool) : State :=
  (s.wavesOn core).foldl (fun s bw =>
    (List.range 8).foldl (fun s p =>
      let v := s.wv bw.1 bw.2
      let pa := (match v.ra with | some r => r.savedPaths | none => v.paths).getD p default
      if v.st != .live || !pa.isFault || pa.retrying then s
      else
        let keys := (v.deferred.filter fun d => d.path == p).flatMap Deferred.keys
        let full := pa.wtFull
        if v.ra.isSome then
          if full || (deliver && keys.any hit.contains) then
            s.modWv bw.1 bw.2 fun v => { v with ra := v.ra.map fun r => { r with woken := r.woken ++ [(p, deliver)] } }
          else s
        else if deliver && (full || keys.any hit.contains) then s.deliverOrQueue bw.1 bw.2 p
        else if !deliver && (full || (!pa.wtFull && s.allReplayed bw.1 bw.2 p)) then s.release bw.1 bw.2 p
        else s) s) s

/-- REPLAY_APPLY (R86): the oldest REPLAY on its way to a core is applied there; SC falls in its wave when every
core has applied it. -/
def execReplayApply (core : Nat) (s : State) : Host.Outcome State Fault Refusal :=
  match (s.core core).replays with
  | [] => .next s
  | (b, w, id) :: rest =>
    let s := (s.splitAll core).modCore core fun c => { c with replays := rest }
    match (s.wv b w).op? id with
    | none => .next s
    | some op =>
      let ctl := match op.kind with | .replay c => c | _ => 0
      let addr := ((op.lanes.headD {}).addr).toNat
      let world := fld ctl 15 12
      let deliver := ctl.getLsbD 17
      let t := (s.core core).wait
      let hit : List Nat :=
        if ctl.getLsbD 16 then
          let i := addr % 512
          (match SMap.get none t i with
           | some e =>
             (match e.key with
              | .granule w' _ => if w' = world && SMap.get 0 (s.core core).waitGen i = addr / 512 % 128 then [i] else []
              | .token _ => [])
           | none => [])
        else (t.filter fun e => match e.2 with | some x => x.key == .granule world (addr / 65536) | none => false).map Prod.fst
      let s := s.modCore core fun c =>
        { c with wait := c.wait.map fun e => if hit.contains e.1 then (e.1, e.2.map fun x => { x with replayed := if deliver then 2 else 1 }) else e }
      let s := s.wakeCore core hit deliver
      let s := s.modOp b w id fun o => { o with phase := o.phase - 1 }
      .next (if op.phase ≤ 1 then
          (s.modOp b w id fun o => { o with lanes := o.lanes.map fun l => { l with st := .returned } }).retire b w id
        else s)

/-- A re-issued access of path `p` has not returned yet. -/
def Wave.retryLeft (v : Wave) (p : Nat) : Bool :=
  v.ops.any fun o => o.retry &&
    if o.once && o.lead == 32 then o.path == p
    else if o.once then o.path == p || bitAt (v.path p).full o.lead || (v.path p).parent == some o.path
    else o.lanes.any fun l => bitAt (v.path p).full l.lane

/-- FAULT_PATH_RESUME (R81): accesses that wait for their counter are re-issued; when all have returned the path goes on,
or, where one has faulted again, is to reach a new delivery point. -/
def execFaultPathResume (b w p : Nat) (s : State) : Host.Outcome State Fault Refusal :=
  let v := s.wv b w
  let pa := v.path p
  if !(pa.isFault && pa.retrying) then .next s
  else if v.deferred.any fun d => d.path == p && d.again then .next (s.reissue b w p)
  else if v.retryLeft p then .next s
  else if v.deferred.any fun d => d.path == p then
    .next ((s.modPath b w p fun x => { x with retrying := false }).wakeReplayed b w)
  else
    let s := s.modWv b w fun v =>
      { v with paths := resolveJoins (v.paths.modify p fun x =>
          { x.setSt (if x.waitOn = .none then .run else .wait) with retrying := false, blocked := some .fetch, again := true }) }
    .next ((s.checkBars b).checkCbars b)

/-- DEFERRED_FAULT_SPLIT (R73). -/
def execDeferredFaultSplit (b w op : Nat) (s : State) : Host.Outcome State Fault Refusal :=
  .next ((s.splitFaults b w op).wakeReplayed b w)

/-! ### The delivery point (R76–R79) -/

/-- Path `p` is RUN, nothing is known to hold its next word, and neither handler mode nor a waiting fence keeps the
wave for another path (R326, R338, R394). -/
def Wave.mayIssue (v : Wave) (p : Nat) : Bool :=
  let x := v.path p
  x.st == .run && x.acq.isNone && (x.blocked.isNone || x.again) && (!v.tinfo.getLsbD 31 || v.tinfo.toNat % 8 == p) && (v.excl.isNone || v.excl == some p)

/-- No path of the wave can issue, and every counter is zero. -/
def Wave.atRest (v : Wave) : Bool :=
  v.lc == 0 && v.sc == 0 && v.cc == 0 && v.mc == 0 && (List.range 8).all fun p => !v.mayIssue p

/-- FAULT paths whose accesses have no records yet. -/
def Wave.unrecorded (v : Wave) : List Nat :=
  (List.range 8).filter fun p => (v.path p).isFault && !(v.path p).retrying && v.deferred.any fun d => d.path == p && !d.recorded

/-- The lowest-numbered FAULT path, which runs ahead (R77); a HELD path is none (R343). -/
def Wave.lowestFault (v : Wave) : Option Nat := (List.range 8).find? fun p => (v.path p).st == .fault

/-- The rows of the block's v storage that belong to a wave: its base set, and the extended set it holds. -/
def Block.waveRows (k : Block) (nw B X w : Nat) (r : Nat) : Bool :=
  (w * B ≤ r && r < w * B + B) ||
    (SMap.get none k.xlock (w / 2) == some w && nw * B + w / 2 * X ≤ r && r < nw * B + w / 2 * X + X)

/-- DELIVERY_POINT (R76, R77): checkpoint the wave and run ahead of its lowest FAULT path. A wave whose FAULT paths are all
HELD reaches it when one of them resumes (notes/assumptions/69.md). -/
def execDeliveryPoint (b w : Nat) (s : State) : Host.Outcome State Fault Refusal :=
  let v := s.wv b w
  if v.st != .live || v.ra.isSome || v.delivering || !v.atRest || v.paths.any Path.retrying || (s.blk b).stopping then .next s
  else
    match v.unrecorded, v.lowestFault with
    | [], _ | _, none => .next s
    | _ :: _, some p =>
      let c := s.ctxAt b w p
      let inval (v : Wave) : List Nat × List Nat :=
        v.deferred.foldl (fun r d =>
          if !d.op.kind.hasDst then r
          else if d.op.uniform then
            (r.1, r.2 ++ d.op.lanes.flatMap fun o => (List.range d.op.nregs).map (o.dst + ·))
          else (r.1 ++ d.op.lanes.flatMap (fun o => (List.range d.op.nregs).map fun j => (o.dst + j) * 32 + o.lane), r.2)) (([] : List Nat), ([] : List Nat))
      .next (s.modWv b w fun v =>
        { v with
          delivering := true
          ra := some
            { path := p, ended := 64 ≤ v.deferredGranules.length
              badV := (inval v).1, badG := (inval v).2
              savedV := c.blk.v.filter fun e => c.blk.waveRows c.nw c.B c.X w e.1
              savedG := v.g, savedQ := v.q, savedPaths := v.paths, savedRename := v.rename }
          paths := v.paths.modify p fun x => { x with st := .run, waitOn := .none, acq := none, blocked := none, phase := 0 } })

/-- A fault record (R78). -/
def faultRecord (seq blockid index nbatch batch kind asid path slot core : Nat) (wtfull ra multi : Bool)
    (sub cause token : Nat) (lanes : Word) (pc : DWord) (ia : Nat) (va : DWord) : List Byte :=
  natBytes 64 (va.toNat + ia % 2 ^ 52 * 2 ^ 64 + pc.toNat * 2 ^ 128 + lanes.toNat * 2 ^ 192 + token % 2 ^ 24 * 2 ^ 224 +
    cause * 2 ^ 248 + sub * 2 ^ 256 + multi.toNat * 2 ^ 264 + ra.toNat * 2 ^ 265 + wtfull.toNat * 2 ^ 266 + core * 2 ^ 272 +
    slot * 2 ^ 280 + path * 2 ^ 288 + asid * 2 ^ 296 + kind * 2 ^ 312 + batch % 2 ^ 16 * 2 ^ 320 + nbatch % 256 * 2 ^ 336 +
    index % 256 * 2 ^ 344 + blockid % 2 ^ 32 * 2 ^ 352 + seq % 2 ^ 32 * 2 ^ 384)

/-- The records of a delivery point, SEQ still zero: one for each pair of deferred access and granule, then one for each
page that run-ahead found (R76, R78). A path without an entry has WTFULL in all its records (R80). -/
def State.faultRecords (s : State) (b w : Nat) (found : List Found) (raPath : Nat) : List (BitVec 512) :=
  let v := s.wv b w
  let blk := s.blk b
  let lr := (s.launchOf b).record
  let due := v.deferred.filter fun d => !d.recorded
  let raw : List (Nat → Nat → List Byte) :=
    (due.flatMap fun d =>
      let gs := (d.op.lanes.map LaneOp.granule).dedup
      gs.map fun g =>
        let ls := d.op.lanes.filter fun o => o.granule == g
        let f := ((ls.headD {}).fault?).getD (0, 0, 0, 0)
        let pa := v.path d.path
        let key := if pa.wtFull then none else d.keys.find? fun i => match SMap.get none (s.core blk.core).wait i with
          | some e => (match e.key with | .granule _ g' => g' == g | .token _ => false)
          | none => false
        let mask := if d.op.once then pa.full else maskOf fun l => ls.any fun o => o.lane == l
        let pc := d.op.pc
        fun idx n => faultRecord 0 blk.idx idx n v.faultBatch d.kind (recAsid lr) d.path v.slot blk.core pa.wtFull false
          (1 < gs.length) f.2.1 f.1 (match key with | some i => s.waitToken blk.core i | none => 0) mask pc f.2.2.2 f.2.2.1) ++
    ((found.filter fun x => !x.known).map fun x =>
      let multi := 1 < (found.filter fun y => y.op == x.op).length
      fun idx n => faultRecord 0 blk.idx idx n v.faultBatch x.kind (recAsid lr) raPath v.slot blk.core false true multi
        x.sub x.cause 0 x.lanes x.pc x.ia x.va)
  raw.zipIdx.map fun e => BitVec.ofNat 512 (leNat (e.1 e.2 raw.length))

/-- Append one fault record to the ring of the wave's world (R79). A BASE outside the world's region leaves the record
array nowhere to lie, and counts as one that is not aligned (notes/assumptions/67.md). -/
def State.writeRecord (s : State) (world : Nat) (r : BitVec 512) : RingRes × State :=
  s.ringAppend world (wrFria (s.world world).record) 64 65536 4096 64 (fun a => if iaRegion a = world then some a else none)
    fun tail => natBytes 64 (setFld r 415 384 tail).toNat

/-- Write the records that a wave has due; a full ring leaves the rest waiting (R79). -/
def State.writeRecords (s : State) (b w : Nat) : Nat → State
  | 0 => s
  | n + 1 =>
    match (s.wv b w).ringWait with
    | [] => s
    | r :: rest =>
      match s.writeRecord (s.launchOf b).world r with
      | (.full, s) => s
      | (_, s) => State.writeRecords (s.modWv b w fun v => { v with ringWait := rest }) b w n

/-- The records are written: the FAULT paths whose accesses have theirs park under their entries (R76, R80). -/
def State.parkFaults (s : State) (b w : Nat) : State :=
  if (s.wv b w).ringWait ≠ [] then s
  else s.modWv b w fun v =>
    { v with
      delivering := false
      deferred := v.deferred.map fun d => { d with keys := if d.recorded && (v.path d.path).wtFull then [] else d.keys }
      paths := v.paths.mapIdx fun i x =>
        if x.isFault && !x.retrying && v.deferred.all fun d => d.path != i || d.recorded then
          { x with parked := true
                   parkedAt := if x.wtFull then [] else ((v.deferred.filter fun d => d.path == i).flatMap Deferred.keys).dedup }
        else x }

/-- A wave that still has records to write has found the ring full (R79). -/
def State.ringFound (s : State) (b w : Nat) : State :=
  if (s.wv b w).ringWait = [] then s else s.ringDrop (s.launchOf b).world (wrFria (s.world (s.launchOf b).world).record)

/-- RUN_AHEAD_END (R77, R76 steps 2–4): the checkpoint comes back, of the path table the entry of the path that ran ahead;
what the other paths have met meanwhile, such as the end of a barrier, stands. The records are written, the paths park; a path
that a REPLAY has reached meanwhile is released (R82). -/
def execRunAheadEnd (b w : Nat) (s : State) : Host.Outcome State Fault Refusal :=
  match (s.wv b w).ra with
  | none => .next s
  | some r =>
    if !r.ended || r.pend ≠ [] then .next s
    else
      let c := s.ctxAt b w r.path
      let s := s.modBlk b fun k =>
        { k with v := r.savedV.foldl (fun v e => SMap.ins e.1 e.2 v) (k.v.filter fun e => !k.waveRows c.nw c.B c.X w e.1) }
      let s := s.modWv b w fun v => { v with g := r.savedG, q := r.savedQ, paths := v.paths.set r.path (r.savedPaths.getD r.path default), rename := r.savedRename, ra := none }
      let recs := s.faultRecords b w r.found r.path
      let s := s.modWv b w fun v =>
        { v with
          ringWait := recs, faultBatch := (v.faultBatch + 1) % 2 ^ 16
          deferred := v.deferred.map fun d => { d with recorded := true } }
      let s := (s.writeRecords b w (recs.length + 1)).ringFound b w
      let s := (s.parkFaults b w).wakeReplayed b w
      .next (r.woken.foldl (fun s e =>
        let pa := (s.wv b w).path e.1
        if !pa.isFault || pa.retrying then s else if e.2 then s.deliverOrQueue b w e.1 else s.release b w e.1) s)

/-- FAULT_RING_SPACE_FREED (R79): a waiting wave goes on writing its records, until it finds the ring full again. -/
def execFaultRingSpaceFreed (b w : Nat) (s : State) : Host.Outcome State Fault Refusal :=
  let n := (s.wv b w).ringWait.length
  let t := s.writeRecords b w (n + 1)
  if (t.wv b w).ringWait.length = n then .next s
  else .next (((t.ringFound b w).parkFaults b w).wakeReplayed b w)

/-- Records written for a save, without run-ahead and without waiting: those still to be written, and those of accesses that
have none, even of a path that a REPLAY has released (R83). -/
def State.recordsAtSave (s : State) (b w : Nat) : State :=
  let v := s.wv b w
  let fresh := s.faultRecords b w [] 0
  let recs := v.ringWait ++ fresh
  let world := (s.launchOf b).world
  let s := recs.foldl (fun s r =>
    match s.writeRecord world r with
    | (.full, s) => s.ringDrop world (wrFria (s.world world).record)
    | (_, s) => s) s
  s.modWv b w fun v =>
    { v with
      ringWait := [], delivering := false
      faultBatch := if fresh = [] then v.faultBatch else (v.faultBatch + 1) % 2 ^ 16
      deferred := v.deferred.map fun d => { d with recorded := true } }

end Sys2Proof.Machine
end

