-- ==== Sys2Proof/Machine/Fetch.lean ====
section
/-! DEFINITION. Instruction fetch through the instruction cache (R33, R63, R389), the issue of a clause
(R24–R28, R44) and the literal instructions (R44, R219). -/

namespace Sys2Proof.Machine

open Sys2Proof

/-- What a fetch answers. -/
inductive FetchRes where
  | ok (w : Word) (s : State)
  /-- a precise trap: PERM or RANGE -/
  | trap (code : Nat) (s : State)
  /-- a deferred fault at an IA -/
  | fault (f : WalkFault) (ia : Nat) (s : State)
  /-- the line waits for a waking way -/
  | park (s : State)
deriving Repr, Inhabited

/-- Read a word of code from memory, and keep it in the instruction cache. -/
def State.fetchMiss (s : State) (a : Who) (ia : Nat) : FetchRes :=
  match s.readIA (some a) a.world ia 5 4 with
  | .error (.park, s) => .park s
  | .error (.fault f, s) => .fault f ia s
  | .error (.trap c, s) => .trap c s
  | .ok (bs, s) =>
    let w := BitVec.ofNat 32 (leNat bs)
    .ok w (s.modCore a.core fun c => { c with icache := SMap.ins ia w (c.icache.filter fun e => e.1 != ia) })

/-- Fetch the word at a VA. A cached word may be the old or the new form (R33). -/
def State.fetchWord (s : State) (a : Who) (asid : Nat) (smode : Bool) (va : DWord) : FetchRes :=
  match s.mapAccess a.core asid a.world smode false .fetch va with
  | .error code => .trap code s
  | .ok ia =>
    match (s.core a.core).icache.find? (fun e => e.1 == ia) with
    | none => s.fetchMiss a ia
    | some e =>
      let (gone, s) := s.freeBit
      if gone then s.fetchMiss a ia else .ok e.2 s

def Ctx.fetch (c : Ctx) (s : State) (va : DWord) : FetchRes := s.fetchWord (c.own 33) c.asid c.smode va

/-- A fetch fault at `va` is deferred for the whole path, and entered in the last-events record where it is an
uncorrectable error (R22, R389). The path resumes at the word that it was to issue, whose fetch it is; in run-ahead the fault
ends run-ahead (R77). -/
def Ctx.fetchFault (c : Ctx) (f : WalkFault) (va : DWord) (ia : Nat) (s : State) : State :=
  let s := s.noteData f c.world ia
  if c.wv.ra.isSome then c.raEnd s
  else
    let lanes : List LaneOp := (lanesOf c.pa.full).map fun ln =>
      { lane := ln, va, ia, st := .faulted f.1 f.2 va ia }
    let op : AsyncOp := { id := c.wv.nextOp, kind := .fetch, path := c.p, pc := va, lanes, lead := (lanesOf c.pa.full).headD 32, at_ := s.clk }
    let s := s.modWv c.b c.w fun v =>
      { v with nextOp := v.nextOp + 1, paths := v.paths.modify c.p fun x => { x with st := .fault, retrying := false } }
    s.attach c.b c.w c.p op lanes

/-- A trap taken where the path stands, or the end of run-ahead. -/
def Ctx.raiseTrap (c : Ctx) (t : TrapInfo) (s : State) : State :=
  if c.wv.ra.isSome then c.raEnd s else s.takeTrap c.b c.w c.p t

/-- The major and fn of a word that is a control transfer (R28). A word of such a major and fn that is otherwise no
instruction counts as one here, since the check is made when its clause is fetched (notes/assumptions/13.md). -/
def controlWord (w : Word) : Bool :=
  let maj := fld w 29 24
  let fn := fld w 23 21
  maj == 0x2B || (maj == 0x2C && fn ≤ 4) || (maj == 0x2D && fn ≤ 1) || (maj == 0x31 && [0, 2, 3, 5].contains fn)

/-- The literal words that follow a word (R44). -/
def literalWords (w : Word) : Nat :=
  if fld w 29 24 = 0x15 then (if fld w 16 0 = 0 then 1 else if fld w 16 0 = 1 then 2 else 0) else 0

/-- Word `i` of a clause of `count` words breaks R28 or R44: a control transfer that is not last, or literal words beyond
the clause. -/
def misplaced (count i : Nat) (w : Word) : Bool := (controlWord w && i ≠ count) || count < i + literalWords w

/-- What the fetch of the words of a clause answers. -/
inductive WordsRes where
  /-- the words, `none` for one that cannot be fetched now -/
  | ok (words : List (Option Word)) (s : State)
  /-- a word is misplaced -/
  | bad (s : State)
  | park (s : State)
deriving Repr, Inhabited

/-- The words of a clause of `count` words from word `i` on, each fetched once (R33) and checked as its clause is fetched
(R28, R44); `lits` literal words come first, which are not decoded (R34). The clause waits for a word that waits for a way.
A word whose fetch meets a trap or a fault meets it when it is the next to issue (R389), and the words after it, which may be
its literals, are fetched with it then (notes/assumptions/13.md). `hdr` is the header's address. -/
def Ctx.clauseWords (c : Ctx) (hdr : DWord) (count : Nat) (s : State) : Nat → Nat → Nat → WordsRes
  | 0, _, _ => .ok [] s
  | fuel + 1, i, lits =>
    let go (w : Option Word) (s : State) (lits : Nat) : WordsRes :=
      match Ctx.clauseWords c hdr count s fuel (i + 1) lits with
      | .ok ws s => .ok (w :: ws) s
      | r => r
    match c.fetch s (hdr + BitVec.ofNat 64 (4 * i)) with
    | .park s => .park s
    | .ok w s =>
      if lits ≠ 0 then go (some w) s (lits - 1)
      else if misplaced count i w then .bad s
      else go (some w) s (literalWords w)
    | .trap _ s | .fault _ _ s => if lits ≠ 0 then go none s (lits - 1) else .ok (List.replicate (fuel + 1) none) s

/-- Word `k` after the issuing path's next one: as its clause's issue fetched it, or else as it is fetched now. -/
def Ctx.clauseWord (c : Ctx) (s : State) (k : Nat) : FetchRes :=
  match c.pa.words.getD (c.pa.cpos - 1 + k) none with
  | some w => .ok w s
  | none => c.fetch s (c.pa.pc + BitVec.ofNat 64 (4 * k))

/-- The address of the header of the issuing path's clause. -/
def Ctx.hdrPc (c : Ctx) : DWord := c.pa.pc - BitVec.ofNat 64 (4 * c.pa.cpos)

/-- The rest of the issuing path's clause from its next word on, where the issue of the clause could not fetch that word or
the path has come to it by another way: fetched and checked before the word issues (R28, R44). -/
def Ctx.clauseRest (c : Ctx) (s : State) : WordsRes :=
  let n := fld c.pa.hdr 26 23
  match c.clauseWords c.hdrPc n s (n + 1 - c.pa.cpos) c.pa.cpos 0 with
  | .ok ws s =>
    let words := (List.range (c.pa.cpos - 1)).map (fun i => c.pa.words.getD i none) ++ ws
    .ok words (s.modPath c.b c.w c.p fun x => { x with words })
  | r => r

/-- The first counter of a header whose threshold is not met (R26). -/
def headerWait (v : Wave) (hdr : Word) : Option Ctr :=
  [(Ctr.lc, 12), (Ctr.sc, 8), (Ctr.cc, 4), (Ctr.mc, 0)].findSome? fun (c, lo) =>
    let thr := fld hdr (lo + 3) lo
    if thr ≠ 15 ∧ thr < v.ctr c then some c else none

/-- The thresholds of a checked header: the clause's first word comes next, or the header waits with the words of its
clause. Waits are not made in run-ahead. -/
def Ctx.startClause (c : Ctx) (hdr : Word) (words : List (Option Word)) (s : State) : State :=
  match if c.wv.ra.isSome then none else headerWait c.wv hdr with
  | some ctr => s.modPath c.b c.w c.p fun p => { p with hdr, words, blocked := some ctr.stall, again := false }
  | none =>
    s.modWv c.b c.w fun v =>
      { v with
        lastPath := c.p
        paths := v.paths.modify c.p fun p => { p with hdr, words, pc := p.pc + 4, cpos := 1, blocked := none, phase := 0 } }

/-- The path's header has been fetched and checked, and waits for a counter. -/
def Path.headerHeld (p : Path) : Bool :=
  p.cpos == 0 && p.words ≠ [] && [some Stall.waitLd, some .waitSt, some .waitCo, some .waitMx].contains p.blocked

/-- A header at the path's PC: what it raises, or the header with the words of its clause. -/
inductive HeaderRes where
  | ok (hdr : Word) (words : List (Option Word)) (s : State)
  | trap (code : Nat) (va : DWord) (s : State)
  | fault (f : WalkFault) (ia : Nat) (s : State)
  | park (s : State)

/-- Fetch and check the header at the path's PC with the words of its clause (R27, R28, R44). -/
def Ctx.header (c : Ctx) (s : State) : HeaderRes :=
  if c.pa.pc.toNat % 4 ≠ 0 then .trap 0x02 c.pa.pc s
  else
    match c.fetch s c.pa.pc with
    | .trap code s => .trap code c.pa.pc s
    | .fault f ia s => .fault f ia s
    | .park s => .park s
    | .ok hdr s =>
      let n := fld hdr 26 23
      if fld hdr 31 27 ≠ 0b11110 || n == 0 || fld hdr 18 16 ≠ 0 || hdr.getLsbD 19 ≠ (c.pa.mode ≠ .plain) then .trap 0x02 0 s
      else
        match c.clauseWords c.pa.pc n s n 1 0 with
        | .ok words s => .ok hdr words s
        | .bad s => .trap 0x02 0 s
        | .park s => .park s

/-- CLAUSE_ISSUE (R26–R28, R44): the header at the path's PC is fetched and checked with the words of its clause, its waits
are met, and the clause's first word comes next. -/
def execClauseIssue (s : State) : Host.Outcome State Fault Refusal :=
  match s.ctx with
  | none => .fault .noIssuingWave
  | some c =>
    if c.pa.headerHeld then .next (c.startClause c.pa.hdr c.pa.words s)
    else
      match c.header s with
      | .trap code va s => .next (c.raiseTrap { code, pc := c.pa.pc, va } s)
      | .fault f ia s => .next (c.fetchFault f c.pa.pc ia s)
      | .park s => .next (s.modPath c.b c.w c.p fun p => { p with blocked := some .fetch, again := false })
      | .ok hdr words s => .next (c.startClause hdr words s)

/-- Why the path's header cannot issue now (R26, R336). -/
def Ctx.headerStall (c : Ctx) (s : State) : Option Stall :=
  if c.pa.headerHeld then (headerWait c.wv c.pa.hdr).map Ctr.stall
  else
    match c.header s with
    | .park _ => some .fetch
    | .ok hdr _ _ => (headerWait c.wv hdr).map Ctr.stall
    | _ => none

/-! ### Literals -/

/-- The literal words of the issuing instruction, the low one first. PERM and RANGE name the literal's address. A fault
is the literal's, and the path resumes at its instruction: no literal word is a clause position (R44, R389). -/
def Ctx.literal (c : Ctx) (s : State) (n : Nat) (f : List Word → State → Act) : Act :=
  let rec go (s : State) (acc : List Word) : Nat → Act
    | 0 => f acc s
    | k + 1 =>
      let va := c.pa.pc + BitVec.ofNat 64 (4 * (acc.length + 1))
      match c.clauseWord s (acc.length + 1) with
      | .ok w s => go s (acc ++ [w]) k
      | .trap code s => .trapIn { c.trap code none va with pc := va, cpos := c.pa.cpos + acc.length + 1 } s
      | .fault g ia s => .stay (c.fetchFault g va ia s)
      | .park s => .hold .fetch s
  go s [] n

/-- R219. -/
def execLit32 (y g : Bool) (d : Field) (s : State) : Host.Outcome State Fault Refusal :=
  let i := info (.lit32 y g d)
  issue i y s fun c s => c.literal s 1 fun l s => .done (c.writeD g d 1 (fun _ _ => l.getD 0 0) s)

/-- R219. -/
def execLit64 (y g : Bool) (d : Field) (s : State) : Host.Outcome State Fault Refusal :=
  let i := info (.lit64 y g d)
  issue i y s fun c s => c.literal s 2 fun l s => .done (c.writeD g d 2 (fun _ j => l.getD j 0) s)

end Sys2Proof.Machine
end

