-- ==== Sys2Proof/Machine/Control.lean ====
section
/-! DEFINITION. BR, JUMP and PATH: R348–R358, and the extended lock of R148–R150. -/

namespace Sys2Proof.Machine

open Sys2Proof

/-- The issuing path goes on at a VA, outside every clause. -/
def Ctx.goto (c : Ctx) (va : DWord) (s : State) : State :=
  s.modPath c.b c.w c.p fun p => { p with pc := va, cpos := 0 }
/-- The address of the next header after a word that ends its clause. -/
def Ctx.nextHeader (c : Ctx) : DWord := c.pa.pc + 4

/-! ### BR (R348) -/

/-- A branch on a condition of the issuing path. -/
def branch (i : Info) (y : Bool) (o : BitVec 18) (s : State) (cond : Ctx → Bool) : Host.Outcome State Fault Refusal :=
  issueWith true i y (fun _ => false) s fun c s =>
    .done (c.goto (if cond c then c.pa.pc + (o.signExtend 64) * 4 else c.nextHeader) s)

/-- R348, cond 0. -/
def execBr (y : Bool) (o : BitVec 18) (s : State) : Host.Outcome State Fault Refusal :=
  let i := info (.br y o)
  branch i y o s fun _ => true

/-- R348, cond 1. -/
def execBrQ (y : Bool) (q : BitVec 3) (o : BitVec 18) (s : State) : Host.Outcome State Fault Refusal :=
  let i := info (.brQ y q o)
  branch i y o s fun c => c.q q.toNat

/-- R348, cond 2. -/
def execBrNq (y : Bool) (q : BitVec 3) (o : BitVec 18) (s : State) : Host.Outcome State Fault Refusal :=
  let i := info (.brNq y q o)
  branch i y o s fun c => !c.q q.toNat

/-- R348, cond 3. -/
def execBrZ (y : Bool) (o : BitVec 18) (s : State) : Host.Outcome State Fault Refusal :=
  let i := info (.brZ y o)
  branch i y o s fun c => c.pa.exm == 0

/-- R348, cond 4. -/
def execBrNz (y : Bool) (o : BitVec 18) (s : State) : Host.Outcome State Fault Refusal :=
  let i := info (.brNz y o)
  branch i y o s fun c => c.pa.exm != 0

/-- R348, cond 5. -/
def execBrFull (y : Bool) (o : BitVec 18) (s : State) : Host.Outcome State Fault Refusal :=
  let i := info (.brFull y o)
  branch i y o s fun c => c.pa.exm == c.pa.full

/-! ### The extended lock (R148, R150) -/

/-- A wave of a block waits for its pair's lock: a path of it is held for the lock. One that has left its XREG.ACQ or call
by a trap waits no longer. -/
def Block.awaitsLock (k : Block) (w : Nat) : Bool :=
  let v := k.waves.getD w default
  v.st == .live && v.paths.any fun p => p.st == .run && p.blocked == some .xreg

/-- Take the lock of the wave's pair: granted, or the wave waits its turn. -/
def Ctx.lock (c : Ctx) (s : State) : Bool × State :=
  let k := s.blk c.b
  let pair := c.w / 2
  let waiting := k.xwait.filter fun e => k.awaitsLock e.2
  let mine := match (waiting.filter fun e => e.1 == pair).head? with | some e => e.2 == c.w | none => true
  if SMap.get none k.xlock pair = some c.w then (true, s)
  else if (SMap.get none k.xlock pair).isNone && mine then
    (true, s.modBlk c.b fun k =>
      { k with xlock := SMap.put none k.xlock pair (some c.w), xwait := waiting.filter fun e => e != (pair, c.w) })
  else (false, s.modBlk c.b fun k => { k with xwait := if waiting.contains (pair, c.w) then waiting else waiting ++ [(pair, c.w)] })

/-- Give the lock back. -/
def State.unlock (s : State) (b pair : Nat) : State :=
  s.modBlk b fun k => { k with xlock := SMap.put none k.xlock pair none }

/-! ### JUMP (R349–R352) -/

/-- The words of the link that CALL and CALLI write: the next header's address, with the high word zero (R349). -/
def Ctx.link (c : Ctx) (j : Nat) : Word := if j = 0 then c.nextHeader.setWidth 32 else 0

/-- The distinct targets of some lanes, ascending. -/
def targetsOf (t : Nat → DWord) (lanes : List Nat) : List DWord :=
  sortBy (fun a b => a.toNat ≤ b.toNat) (lanes.map t).dedup

/-- The entry words of R352, one target after another: the largest BUDGET, or how the call ends. -/
def Ctx.entryWords (c : Ctx) (s : State) (mask : DWord → Word) : List DWord → Nat → Except Act (Nat × State)
  | [], b => .ok (b, s)
  | t :: ts, b =>
    let va := t - 4
    match c.fetch s va with
    | .trap code s => .error (.trapIn (c.trap code (some (mask t)) va) s)
    | .fault f ia s => .error (.trapIn { c.trap f.1 (some (mask t)) va with sub := f.2 } (s.noteData f c.world ia))
    | .park s => .error (.hold .fetch s)
    | .ok w s =>
      let n := fld w 6 0
      if fld w 31 24 ≠ 0xED || fld w 23 7 ≠ 0 || n == 0 || 112 < n then .error (.trap (c.trap 0x02 (some (mask t)) va))
      else Ctx.entryWords c s mask ts (max b n)

/-- CheckBudget of R352: the checks of the targets of some lanes, their entry words, and the extended lock. TMASK names active
lanes alone: none for a CALL whose EXM is zero, whose one target stands for lane 0 here. -/
def Ctx.checkBudget (c : Ctx) (s : State) (t : Nat → DWord) (lanes : List Nat) (k : State → Act) : Act :=
  let fails := lanes.filterMap fun ln =>
    if (t ln).toNat % 4 ≠ 0 then some (ln, 0x02) else if !canonical (t ln) then some (ln, 0x11) else none
  match c.laneTrap fails t with
  | some tr => .trap { tr with mask := tr.mask.map (· &&& c.pa.exm) }
  | none =>
    match c.entryWords s (fun x => maskOf fun ln => c.active ln && lanes.contains ln && t ln == x) (targetsOf t lanes) 0 with
    | .error a => a
    | .ok (b, s) =>
      if b ≤ c.B then k s
      else if c.B + c.X < b then .trap (c.trap 0x06)
      else if c.wv.ra.isSome && !c.holdsLock then .hold .xreg s
      else
        match c.lock s with
        | (true, s) => k s
        | (false, s) => .hold .xreg s

/-- New paths for the second and later targets (R351, R342): each takes its lanes from the issuing path. -/
def Ctx.spread (c : Ctx) (t : Nat → DWord) (lanes : List Nat) (targets : List DWord) (free : List Nat) (s : State) : State :=
  let s := (targets.tail.zip free).foldl (fun s e =>
    let m := maskOf fun ln => lanes.contains ln && t ln == e.1
    s.modWv c.b c.w fun v =>
      { v with paths := (v.paths.set e.2 { st := .run, pc := e.1, full := m, exm := m, parent := some c.p }).modify c.p
                 fun p => { p with full := p.full &&& ~~~m, exm := p.exm &&& ~~~m } }) s
  c.goto (targets.headD c.nextHeader) s

/-- A per-lane transfer (R351): `call` gives the link register of CALLI. -/
def Ctx.transfer (c : Ctx) (s : State) (t : Nat → DWord) (call : Option Field) : Act :=
  let lanes := (List.range 32).filter c.active
  if lanes = [] then .done (c.goto c.nextHeader s)
  else
    let targets := targetsOf t lanes
    let go (s : State) : Act :=
      let free := freeEntries (s.wv c.b c.w).paths
      if free.length + 1 < targets.length then .hold .pair s
      else
        let s := match call with
          | some d => c.writeV d.toNat 2 (fun _ j => c.link j) s
          | none => s
        .done (c.spread t lanes targets free s)
    match call with
    | some _ => c.checkBudget s t lanes go
    | none => go s

/-- ILL while the wave is in handler mode: several targets (R394). -/
def Ctx.manyTargets (c : Ctx) (t : Nat → DWord) : Bool :=
  c.inHandler && 1 < (targetsOf t ((List.range 32).filter c.active)).length

/-- R350. -/
def execJmp (y : Bool) (a : BitVec 4) (s : State) : Host.Outcome State Fault Refusal :=
  let i := info (.jmp y a)
  issueWith true i y (fun _ => false) s fun c s => .done (c.goto (c.bc64 a) s)

/-- R350, R352. -/
def execCall (y : Bool) (d : Field) (a : BitVec 4) (s : State) : Host.Outcome State Fault Refusal :=
  let i := info (.call y d a)
  issueWith true i y (fun _ => false) s fun c s =>
    let t := fun _ : Nat => c.bc64 a
    let lanes := (List.range 32).filter c.active
    c.checkBudget s t (if lanes = [] then [0] else lanes) fun s =>
      .done (c.goto (c.bc64 a) (c.writeV d.toNat 2 (fun _ j => c.link j) s))

/-- R351, R352. -/
def execCalli (y : Bool) (d a : Field) (s : State) : Host.Outcome State Fault Refusal :=
  let i := info (.calli y d a)
  issueWith true i y (fun c => c.manyTargets fun ln => c.opnd64 false a ln) s fun c s =>
    c.transfer s (fun ln => c.opnd64 false a ln) (some d)

/-- R351. -/
def execRet (y : Bool) (a : Field) (s : State) : Host.Outcome State Fault Refusal :=
  let i := info (.ret y a)
  issueWith true i y (fun c => c.manyTargets fun ln => c.opnd64 false a ln) s fun c s =>
    c.transfer s (fun ln => c.opnd64 false a ln) none

/-- R351. -/
def execJmpi (y : Bool) (a : Field) (s : State) : Host.Outcome State Fault Refusal :=
  let i := info (.jmpi y a)
  issueWith true i y (fun c => c.manyTargets fun ln => c.opnd64 false a ln) s fun c s =>
    c.transfer s (fun ln => c.opnd64 false a ln) none

/-! ### PATH (R353–R358) -/

/-- R354. -/
def execPsplit (y : Bool) (d : Field) (im : BitVec 14) (s : State) : Host.Outcome State Fault Refusal :=
  let i := info (.psplit y d im)
  issueWith true i y (fun c => c.inHandler) s fun c s =>
    let m := c.g d.toNat &&& c.pa.exm
    let target := c.pa.pc + (im.signExtend 64) * 4
    if m = 0 then .done (c.goto c.nextHeader s)
    else if m = c.pa.full then .done (c.goto target s)
    else
      match freeEntries c.wv.paths with
      | [] => .hold .pair s
      | e :: _ =>
        .done (c.goto c.nextHeader (s.modWv c.b c.w fun v =>
          { v with paths := (v.paths.set e { st := .run, pc := target, full := m, exm := m, parent := some c.p }).modify c.p
                     fun p => { p with full := p.full &&& ~~~m, exm := p.exm &&& ~~~m } }))

/-- R344, R355. -/
def execPjoin (y : Bool) (s : State) : Host.Outcome State Fault Refusal :=
  let i := info (.pjoin y)
  issueWith true i y (fun _ => false) s fun c s =>
    let s := c.goto c.nextHeader s
    let s := s.modWv c.b c.w fun v =>
      { v with paths := resolveJoins (v.paths.modify c.p fun p => { p with st := .wait, waitOn := .join, join := c.pa.pc }) }
    .done ((s.checkBars c.b).checkCbars c.b)

/-- R355. -/
def execPyield (y : Bool) (s : State) : Host.Outcome State Fault Refusal :=
  let i := info (.pyield y)
  issue i y s fun c s => .done (s.modPath c.b c.w c.p fun p => { p with ymark := true })

/-- A rename pair is in use (R356): by a path's open region, or by the region that the handler interrupted (R394). -/
def Wave.pairInUse (v : Wave) (pair : Nat) : Bool :=
  (v.paths.any fun p => p.live && p.mode != .plain && p.pair == pair) ||
    (v.tinfo.getLsbD 31 && v.tinfo.toNat / 2 ^ 20 % 4 ≠ 0 && (v.path (v.tinfo.toNat % 8)).pair == pair)

/-- R357. -/
def execMeld (y : Bool) (d : Field) (p : BitVec 2) (n : BitVec 6) (s : State) : Host.Outcome State Fault Refusal :=
  let i := info (.meld y d p n)
  issueWith true i y (fun c => c.inHandler || c.pa.cpos ≠ fld c.pa.hdr 26 23 || c.wv.pairInUse p.toNat) s fun c s =>
    .done (c.goto c.nextHeader (s.modPath c.b c.w c.p fun x =>
      { x with side := c.g d.toNat &&& x.full, mode := .melded, pair := p.toNat, count := n.toNat }))

/-- R358. -/
def execMelde (y : Bool) (s : State) : Host.Outcome State Fault Refusal :=
  let i := info (.melde y)
  issue i y s fun c s =>
    .done (s.modPath c.b c.w c.p fun x => { x with mode := .plain, pair := 0, count := 0, side := 0 })

/-- R356; its fields name v-registers of the wave (R42). -/
def execPren (y : Bool) (a : Field) (e : BitVec 4) (p : BitVec 2) (sc : BitVec 1) (b : Field) (s : State) :
    Host.Outcome State Fault Refusal :=
  let i := info (.pren y a e p sc b)
  issueWith false i y (fun c => c.wv.pairInUse p.toNat || c.B + c.X ≤ a.toNat || c.B + c.X ≤ b.toNat) s fun c s =>
    .done (s.modWv c.b c.w fun v =>
      { v with rename := SMap.put (0, 0) v.rename (p.toNat * 32 + sc.toNat * 16 + e.toNat) (a.toNat, b.toNat) })

end Sys2Proof.Machine
end

