-- ==== Sys2Proof/Machine/Keccak.lean ====
section
/-! DEFINITION. SHAKE256, the hash of the measurement registers (R423): FIPS 202's Keccak permutation of 25
lanes of 64 bits, rate 136 bytes. -/

namespace Sys2Proof.Machine

open Sys2Proof

/-- The bits of FIPS 202's round constants: a shift register of 8 bits, seven of whose output bits go into each round. -/
def keccakStream : List Bool :=
  ((List.range (24 * 7)).foldl (fun (p : List Bool × Nat) _ =>
    (p.2.testBit 0 :: p.1, if p.2.testBit 7 then 2 * p.2 ^^^ 0x171 else 2 * p.2)) ([], 1)).1.reverse

/-- The constants of the 24 rounds: bit 2^j − 1 of round r is bit 7r + j of the stream. -/
def roundConstants : List DWord :=
  let stream := keccakStream
  (List.range 24).map fun r =>
    BitVec.ofNat 64 ((List.range 7).foldl (fun n j => n + (stream.getD (7 * r + j) false).toNat * 2 ^ (2 ^ j - 1)) 0)

/-- How far a round turns each lane, lane (x, y) at index x + 5y: the triangular numbers, along the walk from (1, 0) that
takes (x, y) to (y, 2x + 3y). -/
def laneTurns : List Nat :=
  ((List.range 24).foldl (fun (p : List Nat × Nat × Nat) t =>
    (p.1.set (p.2.1 + 5 * p.2.2) ((t + 1) * (t + 2) / 2 % 64), p.2.2, (2 * p.2.1 + 3 * p.2.2) % 5))
    (List.replicate 25 0, 1, 0)).1

/-- A lane of a state, by its coordinates modulo 5. -/
def laneAt (a : List DWord) (x y : Nat) : DWord := a.getD (x % 5 + 5 * (y % 5)) 0

/-- A state from the value of each lane. -/
def lanesBy (f : Nat → Nat → DWord) : List DWord := (List.range 25).map fun i => f (i % 5) (i / 5)

/-- θ: a lane takes in the parities of the columns beside its own. -/
def mixColumns (a : List DWord) : List DWord :=
  let parity := (List.range 5).map fun x => ((List.range 5).map (laneAt a x)).foldr (· ^^^ ·) 0
  lanesBy fun x y => laneAt a x y ^^^ parity.getD ((x + 4) % 5) 0 ^^^ (parity.getD ((x + 1) % 5) 0).rotateLeft 1

/-- ρ and π: every lane is turned and takes another's place. -/
def moveLanes (a : List DWord) : List DWord :=
  let turns := laneTurns
  lanesBy fun x y => (laneAt a (x + 3 * y) x).rotateLeft (turns.getD ((x + 3 * y) % 5 + 5 * x) 0)

/-- χ: the one step that is not linear, along a row. -/
def mixRows (a : List DWord) : List DWord :=
  lanesBy fun x y => laneAt a x y ^^^ (laneAt a (x + 2) y &&& ~~~laneAt a (x + 1) y)

/-- Keccak-f[1600]: 24 rounds, each ended by its constant in lane (0, 0). -/
def keccakF (a : List DWord) : List DWord :=
  roundConstants.foldl (fun a k => (mixRows (moveLanes (mixColumns a))).modify 0 (· ^^^ k)) a

/-- Absorb one block of 136 bytes. -/
def keccakAbsorb (a : List DWord) (blk : List Byte) : List DWord :=
  keccakF ((List.range 25).map fun i =>
    a.getD i 0 ^^^ BitVec.ofNat 64 (leNat ((blk.drop (8 * i)).take 8)))

/-- Absorb a message whose length is a multiple of 136. -/
def keccakAll (a : List DWord) : Nat → List Byte → List DWord
  | 0, _ => a
  | n + 1, m => keccakAll (keccakAbsorb a (m.take 136)) n (m.drop 136)

/-- SHAKE256 with 64 bytes of output. -/
def shake256 (m : List Byte) : List Byte :=
  let n := 136 - m.length % 136
  let pad : List Byte := if n = 1 then [0x9F#8] else [0x1F#8] ++ List.replicate (n - 2) 0 ++ [0x80#8]
  let blocks := (m.length + n) / 136
  ((keccakAll (List.replicate 25 0) blocks (m ++ pad)).flatMap fun w => natBytes 8 w.toNat).take 64

/-- A measurement register extended by bytes: SHAKE256(register ‖ bytes, 512 bits) (R423). -/
def extend (reg : BitVec 512) (bs : List Byte) : BitVec 512 :=
  BitVec.ofNat 512 (leNat (shake256 (natBytes 64 reg.toNat ++ bs)))

end Sys2Proof.Machine
end

