-- ==== Sys2Proof/Machine/System.lean ====
section
/-! DEFINITION. SYS (R396–R400, R150), SREG (R390–R393, R401, R402), and the debug events that BRK and a
restore raise (R437, R442). -/

namespace Sys2Proof.Machine

open Sys2Proof

/-! ### Debug events (R437, R442) -/

/-- Fields of an attachment record. -/
def atLaunch (a : BitVec 256) : Nat := fld a 63 0
def atBlock (a : BitVec 256) : Nat := fld a 127 96
def atHeld (a : BitVec 256) : Bool := a.getLsbD 128

/-- The blocks whose attachment names block `b`. -/
def State.debuggers (s : State) (b : Nat) : List Nat :=
  let l := s.launchOf b
  (List.range s.blocks.length).filter fun d =>
    let k := s.blk d
    atHeld k.attach && k.endCode == 0 && k.st != .retired && k.st != .discarded && (s.launchOf d).world == l.world &&
      atLaunch k.attach == l.va.toNat && atBlock k.attach == (s.blk b).idx

/-- A debug event of kind `kind` holds path `p` and enters every attachment record (R442). -/
def State.debugHold (s : State) (b w p kind : Nat) (n : Option Nat) : State :=
  let pc := ((s.wv b w).path p).pc.toNat
  let rec1 (a : BitVec 256) : BitVec 256 :=
    let a := setFld (setFld (setFld a 255 192 pc) 191 160 (fld a 191 160 + 1)) 143 141 p
    let a := setFld (setFld a 140 136 w) 135 132 kind
    match n with | some n => setFld a 159 146 n | none => a
  let ds := s.debuggers b
  let s := ds.foldl (fun s d => s.modBlk d fun k => { k with attach := rec1 k.attach }) s
  s.modPath b w p fun x => if x.st = .held then x else { x with st := .held, hst := x.st }

/-- A pending DEBUG event is delivered: the path is held for its debugger, or it traps (R404, R442). -/
def State.takeDebug (s : State) (b w p : Nat) : State :=
  let s := s.modWv b w fun v => { v with pendDebug := setBit8 v.pendDebug p false }
  let pa := (s.wv b w).path p
  if !pa.live then s
  else if s.debuggers b ≠ [] then s.debugHold b w p 2 none
  else s.takeTrap b w p { code := 0x33, pc := pa.pc, cpos := pa.cpos, hdr := if pa.cpos = 0 then 0 else pa.hdr }

/-- The events queued for a wave that need not wait for the end of handler mode: DEBUG first, then DELIVER, in ascending
path order (R394, R404). -/
def State.takePending (s : State) (b w : Nat) : State :=
  let s := (List.range 8).foldl (fun s p =>
    let v := s.wv b w
    if v.pendDebug.getLsbD p && v.mayTake p then s.takeDebug b w p else s) s
  s.takeDelivers b w

/-! ### SYS -/

/-- SOFT and BRK (R397): a trap whose TPC is the next header. -/
def Ctx.softTrap (c : Ctx) (code : Nat) (n : BitVec 14) : TrapInfo :=
  { code, pc := c.pa.pc + 4, mask := some c.pa.exm, va := n.setWidth 64 }

/-- R397. -/
def execTrap (y : Bool) (n : BitVec 14) (s : State) : Host.Outcome State Fault Refusal :=
  let i := info (.trap y n)
  issueWith true i y (fun _ => false) s fun c s => .done (s.takeTrap c.b c.w c.p (c.softTrap 0x31 n))

/-- R198, R398. -/
def execTfence (y : Bool) (s : State) : Host.Outcome State Fault Refusal :=
  let i := info (.tfence y)
  issue i y s fun c s =>
    if c.wv.fflags &&& 0x1F00#32 ≠ 0 then .trap (c.trap 0x20 (some c.pa.exm) (c.wv.fflags.setWidth 64)) else .done s

/-- The wave's ridge is between the stop of its world and the end of its seal (R413, R421). -/
def State.closing (s : State) (core : Nat) : Bool :=
  match (s.ridges.getD (core / 8) {}).phase with
  | .stop | .drain | .overrun | .seal => true
  | _ => false

/-- R397, R421, R442. -/
def execBrk (y : Bool) (n : BitVec 14) (s : State) : Host.Outcome State Fault Refusal :=
  let i := info (.brk y n)
  issueWith true i y (fun _ => false) s fun c s =>
    if s.debuggers c.b = [] then .done (s.takeTrap c.b c.w c.p (c.softTrap 0x30 n))
    else
      let s := c.goto c.nextHeader s
      .done (if s.closing c.blk.core then s.modWv c.b c.w fun v => { v with pendDebug := setBit8 v.pendDebug c.p true }
        else s.debugHold c.b c.w c.p 1 (some n.toNat))

/-- R343, R399. In handler mode the wave ends by the trap it is handling. -/
def execExit (y : Bool) (s : State) : Host.Outcome State Fault Refusal :=
  let i := info (.exit y)
  issueWith true i y (fun _ => false) s fun c s =>
    if c.inHandler then
      .done (s.endWave c.b c.w (c.wv.tinfo.toNat % 8)
        { code := fld c.wv.tcode 7 0, sub := fld c.wv.tcode 15 8, pc := c.wv.tpc, va := c.wv.tva })
    else
      let s := s.modWv c.b c.w fun v => { v with armed := none, paths := donePath v.paths c.p }
      .done (((s.waveEnd c.b c.w).checkBars c.b).checkCbars c.b)

/-- R398. -/
def execTclr (y : Bool) (m m2 : BitVec 5) (s : State) : Host.Outcome State Fault Refusal :=
  let i := info (.tclr y m m2)
  issue i y s fun c s =>
    let k : Word := m2.setWidth 32 ||| (m.setWidth 32 <<< 8)
    .done (s.modWv c.b c.w fun v => { v with fflags := v.fflags &&& ~~~k })

/-- R400. -/
def execTret (y : Bool) (s : State) : Host.Outcome State Fault Refusal :=
  let i := info (.tret y)
  issueWith true i y (fun c => !c.inHandler) s fun c s =>
    match c.tret s with
    | .inl t => .trap t
    | .inr s => .done (s.takePending c.b c.w)

/-- R150. -/
def execXregAcq (y : Bool) (s : State) : Host.Outcome State Fault Refusal :=
  let i := info (.xregAcq y)
  issue i y s fun c s =>
    if c.X = 0 then .trap (c.trap 0x05)
    else
      match c.lock s with
      | (true, s) => .done s
      | (false, s) => .hold .xreg s

/-- R150. -/
def execXregRel (y : Bool) (s : State) : Host.Outcome State Fault Refusal :=
  let i := info (.xregRel y)
  issue i y s fun c s =>
    if !c.holdsLock then .trap (c.trap 0x05)
    else
      match [Ctr.lc, .cc, .mc].find? fun k => c.wv.ctr k ≠ 0 with
      | some k => .hold k.stall s
      | none => .done (s.unlock c.b (c.w / 2))

/-! ### Special registers (R390–R392) -/

/-- Core cycles in a microsecond (R4). -/
def cyclesPerUs : Nat := 3600

/-- The CLK at which the entry in force ends. -/
def State.slotEnd (s : State) : Nat := match s.slot with
  | some e => s.slotStart + slDur e * 10 * cyclesPerUs
  | none => 0

/-- SLOTLEFT: microseconds to the end of the running entry, 0 while no table is in force. -/
def State.slotLeft (s : State) : Nat := (s.slotEnd - s.clk) / cyclesPerUs

/-- The number of a path's MODE (R341). -/
def MeldMode.num : MeldMode → Nat
  | .plain => 0 | .melded => 1 | .sideA => 2 | .sideB => 3

/-- The value SRD reads (R390); CLKLO's latch is `execClkloRead`'s. -/
def Ctx.sreg (c : Ctx) (s : State) (i : Nat) : Word :=
  let v := c.wv
  match i with
  | 0x00 => BitVec.ofNat 32 s.clk
  | 0x01 => v.clkLatch
  | 0x02 => BitVec.ofNat 32 c.w
  | 0x03 => BitVec.ofNat 32 c.blk.idx
  | 0x04 => BitVec.ofNat 32 c.blk.rank
  | 0x05 => BitVec.ofNat 32 c.blk.core
  | 0x06 => BitVec.ofNat 32 (c.blk.core / 8)
  | 0x07 => BitVec.ofNat 32 c.world
  | 0x08 => v.fflags
  | 0x09 => v.fctrl
  | 0x0A => v.tcode
  | 0x0B => word64 v.tpc 0
  | 0x0C => word64 v.tpc 1
  | 0x0D => v.tmask
  | 0x0E => word64 v.tva 0
  | 0x0F => word64 v.tva 1
  | 0x20 => v.batchDone
  | 0x21 => BitVec.ofNat 32 (c.pa.mode.num * 16 + c.p)
  | 0x22 => v.mxskip
  | 0x23 => v.quorum
  | 0x24 => BitVec.ofNat 32 s.slotLeft
  | 0x25 => v.cticket
  | 0x26 => (v.tinfo &&& ~~~0x40000000#32) ||| (if c.smode then 0x40000000#32 else 0)
  | 0x27 => v.thdr
  | 0x28 => v.texm
  | 0x29 => v.mextlo
  | 0x2A => v.mexthi
  | 0x2B => v.mext
  | _ => if 0x10 ≤ i ∧ i < 0x20 then v.stall.getD (i - 0x10) 0 else 0

/-- An SWR breaks the register's own rules (R194, R196, R391). -/
def sregBad (i : Nat) (x : Word) : Bool :=
  match i with
  | 0x08 => x &&& 0xFFFFE0E0#32 ≠ 0
  | 0x09 => x &&& 0xFFFFE0F8#32 ≠ 0
  | 0x26 => x &&& 0x3FC0FFF8#32 ≠ 0
  | _ => false

/-- Half `h` of a 64-bit register replaced. -/
def setHalf (r : DWord) (h : Nat) (x : Word) : DWord :=
  if h = 0 then x.setWidth 64 ||| (r &&& 0xFFFFFFFF00000000#64) else (x.setWidth 64 <<< 32) ||| (r &&& 0xFFFFFFFF#64)

/-- What SWR writes (R390). H, SUP and TPATH of TINFO are read-only. -/
def Wave.setSreg (v : Wave) (i : Nat) (x : Word) : Wave :=
  match i with
  | 0x08 => { v with fflags := x }
  | 0x09 => { v with fctrl := x }
  | 0x0A => { v with tcode := x }
  | 0x0B => { v with tpc := setHalf v.tpc 0 x }
  | 0x0C => { v with tpc := setHalf v.tpc 1 x }
  | 0x0D => { v with tmask := x }
  | 0x0E => { v with tva := setHalf v.tva 0 x }
  | 0x0F => { v with tva := setHalf v.tva 1 x }
  | 0x22 => { v with mxskip := x }
  | 0x25 => { v with cticket := x }
  | 0x26 => { v with tinfo := (v.tinfo &&& 0xC0000007#32) ||| (x &&& 0x3FFFFFF8#32) }
  | 0x27 => { v with thdr := x }
  | 0x28 => { v with texm := x }
  | 0x29 => { v with mextlo := x }
  | 0x2A => { v with mexthi := x }
  | _ => v

/-- R401, R402. -/
def execSrd (y g : Bool) (d : Field) (im : BitVec 8) (s : State) : Host.Outcome State Fault Refusal :=
  let i := info (.srd y g d im)
  issue i y s fun c s => .done (c.writeD g d 1 (fun _ _ => c.sreg s im.toNat) s)

/-- CLKLO_READ (R392): an SRD of CLKLO, which latches the high half. -/
def execClkloRead (y g : Bool) (d : Field) (s : State) : Host.Outcome State Fault Refusal :=
  let i := info (.clkloRead y g d)
  issue i y s fun c s =>
    .done (c.writeD g d 1 (fun _ _ => BitVec.ofNat 32 s.clk)
      (s.modWv c.b c.w fun v => { v with clkLatch := BitVec.ofNat 32 (s.clk / 2 ^ 32) }))

/-- R401, R402: CLK, TPC or TVA, both halves from one reading. -/
def execSrdl (y g : Bool) (d : Field) (im : BitVec 8) (s : State) : Host.Outcome State Fault Refusal :=
  let i := info (.srdl y g d im)
  issue i y s fun c s =>
    let x : DWord := if im.toNat = 0 then BitVec.ofNat 64 s.clk else if im.toNat = 0x0B then c.wv.tpc else c.wv.tva
    .done (c.writeD g d 2 (fun _ j => word64 x j) s)

/-- The source of an SWR. -/
def Ctx.swrSource (c : Ctx) (g : Bool) (d : Field) : Word := if g then c.g d.toNat else c.g (d.toNat - 0x70)

/-- R401, R402. -/
def execSwr (y g : Bool) (d : Field) (im : BitVec 8) (s : State) : Host.Outcome State Fault Refusal :=
  let i := info (.swr y g d im)
  issue i y s fun c s =>
    let x := c.swrSource g d
    if sregBad im.toNat x then .trap (c.trap 0x12 none (x.setWidth 64))
    else .done (s.modWv c.b c.w fun v => v.setSreg im.toNat x)

/-- MEXT_REQUEST (R393): the checks of an SWR of MEXT, the read of the value, and the wait for the management core,
during which the whole wave is held. -/
def execMextRequest (y g : Bool) (d : Field) (s : State) : Host.Outcome State Fault Refusal :=
  let i := info (.mextRequest y g d)
  issue i y s fun c s =>
    let hold (s : State) : Act := .hold .park (s.modWv c.b c.w fun v => { v with excl := some c.p })
    if c.pa.phase = 1 then hold s
    else if c.pa.phase = 2 then .done s
    else
      let x := c.swrSource g d
      let va : DWord := c.wv.mexthi ++ c.wv.mextlo
      if x ≠ 1 then .trap (c.trap 0x12 none (x.setWidth 64))
      else if va.toNat % 64 ≠ 0 then .trap (c.trap 0x13 none va)
      else
        let ask (v : Option (BitVec 512)) (s : State) : Act :=
          hold ((s.modWorld c.world fun w => { w with mextq := w.mextq ++ [(c.b, c.w, v)] }).modPath c.b c.w c.p
            fun p => { p with phase := 1 })
        match c.readVA s va 64 with
        | .error (.trap code, s) => .trapIn (c.trap code none va) s
        | .error (.park, s) => .hold .park s
        | .error (.fault f, s) => ask none (s.noteData f c.world va.toNat)
        | .ok (bs, s) => ask (some (BitVec.ofNat 512 (leNat bs))) s

/-- The world runs on at least one ridge. -/
def State.running (s : State) (w : Nat) : Bool := s.ridges.any fun r => r.world == some w && r.phase == .open_

/-- MEXT_RESPONSE (R393, R423): the world's oldest request is applied or refused, and its wave goes on. -/
def execMextResponse (world : Nat) (s : State) : Host.Outcome State Fault Refusal :=
  match (s.world world).mextq with
  | [] => .next s
  | (b, w, val) :: rest =>
    let s := s.modWorld world fun x => { x with mextq := rest }
    let onRidge := s.ridges.any fun r => r.world == some world
    let out : Nat := if val.isNone then 3 else if onRidge then 1 else 2
    let s := match val, onRidge with
      | some x, true =>
        { s with meas := SMap.put 0 s.meas (16 + world) (extend (SMap.get 0 s.meas (16 + world)) (natBytes 64 x.toNat)) }
      | _, _ => s
    .next (s.modWv b w fun v =>
      { v with
        mext := BitVec.ofNat 32 out
        paths := match v.excl with
          | some p => v.paths.modify p fun x => if x.phase = 1 then { x with phase := 2, again := true } else x
          | none => v.paths
        -- the handler of a trap that another path has taken meanwhile comes first
        excl := v.excl.filter v.mayTake })

end Sys2Proof.Machine
end

