-- ==== Sys2Proof/Machine/Access.lean ====
section
/-! DEFINITION. How the lanes of a global access are performed at L2, at a cluster unit or at a port: R94–R109,
R165–R168, R175–R177, R180, R182, R323, R427, R428. -/

namespace Sys2Proof.Machine

open Sys2Proof

/-! ### Order within a wave (R166, R167, R183, R325) -/

/-- What an access touches, for the orders of a wave: nothing, global bytes, a local unit, or remote bytes. -/
inductive Touch where
  | none
  /-- first byte and length -/
  | glob (l : List (Nat × Nat))
  /-- the megabyte of the local map -/
  | loc (unit : Nat)
  /-- the aligned 32 bytes of an IA -/
  | rem (l : List Nat)
deriving DecidableEq, Repr, Inhabited

/-- What a lane's access touches. Global bytes are taken by VA, since R166 orders no two addresses of the same bytes, or by IA
(`phys`), as R167 asks among the lanes of one instruction; remote bytes are taken by IA (R183). -/
def LaneOp.touch (k : OpKind) (o : LaneOp) (phys : Bool) : Touch :=
  let at_ : Nat := if phys then o.ia else o.va.toNat
  match k with
  | .load n _ _ | .store n _ => .glob [(at_, n)]
  | .atomic _ wide _ _ _ => .glob [(at_, if wide then 8 else 4)]
  | .loadE rc | .storeE rc =>
    if phys then .glob (o.aux.map fun x => (x, 1))
    else
    let off := if rbKind rc = 3 then o.addr.toNat * rbPitch rc else o.addr.toNat
    .glob (((eVas rc off).map fun (v : DWord) => (v.toNat, 1)) ++ (if rbSmode rc = 2 then [((eScaleVa rc off).toNat, 1)] else []))
  | .loadLocal _ _ | .storeLocal _ | .atomicLocal _ => .loc (o.va.toNat / 2 ^ 20)
  | .tldg _ rows cols pitch | .tstg _ rows cols pitch => .glob ((List.range rows).map fun r => (o.addr.toNat + r * pitch, 4 * cols))
  | .remStore n _ | .remLoad n _ => .rem ((List.range n).map fun i => (o.ia + i) / 32).dedup
  | .remAtomic _ => .rem [o.ia / 32]
  | _ => .none

/-- Two accesses of one wave that take effect in issue order. -/
def Touch.meets : Touch → Touch → Bool
  | .glob a, .glob b => a.any fun x => b.any fun y => x.1 < y.1 + y.2 && y.1 < x.1 + x.2
  | .loc a, .loc b => a == b
  | .rem a, .rem b => a.any b.contains
  | _, _ => false

/-- The lane is still to be performed. -/
def LaneOp.open_ (o : LaneOp) : Bool := o.st == .pending || o.st == .port

/-- No earlier access of the wave holds this lane back. -/
def Wave.mayPerform (v : Wave) (op : AsyncOp) (o : LaneOp) : Bool :=
  v.ops.all fun e =>
    let phys := e.id == op.id
    let t := o.touch op.kind phys
    op.id < e.id || e.lanes.all fun l => !l.open_ || (e.id == op.id && o.lane ≤ l.lane) || !(l.touch e.kind phys).meets t

/-- The operation writes global memory: a walk for it may set DIRTY (R66). -/
def OpKind.writesGlobal : OpKind → Bool
  | .store _ _ | .storeE _ | .atomic _ _ _ _ _ | .remStore _ _ | .remAtomic _ | .tstg _ _ _ _ | .stkPush => true
  | _ => false

/-- The operation stays inside the lane store and the debug window. -/
def OpKind.isLocal : OpKind → Bool
  | .loadLocal _ _ | .storeLocal _ | .atomicLocal _ => true
  | _ => false

/-- The operation's lanes have addresses in global memory that are translated for it. -/
def OpKind.walks : OpKind → Bool
  | .load _ _ _ | .loadE _ | .evict | .probe _ | .remLoad _ _ | .tldg _ _ _ _ | .tex _ _ | .stkPop | .cover | .pin _ => true
  | k => k.writesGlobal

/-- An action of the shading cache (R300). -/
def OpKind.shc : OpKind → Bool
  | .scq | .scpub | .scabort | .scinv | .scpin | .scunpin | .sctick => true
  | _ => false

/-- The lane writes into the shading heap, which checks the slot (R311). A TSTG keeps the granules of its rows in pairs, the
IA granule second. -/
def State.heapLane (s : State) (k : OpKind) (o : LaneOp) : Bool :=
  match k with
  | .store _ _ | .storeE _ | .remStore _ _ | .stkPush => (o.ia :: o.aux).any s.inHeap
  | .tstg _ _ _ _ => o.aux.zipIdx.any fun e =>
      e.2 % 2 == 1 && s.shade.heapia < (e.1 + 1) * 65536 && e.1 * 65536 < s.shade.heapia + s.shade.hslots * 2048
  | _ => false

/-- R300: the slot checks and the shading-cache actions of one wave take effect in issue order, the lanes of one instruction
in ascending order. -/
def State.shadeTurn (s : State) (v : Wave) (op : AsyncOp) (o : LaneOp) : Bool :=
  let acts (k : OpKind) (l : LaneOp) : Bool := k.shc || s.heapLane k l
  !acts op.kind o || v.ops.all fun e => e.lanes.all fun l =>
    !l.open_ || !acts e.kind l || op.id < e.id || (op.id == e.id && o.lane ≤ l.lane)

/-! ### Reaching a line -/

/-- How a part of an access ends. -/
inductive Acc (α : Type) where
  | ok (a : α) (s : State)
  /-- a deferred fault at an IA -/
  | fault (f : WalkFault) (ia : Nat) (s : State)
  | wait (s : State)

/-- The line is owned by a copy unit (R104). -/
def State.isOwned (s : State) (line : Nat) : Bool := s.owned.any fun e => e.1 == line

/-- The PA of a thread's access, which waits while a copy unit owns its line, in order of arrival (R105). A line in L2
gives its own; only a miss is translated (R93, R98). -/
def State.reach (s : State) (a : Who) (ia : Nat) (store : Bool) : Acc Nat :=
  let line := ia / 128
  let me := (line, a.b, a.w, a.op, a.lane)
  let queue := s.ownWait.filter fun e => e.1 == line
  if s.isOwned line then
    .wait (if queue.contains me then s else { s.l2count a.world ia (homeSlice ia) 6 with ownWait := s.ownWait ++ [me] })
  else if queue.head?.any (· ≠ me) then
    .wait (if queue.contains me then s else { s with ownWait := s.ownWait ++ [me] })
  else
    match s.paFor a.world ia store with
    | (s, .fault f) => .fault f ia { s with ownWait := s.ownWait.filter fun e => e ≠ me }
    | (s, .pa pa) => .ok pa { s with ownWait := s.ownWait.filter fun e => e ≠ me }

/-- A line that fails its check gives DATA, and is logged (R69, R168). -/
def badData {α : Type} (s : State) (world ia pa : Nat) : Acc α := .fault (fData 7) ia (s.log 5 (some 0x14) none world pa)

/-- What a stop of L2 is to a thread's access. -/
def l2Stopped {α : Type} (a : Who) (ia pa : Nat) : L2Stop × State → Acc α
  | (.bad, s) => badData s a.world ia pa
  | (.noPort, s) => .fault (fTrans 3) ia s
  | (.park, s) => .wait (s.parkWait a ia)
  | (.train, s) => .wait s

/-- The request of a thread. -/
def Who.req (a : Who) (ia pa policy : Nat) : L2Req := { core := some a.core, world := a.world, ia, pa, policy }

/-- Read bytes of one line at L2 for a thread: all of the line's data comes with them where L1 may take it. -/
def State.l2LoadFor (s : State) (a : Who) (ia pa n policy : Nat) : Acc (List Byte × Option Line) :=
  match s.l2Load (a.req ia pa policy) with
  | .ok (d, s) => .ok ((List.range n).map fun i => lineByte d (ia % 128 + i), some d) s
  | .error (.bad, s) =>
    (match s.l2Present ia n with
     | some bs => .ok (bs, none) s
     | none => l2Stopped a ia pa (.bad, s))
  | .error e => l2Stopped a ia pa e

/-- A store that the wave issued after this access, and that L1 already shows, touches its bytes: L1 does not serve it
(R166). -/
def State.laterStore (s : State) (a : Who) (ia n : Nat) : Bool :=
  (s.wv a.b a.w).ops.any fun e => a.op < e.id && e.lanes.any fun o =>
    (storeBytes e.kind o).any fun x => x.1 < ia + n && ia < x.1 + x.2.length

/-- Every lane of one load reads the same bytes (R167): a byte that another of its lanes has read is taken from there, and
what lanes that are still to come read in the same line is kept for them. -/
def State.sameBytes (s : State) (a : Who) (ia : Nat) (bs : List Byte) : List Byte × State :=
  match (s.wv a.b a.w).op? a.op with
  | none => (bs, s)
  | some o =>
    let bs := bs.zipIdx.map fun e => ((o.seen.find? fun x => x.1 == ia + e.2).map Prod.snd).getD e.1
    if o.lanes.any fun l => l.lane ≠ a.lane && l.open_ && (if l.aux = [] then [l.ia] else l.aux).any fun x => x / 128 == ia / 128 then
      (bs, s.modOp a.b a.w a.op fun o =>
        { o with seen := o.seen ++ (bs.zipIdx.map fun e => (ia + e.2, e.1)).filter fun x => !o.seen.any fun y => y.1 == x.1 })
    else (bs, s)

/-- Read bytes of one line as a load does (R97, R324): `l1` where L1 may serve and take the line. -/
def State.loadLine (s : State) (a : Who) (ia n policy : Nat) (l1 : Bool) : Acc (List Byte) :=
  match (if l1 && policy ≠ 2 && !s.laterStore a ia n then s.l1Look a.core ia else (none, s)) with
  | (some d, s) => .ok ((List.range n).map fun i => lineByte d (ia % 128 + i)) s
  | (none, s) =>
    match s.reach a ia false with
    | .fault f x s => .fault f x s
    | .wait s => .wait s
    | .ok pa s =>
      match s.l2LoadFor a ia pa n policy with
      | .fault f x s => .fault f x s
      | .wait s => .wait s
      | .ok (bs, d) s =>
        .ok bs (match d with
          | some d => if l1 && policy ≠ 2 then s.fillL1 a.core ia d else s
          | none => s)

/-- The heap check of a thread's store (R311). -/
def State.heapOk (s : State) (world ia : Nat) : Bool × State := if s.inHeap ia then s.heapWrite world ia else (true, s)

/-- Write bytes of one line as a store does (R94, R97, R98). -/
def State.storeLine (s : State) (a : Who) (ia : Nat) (bs : List Byte) (policy : Nat) : Acc Unit :=
  match s.reach a ia true with
  | .fault f x s => .fault f x s
  | .wait s => .wait s
  | .ok pa s =>
    match s.heapOk a.world ia with
    | (false, s) => .fault (fTrans 3) ia s
    | (true, s) =>
      match s.l2Write (a.req ia pa policy) bs with
      | .ok s => .ok () s
      | .error e => l2Stopped a ia pa e

/-- Store parts of one lane's data, each in one line, all of them or, where one of them meets a fault or must wait, none
(R74). -/
def State.storeParts (s : State) (a : Who) (policy : Nat) (parts : List (Nat × List Byte)) : Acc Unit :=
  let rec go (t : State) : List (Nat × List Byte) → Acc Unit
    | [] => .ok () t
    | p :: ps =>
      match t.storeLine a p.1 p.2 policy with
      | .ok _ t => go t ps
      | _ =>
        match s.storeLine a p.1 p.2 policy with
        | .ok _ _ => .wait s
        | r => r
  go s parts

/-! ### Atomics (R106–R109, R175–R177, R428) -/

/-- The new value at a location, `none` where nothing is written. -/
def atomNew (op : AtomOp) (wide : Bool) (old : Nat) (data : Nat) : Option Nat :=
  let w := if wide then 64 else 32
  let x := data % 2 ^ w
  let sg (n : Nat) : Int := if 2 ^ (w - 1) ≤ n then (n : Int) - 2 ^ w else n
  match op with
  | .add => some ((old + x) % 2 ^ w)
  | .minS => some (if sg x < sg old then x else old)
  | .maxS => some (if sg old < sg x then x else old)
  | .minN => some (min old x)
  | .maxN => some (max old x)
  | .and => some (old &&& x)
  | .or => some (old ||| x)
  | .xor => some (old ^^^ x)
  | .exch => some x
  | .cas => if old = x then some (data / 2 ^ w % 2 ^ w) else none
  | .fadd => some (fsumprod .f32 .rne false [] [Fmt.f32.value old, Fmt.f32.value x]).1
  | .fmin => some (fminmax .f32 false false true old x).1
  | .fmax => some (fminmax .f32 false true true old x).1
  | .incw => some (if x ≤ old then 0 else old + 1)

/-- What an atomic does to the bytes of its location. -/
def atomBytes (op : AtomOp) (wide : Bool) (data : Nat) (old : List Byte) : Option (List Byte) :=
  (atomNew op wide (leNat old) data).map (natBytes (if wide then 8 else 4))

/-- Read, modify and write a location at its home slice, after recalling the line home (R106, R108): the old value. A
reduction's request counts for the die-streak, an atomic's does not (R100, notes/assumptions/67.md). -/
def State.rmwL2 (s : State) (a : Who) (r : L2Req) (op : AtomOp) (wide red : Bool) (data : Nat) : Acc Nat :=
  let ln := r.ia / 128
  let s := ((s.recall r.world ln).l2Lookup { r with core := none })
  match s.l2Atomic r (if wide then 8 else 4) red (atomBytes op wide data) with
  | .ok (old, s) => .ok (leNat old) ((if red then s.l2Touch r else s).noteAtom ln)
  | .error e => l2Stopped a r.ia r.pa e

/-- Read, modify and write a location of host or peer memory at its target. -/
def State.rmwFar (s : State) (world ia pa : Nat) (op : AtomOp) (wide : Bool) (data : Nat) : Acc Nat :=
  let n := if wide then 8 else 4
  let old := leNat (memBytes s.mem pa n)
  if s.bad (iaRegion ia) pa then badData s world ia pa
  else match atomNew op wide old data with
    | none => .ok old s
    | some x => .ok old { s with mem := memPut s.mem pa (natBytes n x) }

/-- The ops that the host link carries itself (R428). -/
def AtomOp.hostNative : AtomOp → Bool
  | .add | .exch | .cas => true
  | _ => false

/-- The ridge's cluster unit holds a line: its own already, or taken from the home slice, whole, and from memory where L2
holds it nowhere. A full unit first returns its least recently used line (R109); of lines last used at the same CLK the one
of the lowest address goes (DESIGN CHOICE, notes/assumptions/67.md). -/
def State.hold (s : State) (world ridge ia pa : Nat) : Except (L2Stop × State) State :=
  let line := ia / 128
  let mine := s.l2.filter fun e => match e.2 with | some l => l.holder == some ridge | none => false
  let take (s : State) (l : L2Line) : State := s.setL2 line (some { l with slice := homeSlice ia, holder := some ridge, moved := s.clk })
  if mine.any fun e => e.1 == line then .ok ((s.l2line line).elim s (take s))
  else
    let lru := mine.foldl (fun b e => match e.2 with
      | some x => if x.moved < b.2 then (e.1, x.moved) else b
      | none => b) (0, s.clk + 1)
    let s := if 512 ≤ mine.length then s.recall world lru.1 else s
    let s := (s.recall world line).l2Lookup { world, ia, pa }
    match s.l2line line with
    | some _ => (s.l2Complete line).map fun s => (s.l2line line).elim s (take s)
    | none =>
      if s.bad (iaRegion ia) pa then .error (.bad, s)
      else .ok (take s { pa := pa / 128 * 128, data := s.memLine pa, present := BitVec.allOnes 128 })

/-- What an atomic answers: its old value, a wait, a fault, or a loop at the host port. -/
inductive AtomRes where
  | acc (r : Acc Nat)
  | port (s : State)

/-- Perform an atomic, or a reduction, at the place of R106. -/
def State.atomicAt (s : State) (a : Who) (ia : Nat) (op : AtomOp) (wide : Bool) (scope policy data : Nat) (red : Bool) : AtomRes :=
  match s.reach a ia true with
  | .fault f x s => .acc (.fault f x s)
  | .wait s => .acc (.wait s)
  | .ok pa s =>
    match paKind pa with
    | .host =>
      let s := s.toPort a.world ia
      if op.hostNative then .acc (s.rmwFar a.world ia pa op wide data) else .port s
    | .peer _ =>
      (match s.portFor a.world pa with
       | .none => .acc (.fault (fTrans 3) ia s)
       | .train => .acc (.wait s)
       | .ok => .acc ((s.toPort a.world ia).rmwFar a.world ia pa op wide data))
    | _ =>
      let r := a.req ia pa policy
      if scope = 1 then
        match s.hold a.world (a.core / 8) ia pa with
        | .error e => .acc (l2Stopped a ia pa e)
        | .ok s =>
          (match s.l2Atomic r (if wide then 8 else 4) red (atomBytes op wide data) with
           | .ok (old, s) => .acc (.ok (leNat old) s)
           | .error e => .acc (l2Stopped a ia pa e))
      else .acc (s.rmwL2 a r op wide red data)

/-! ### Performing a lane -/

/-- A lane has been performed, with its result words. -/
def State.lanePerformed (s : State) (a : Who) (res : List Word) : State :=
  s.modLane a.b a.w a.op a.lane fun o => { o with st := .ready, res }
/-- The VA of a faulting IA, which the fault record gives with it (R78): through the descriptor that maps the access's
own VA, or else through the lowest that maps to the IA (an access of several addresses: a .E run, a texel, a map word). -/
def State.faultVa (s : State) (a : Who) (va : DWord) (ia : Nat) : DWord :=
  let regs := s.rangeRegs a.core (recAsid (s.launchOf a.b).record)
  let has (d : BitVec 256) : Bool := rdV d && rdIabase d ≤ ia && ia < rdIabase d + rdSize d * 65536
  let own (d : BitVec 256) : Bool := has d && rdVabase d ≤ va.toNat && va.toNat < rdVabase d + rdSize d * 65536
  match (regs.filter own ++ regs.filter has).head? with
  | some d => BitVec.ofNat 64 (rdVabase d + (ia - rdIabase d))
  | none => va
/-- A lane receives a deferred fault. An uncorrectable error that its walk met is entered in the last-events record (R22);
the errors of data lines have been (`badData`). -/
def State.laneFault (s : State) (a : Who) (va : DWord) (f : WalkFault) (ia : Nat) : State :=
  let s := if f = fData 6 then s.noteData f a.world ia else s
  s.modLane a.b a.w a.op a.lane fun o => { o with st := .faulted f.1 f.2 (s.faultVa a va ia) ia }

/-- The end of a part of an access whose value goes on to `k`. -/
def Acc.andThen {α : Type} (r : Acc α) (a : Who) (va : DWord) (k : α → State → State) : State :=
  match r with
  | .ok x s => k x s
  | .fault f ia s => s.laneFault a va f ia
  | .wait s => s

/-- The registers of a value of `n` bytes, sign-extended where asked. -/
def loadWords (n : Nat) (signed : Bool) (bs : List Byte) : List Word :=
  let x := leNat bs
  let x := if signed && 2 ^ (8 * n - 1) ≤ x then x + 2 ^ 32 - 2 ^ (8 * n) else x
  (List.range ((n + 3) / 4)).map fun j => BitVec.ofNat 32 (x / 2 ^ (32 * j))

/-- The bytes of a .E access that are performed together (R167): those in one aligned 16 bytes of a LINEAR run, or
one element. `done` bytes have been performed. -/
def eChunk (rc : BitVec 320) (aux : List Nat) (total done : Nat) : Nat :=
  if rbIlv rc = 0 then
    let first := aux.getD done 0
    ((List.range (total - done)).takeWhile fun i => aux.getD (done + i) 0 == first + i && (first + i) / 16 == first / 16).length
  else min (total - done) (max 1 (eWidth rc / 8))

/-- The bytes of one access of a .E lane. -/
def eTotal (rc : BitVec 320) : Nat := rbEpa rc * eWidth rc / 8

/-- A .E load: the next bytes, the MX scale byte last, then the conversion (R121). -/
def State.performLoadE (s : State) (a : Who) (rc : BitVec 320) (o : LaneOp) : State :=
  let total := eTotal rc + (if rbSmode rc = 2 then 1 else 0)
  let done := o.res.length
  let n := if done < eTotal rc then eChunk rc o.aux (eTotal rc) done else 1
  (s.loadLine a (o.aux.getD done 0) n (rbPolicy rc) true).andThen a o.va fun bs s =>
    let (bs, s) := s.sameBytes a (o.aux.getD done 0) bs
    let got := o.res ++ bs.map fun (x : Byte) => x.setWidth 32
    if got.length < total then s.modLane a.b a.w a.op a.lane fun o => { o with res := got }
    else
      let bytes : List Byte := got.map fun (x : Word) => x.setWidth 8
      s.lanePerformed a (loadConvert rc ((bytes.getD (eTotal rc) 0).toNat) (bytes.take (eTotal rc)))

/-- The parts of a .E store that are written together, from byte `done` on. -/
def eParts (rc : BitVec 320) (elems : List Nat) (bytes : List Byte) : Nat → Nat → List (Nat × List Byte)
  | 0, _ => []
  | fuel + 1, done =>
    if eTotal rc ≤ done then []
    else
      let n := max 1 (eChunk rc elems (eTotal rc) done)
      (elems.getD done 0, (bytes.drop done).take n) :: eParts rc elems bytes fuel (done + n)

/-- A .E store: its scale byte first, then all its bytes, or none of them (R74, R416). That no other agent is seen between
its parts, which R167 allows, is the model's (DESIGN CHOICE, notes/assumptions/69.md). -/
def State.performStoreE (s : State) (a : Who) (rc : BitVec 320) (o : LaneOp) : State :=
  let total := eTotal rc
  let elems := o.aux.take total
  let write (mx : Nat) (s : State) : State :=
    (s.storeParts a (rbPolicy rc) (eParts rc elems (storeConvert rc mx o.data.toNat) (total + 1) 0)).andThen a o.va fun _ s =>
      s.lanePerformed a []
  if rbSmode rc = 2 then
    match o.res with
    | [] =>
      (s.loadLine a (o.aux.getD total 0) 1 (rbPolicy rc) true).andThen a o.va fun bs s =>
        s.modLane a.b a.w a.op a.lane fun o => { o with res := [(bs.getD 0 0).setWidth 32] }
    | mx :: _ => write mx.toNat s
  else write 0 s

/-- An atomic of a watched launch enters the order of R334 rule 4. -/
def State.noteOrder (s : State) (a : Who) (op : AsyncOp) (ia : Nat) (ret : Bool) : State :=
  if recWatch (s.launchOf a.b).record then
    s.modLaunch (s.blk a.b).launch fun l =>
      let at_ (kind : WatchKind) : WatchAtom := { wave := watchNo a.b a.w, kind, ia, issued := op.seq, done := l.watchSeq }
      { l with
        watchOrd := (if ret then [at_ (if op.acquires then .acquire else .returned op.atom)] else []) ++ (if op.rel then [at_ .release] else []) ++ l.watchOrd
        watchSeq := l.watchSeq + 1 }
  else s

/-- An atomic has been performed: its old value is the lane's result. -/
def State.atomDone (s : State) (a : Who) (op : AsyncOp) (o : LaneOp) (wide ret : Bool) (old : Nat) : State :=
  (s.noteOrder a op o.ia ret).lanePerformed a
    (if ret then (List.range (if wide then 2 else 1)).map fun j => BitVec.ofNat 32 (old / 2 ^ (32 * j)) else [])

/-- An access of the REMOTE major (R182): at the port for host and peer memory, at the home slice for HBM. -/
def State.performRemote (s : State) (a : Who) (k : OpKind) (o : LaneOp) : State :=
  let store := match k with | .remLoad _ _ => false | _ => true
  (s.reach a o.ia store).andThen a o.va fun pa s =>
    if paFar pa then
      match s.portFor a.world pa with
      | .none => s.laneFault a o.va (fTrans 3) o.ia
      | .train => s
      | .ok =>
        let s := s.toPort a.world o.ia
        if s.bad (iaRegion o.ia) pa then (badData s a.world o.ia pa : Acc Unit).andThen a o.va fun _ s => s
        else
          match k with
          | .remStore n _ =>
            (match s.heapOk a.world o.ia with
             | (false, s) => s.laneFault a o.va (fTrans 3) o.ia
             | (true, s) => { s with mem := memPut s.mem pa (natBytes n o.data.toNat) }.lanePerformed a [])
          | .remLoad n _ =>
            let (bs, s) := s.sameBytes a o.ia (memBytes s.mem pa n)
            s.lanePerformed a (loadWords n false bs)
          | _ =>
            let op : AtomOp := match o.data.toNat / 2 ^ 32 % 8 with
              | 0 => .add | 1 => .minS | 2 => .maxS | 3 => .minN | 4 => .maxN | 5 => .and | 6 => .or | _ => .exch
            match paKind pa with
            | .host =>
              if op.hostNative then (s.rmwFar a.world o.ia pa op false o.data.toNat).andThen a o.va fun old s => s.lanePerformed a [BitVec.ofNat 32 old]
              else s.modLane a.b a.w a.op a.lane fun o => { o with st := .port }
            | _ => (s.rmwFar a.world o.ia pa op false o.data.toNat).andThen a o.va fun old s => s.lanePerformed a [BitVec.ofNat 32 old]
    else
      match k with
      | .remStore n policy => (s.storeLine a o.ia (natBytes n o.data.toNat) policy).andThen a o.va fun _ s => s.lanePerformed a []
      | .remLoad n policy => (s.loadLine a o.ia n policy false).andThen a o.va fun bs s =>
        let (bs, s) := s.sameBytes a o.ia bs
        s.lanePerformed a (loadWords n false bs)
      | k =>
        let op : AtomOp := match o.data.toNat / 2 ^ 32 % 8 with
          | 0 => .add | 1 => .minS | 2 => .maxS | 3 => .minN | 4 => .maxN | 5 => .and | 6 => .or | _ => .exch
        match s.atomicAt a o.ia op false 3 (match k with | .remAtomic policy => policy | _ => 0) o.data.toNat false with
        | .acc r => r.andThen a o.va fun old s => s.lanePerformed a [BitVec.ofNat 32 old]
        | .port s => s

/-- A load of the byte at an IA would meet DATA. -/
def State.readsBad (s : State) (ia pa : Nat) : Bool :=
  match s.l2line (ia / 128) with
  | some l => l.bad || (!l.present.getLsbD (ia % 128) && s.bad (iaRegion ia) l.pa)
  | none => s.bad (iaRegion ia) pa

/-- EVICT of one lane (R180): nothing where its access would fault. -/
def State.performEvict (s : State) (a : Who) (o : LaneOp) : State :=
  match s.reach a o.ia false with
  | .wait s => s
  | .fault _ _ s => s.lanePerformed a []
  | .ok pa s =>
    if s.readsBad o.ia pa then s.lanePerformed a []
    else (((s.recall a.world (o.ia / 128)).l2Evict a.world (o.ia / 128)).l1Drop a.core o.ia).lanePerformed a []

/-- The probe of a run-ahead store or atomic: its translations only (R77). -/
def State.performProbe (s : State) (a : Who) (o : LaneOp) : State :=
  let r : Acc Unit := ((if o.aux = [] then [o.ia] else o.aux).map (· / 65536 * 65536)).dedup.foldl (fun r g =>
    match r with
    | .ok () s =>
      let ia := ((if o.aux = [] then [o.ia] else o.aux).find? (fun x => x / 65536 == g / 65536)).getD g
      (match s.translate a.world ia false with
       | (s, .pa _) => .ok () s
       | (s, .fault f) => .fault f ia s)
    | r => r) (.ok () s)
  r.andThen a o.va fun _ s => s.lanePerformed a []

/-- Perform lane `lane` of operation `op`, if it is its turn. -/
def State.perform (s : State) (b w id lane : Nat) : State :=
  let v := s.wv b w
  match v.op? id with
  | none => s
  | some op =>
    match op.lanes.find? fun o => o.lane == lane && o.st == .pending with
    | none => s
    | some o =>
      if !v.mayPerform op o || !s.shadeTurn v op o then s
      else
        let a : Who := { b, w, op := id, lane, core := (s.blk b).core, world := (s.launchOf b).world }
        match op.kind with
        | .load n sg policy =>
          (s.loadLine a o.ia n policy true).andThen a o.va fun bs s =>
            let (bs, s) := s.sameBytes a o.ia bs
            s.lanePerformed a (loadWords n sg bs)
        | .store n policy =>
          (s.storeLine a o.ia (natBytes n o.data.toNat) policy).andThen a o.va fun _ s => s.lanePerformed a []
        | .loadE rc => s.performLoadE a rc o
        | .storeE rc => s.performStoreE a rc o
        | .atomic aop wide scope ret policy =>
          (match s.atomicAt a o.ia aop wide scope policy o.data.toNat (!ret) with
           | .acc r => r.andThen a o.va fun old s => s.atomDone a op o wide ret old
           | .port s => s.modLane b w id lane fun o => { o with st := .port })
        | .evict => s.performEvict a o
        | .remStore _ _ | .remLoad _ _ | .remAtomic _ => s.performRemote a op.kind o
        | .probe _ => s.performProbe a o
        | _ => s

/-! ### The events -/

/-- L2_REQUEST (R98): a lane's request is served at its place. -/
def execL2Request (b w op lane : Nat) (s : State) : Host.Outcome State Fault Refusal := .next (s.perform b w op lane)

/-- OWNED_LINE_SERVE (R105): ownership of a line has ended, and the access that waits longest is served. -/
def execOwnedLineServe (line : Nat) (s : State) : Host.Outcome State Fault Refusal :=
  match s.ownWait.find? fun e => e.1 == line with
  | some (_, b, w, op, lane) =>
    if s.isOwned line then .next s
    else
      let open? := (((s.wv b w).op? op).map fun (x : AsyncOp) => x.lanes.any fun o => o.lane == lane && o.st == .pending).getD false
      .next (if open? then s.perform b w op lane else { s with ownWait := s.ownWait.filter fun e => e ≠ (line, b, w, op, lane) })
  | none => .next s

/-- TRANSLATION_WALK (R66): the walk that some access of the state waits for; its fault, if it ends in one, reaches
that access with its request. -/
def execTranslationWalk (world ia : Nat) (store : Bool) (s : State) : Host.Outcome State Fault Refusal :=
  let asked := s.blocks.any fun k => k.waves.any fun v => v.ops.any fun op =>
    (if store then op.kind.writesGlobal else op.kind.walks) && op.lanes.any fun o => o.st == .pending && (o.ia == ia || o.aux.contains ia)
  .next (if iaRegion ia = world ∧ asked then (s.translate world ia store).1 else s)

/-- WAY_WAKE_COMPLETE (R111). -/
def execWayWakeComplete (slice way : Nat) (s : State) : Host.Outcome State Fault Refusal :=
  .next { s with wakingWays := s.wakingWays.filter fun e => e ≠ (slice, way), wakeWait := s.wakeWait.filter fun e => e.1 ≠ slice }

/-- PORT_CAS_LOOP (R428): one CAS of a loop at the host-link port. After 64 that fail the lane receives DATA. -/
def execPortCasLoop (b w op lane : Nat) (success : Bool) (s : State) : Host.Outcome State Fault Refusal :=
  let a : Who := { b, w, op, lane, core := (s.blk b).core, world := (s.launchOf b).world }
  match (s.wv b w).op? op with
  | none => .next s
  | some x =>
    match x.lanes.find? fun o => o.lane == lane && o.st == .port with
    | none => .next s
    | some o =>
      let me (e : Nat × Nat × Nat × Nat × Nat) : Bool := (e.1, e.2.1, e.2.2.1, e.2.2.2.1) == (b, w, op, lane)
      let tries := match s.casTries.find? me with | some e => e.2.2.2.2 | none => 0
      let clear (s : State) : State := { s with casTries := s.casTries.filter fun e => !me e }
      match s.translate a.world o.ia true with
      | (s, .fault f) => .next ((clear s).laneFault a o.va f o.ia)
      | (s, .pa pa) =>
        if success then
          match x.kind with
          | .atomic aop wide _ ret _ =>
            .next ((s.rmwFar a.world o.ia pa aop wide o.data.toNat).andThen a o.va fun old s => (clear s).atomDone a x o wide ret old)
          | _ =>
            let aop : AtomOp := match o.data.toNat / 2 ^ 32 % 8 with
              | 1 => .minS | 2 => .maxS | 3 => .minN | 4 => .maxN | 5 => .and | _ => .or
            .next ((s.rmwFar a.world o.ia pa aop false o.data.toNat).andThen a o.va fun old s => (clear s).lanePerformed a [BitVec.ofNat 32 old])
        else if 64 ≤ tries + 1 then .next ((clear s).laneFault a o.va (fData 7) o.ia)
        else .next { clear s with casTries := (clear s).casTries ++ [(b, w, op, lane, tries + 1)] }

end Sys2Proof.Machine
end

