-- ==== Sys2Proof/Machine/Sync.lean ====
section
/-! DEFINITION. Fences (R326–R328), YIELD and SLEEP (R329), WATCH.PHASE (R334), the barriers of BAR
(R378–R382) and the stage rings (R376, R377). -/

namespace Sys2Proof.Machine

open Sys2Proof

/-! ### Rel and Acq (R326) -/

/-- The wave has a load, a returning atomic or a texture sample whose memory has not been accessed yet. -/
def Wave.readsLeft (v : Wave) : Bool :=
  v.ops.any fun o => o.kind.readsData && o.lanes.any fun l => l.st == .pending

/-- The wait of Rel is over. It takes in the wave's earlier reads, which no later access of another wave that it lets go may
overtake (R325, R332; DEDUCED, notes/assumptions/69.md). -/
def Wave.relReady (v : Wave) : Bool := v.sc == 0 && v.r75 && !v.tstgPending && !v.readsLeft

/-- The rest of Rel(s). -/
def Ctx.rel (c : Ctx) (sc : Nat) (s : State) : State :=
  let s := if sc = 3 then s.systemLines c.world false else s
  s.modWv c.b c.w fun v => { v with armed := some sc }

/-- The rest of Acq(s), once LC is zero. -/
def Ctx.acq (c : Ctx) (sc : Nat) (s : State) : State :=
  (if sc = 3 then s.systemLines c.world true else s).l1Clear c.blk.core

/-- Rel(s), then what follows it. -/
def Ctx.withRel (c : Ctx) (sc : Nat) (s : State) (k : State → Act) : Act :=
  if c.wv.relReady then k (c.rel sc s) else .hold .waitSt s

/-- Acq(s), then what follows it. -/
def Ctx.withAcq (c : Ctx) (sc : Nat) (s : State) (k : State → Act) : Act :=
  if c.wv.lc = 0 then k (c.acq sc s) else .hold .waitLd s

/-- A fence holds the whole wave while it waits (R326). -/
def Ctx.fenceHold (c : Ctx) : Act → Act
  | .hold r s => .hold r (s.modWv c.b c.w fun v => { v with excl := some c.p })
  | a => a

/-- An ORDER instruction follows: a returning atomic before it is an acquire atomic where the fence acquires
at device scope or wider (R327, R334), in the lanes that are still to be performed too. -/
def Ctx.closeAtom (c : Ctx) (acquire : Bool) (sc : Nat) (s : State) : State :=
  let s := match c.wv.lastAtom with
    | some (id, _) =>
      if acquire && 2 ≤ sc && recWatch c.lr then
        let mark (o : AsyncOp) : AsyncOp := if o.kind.returns && o.atom = id then { o with acquires := true } else o
        (s.modLaunch c.blk.launch fun l =>
          { l with watchOrd := l.watchOrd.map fun (e : WatchAtom) => if e.wave = c.watchId ∧ e.kind = WatchKind.returned id then { e with kind := .acquire } else e }).modWv
          c.b c.w fun v => { v with ops := v.ops.map mark, deferred := v.deferred.map fun (d : Deferred) => { d with op := mark d.op } }
      else s
    | none => s
  s.modWv c.b c.w fun v => { v with lastAtom := none }

/-- R326. -/
def execFenceAcq (y : Bool) (sc : BitVec 2) (s : State) : Host.Outcome State Fault Refusal :=
  let i := info (.fenceAcq y sc)
  issue i y s fun c s => c.fenceHold (c.withAcq sc.toNat s fun s => .done (c.closeAtom true sc.toNat s))

/-- R326. -/
def execFenceRel (y : Bool) (sc : BitVec 2) (s : State) : Host.Outcome State Fault Refusal :=
  let i := info (.fenceRel y sc)
  issue i y s fun c s => c.fenceHold (c.withRel sc.toNat s fun s => .done (c.closeAtom false sc.toNat s))

/-- R326. -/
def execFenceAr (y : Bool) (sc : BitVec 2) (s : State) : Host.Outcome State Fault Refusal :=
  let i := info (.fenceAr y sc)
  issue i y s fun c s => c.fenceHold (c.withRel sc.toNat s fun s => c.withAcq sc.toNat s fun s =>
    .done (c.closeAtom true sc.toNat s))

/-- The next place in the order of an ordering point (R322, R326): the block's core, the ridge's cluster unit,
the world's sequencer. -/
def Ctx.scPlace (c : Ctx) (sc : Nat) (s : State) : State :=
  if 2 ≤ sc then s.modWorld c.world fun w => { w with scPlace := w.scPlace + 1 }
  else
    let k := if sc = 0 then c.blk.core else 256 + c.blk.core / 8
    { s with scPlaces := SMap.put 0 s.scPlaces k (SMap.get 0 s.scPlaces k + 1) }

/-- R326. The place is taken once, when Rel has completed. -/
def execFenceSc (y : Bool) (sc : BitVec 2) (s : State) : Host.Outcome State Fault Refusal :=
  let i := info (.fenceSc y sc)
  issue i y s fun c s =>
    c.fenceHold
      (if c.pa.phase = 0 then
        c.withRel sc.toNat s fun s =>
          let s := c.scPlace sc.toNat s
          c.withAcq sc.toNat (s.modPath c.b c.w c.p fun p => { p with phase := 1 }) fun s =>
            .done (c.closeAtom true sc.toNat s)
      else c.withAcq sc.toNat s fun s => .done (c.closeAtom true sc.toNat s))

/-- R329. -/
def execYield (y : Bool) (s : State) : Host.Outcome State Fault Refusal :=
  let i := info (.yield_ y)
  issue i y s fun c s =>
    .done (s.modWv c.b c.w fun v => { v with yieldUntil := some (s.clk + 16), lastAtom := none })

/-- R329. -/
def execSleep (y : Bool) (n : BitVec 14) (s : State) : Host.Outcome State Fault Refusal :=
  let i := info (.sleep y n)
  issue i y s fun c s =>
    .done (s.modWv c.b c.w fun v => { v with sleepUntil := some (s.clk + n.toNat * 64), lastAtom := none })

/-- R334: the records whose writer is the issuing wave are retired. -/
def execWatchPhase (y : Bool) (s : State) : Host.Outcome State Fault Refusal :=
  let i := info (.watchPhase y)
  issue i y s fun c s =>
    .done ((s.modLaunch c.blk.launch fun l => { l with watch := l.watch.filter fun e => e.2.1 != c.watchId }).modWv c.b c.w
      fun v => { v with lastAtom := none })

/-- SLEEP_END (R329): the sleep has elapsed. -/
def execSleepEnd (b w : Nat) (s : State) : Host.Outcome State Fault Refusal :=
  match (s.wv b w).sleepUntil with
  | some t => .next (if t ≤ s.clk then s.modWv b w fun v => { v with sleepUntil := none } else s)
  | none => .next s

/-! ### Block barriers (R345, R378, R381) -/

/-- Replace the path's arrival at barrier `k`. -/
def setArr (l : List (Nat × Nat)) (k gen : Nat) : List (Nat × Nat) := (k, gen) :: l.filter fun e => e.1 != k

/-- An arrival at block barrier `k` (R378); `wait` for BAR.SYNC. -/
def Ctx.barArrive (c : Ctx) (k : Nat) (wait : Bool) (s : State) : Act :=
  let br := c.blk.bars.getD k {}
  c.withRel 0 s fun s =>
    if br.arrived.contains c.w || c.pa.barArr.contains (k, br.gen) then .hold .barrier s
    else
      let s := c.advance 0 s
      let s := s.modPath c.b c.w c.p fun p =>
        let p := { p with barArr := setArr p.barArr k br.gen }
        if wait then { p with st := .wait, waitOn := .bar k br.gen, join := c.pa.pc } else p
      .done (s.checkBars c.b)

/-- R381. -/
def execBarSync (y : Bool) (k : BitVec 4) (s : State) : Host.Outcome State Fault Refusal :=
  let i := info (.barSync y k)
  issueWith true i y (fun c => c.inHandler) s fun c s => c.barArrive k.toNat true s

/-- R381. -/
def execBarArr (y : Bool) (k : BitVec 4) (s : State) : Host.Outcome State Fault Refusal :=
  let i := info (.barArr y k)
  issueWith true i y (fun c => c.inHandler) s fun c s => c.barArrive k.toNat false s

/-- The generation of the path's latest arrival at barrier `k`, if it is still open. -/
def openArr (l : List (Nat × Nat)) (k gen : Nat) : Bool := l.any fun e => e.1 == k && e.2 == gen

/-- R381. -/
def execBarWait (y : Bool) (k : BitVec 4) (s : State) : Host.Outcome State Fault Refusal :=
  let i := info (.barWait y k)
  issueWith true i y (fun c => c.inHandler) s fun c s =>
    let gen := (c.blk.bars.getD k.toNat {}).gen
    let s' := c.advance 0 s
    if openArr c.pa.barArr k.toNat gen then
      .done (s'.modPath c.b c.w c.p fun p => { p with st := .wait, waitOn := .bar k.toNat gen, join := c.pa.pc })
    else
      let s' := s'.modPath c.b c.w c.p fun p => { p with acq := some 0, barArr := p.barArr.filter fun e => e.1 != k.toNat }
      .done (match c.pa.barArr.find? fun e => e.1 == k.toNat with
        | some e => s'.watchEnd c.b c.w (watchBar c.b k.toNat e.2)
        | none => s')

/-! ### Cluster barriers (R379, R381) -/

/-- The ticket that a wave presents matches its cluster's (R154). -/
def Ctx.ticketOk (c : Ctx) (s : State) : Bool :=
  let cl := s.clusters.getD c.blk.cluster {}
  cl.live && c.wv.cticket.toNat == cl.ticket

/-- An arrival at cluster barrier `k`. -/
def Ctx.cbarArrive (c : Ctx) (k : Nat) (s : State) (f : State → Act) : Act :=
  let br := (s.clusters.getD c.blk.cluster {}).bars.getD k {}
  c.withRel 1 s fun s =>
    if !c.ticketOk s then .trap (c.trap 0x16 none (c.wv.cticket.setWidth 64))
    else if br.arrived.contains c.blk.rank || br.waves.contains (c.blk.rank, c.w) || c.pa.cbarArr.contains (k, br.gen) then .hold .cbarrier s
    else f ((s.modPath c.b c.w c.p fun p => { p with cbarArr := setArr p.cbarArr k br.gen }).checkCbars c.b)

/-- Wait for the path's latest arrival at cluster barrier `k`, then Acq(cluster). -/
def Ctx.cbarAwait (c : Ctx) (k : Nat) (arr : List (Nat × Nat)) (s : State) : Act :=
  let gen := ((s.clusters.getD c.blk.cluster {}).bars.getD k {}).gen
  if openArr arr k gen then .hold .cbarrier (s.modPath c.b c.w c.p fun p => { p with phase := 1 })
  else
    c.withAcq 1 (s.modPath c.b c.w c.p fun p => { p with phase := 1 }) fun s =>
      let s := s.modPath c.b c.w c.p fun p => { p with cbarArr := p.cbarArr.filter fun e => e.1 != k }
      .done (match arr.find? fun e => e.1 == k with
        | some e => s.watchEnd c.b c.w (watchBar (2 ^ 31 + c.blk.cluster) k e.2)
        | none => s)

/-- R381. -/
def execCbarSync (y : Bool) (k : BitVec 3) (s : State) : Host.Outcome State Fault Refusal :=
  let i := info (.cbarSync y k)
  issueWith false i y (fun c => c.inHandler) s fun c s =>
    if c.pa.phase = 0 then
      c.cbarArrive k.toNat s fun s => c.cbarAwait k.toNat ((s.wv c.b c.w).path c.p).cbarArr s
    else c.cbarAwait k.toNat c.pa.cbarArr s

/-- R381. -/
def execCbarArr (y : Bool) (k : BitVec 3) (s : State) : Host.Outcome State Fault Refusal :=
  let i := info (.cbarArr y k)
  issueWith false i y (fun c => c.inHandler) s fun c s => c.cbarArrive k.toNat s fun s => .done s

/-- R381. -/
def execCbarWait (y : Bool) (k : BitVec 3) (s : State) : Host.Outcome State Fault Refusal :=
  let i := info (.cbarWait y k)
  issueWith false i y (fun c => c.inHandler) s fun c s => c.cbarAwait k.toNat c.pa.cbarArr s

/-! ### Grid barriers (R380, R382) -/

/-- R382. -/
def execGbarArr (y : Bool) (d : Field) (s : State) : Host.Outcome State Fault Refusal :=
  let i := info (.gbarArr y d)
  issueWith false i y (fun c => c.inHandler) s fun c s =>
    let va := c.gPair d.toNat
    let gen := c.g (d.toNat + 2)
    if fld gen 31 16 ≠ 0 then .trap (c.trap 0x12 none (gen.setWidth 64))
    else if va.toNat % 32 ≠ 0 then .trap (c.trap 0x13 none va)
    else
      match c.map s (.atomic true) va with
      | .error code => .trap (c.trap code none va)
      | .ok _ =>
        c.withRel 2 s fun s =>
          let a : Arrival :=
            { world := c.world, asid := c.asid, va := va.toNat, gen := fld gen 15 0, status := 0, launch := c.blk.launch
              src := .gbar c.b c.w }
          .done ({ s with arrivals := s.arrivals ++ [a] }.modWv c.b c.w fun v =>
            { v with glatch := .pending, glatchVA := va, glatchGen := fld gen 15 0, greleased := false, gsent := v.gsent + 1 })

/-- Number of a generation of a grid barrier in watch records. -/
def watchGrid (va gen : Nat) : Nat := 2 ^ 100 + va * 2 ^ 16 + gen

/-- R382. The second wait ends in Acq(device), which empties the latch. -/
def execGbarWait (y : Bool) (s : State) : Host.Outcome State Fault Refusal :=
  let i := info (.gbarWait y)
  issueWith false i y (fun c => c.inHandler) s fun c s =>
    match c.wv.glatch with
    | .empty => c.withAcq 2 s .done
    | .pending => .hold .cbarrier s
    | .diverted =>
      .stay ((s.modWv c.b c.w fun v => { v with glatch := .empty, glatchVA := 0, glatchGen := 0 }).takeTrap c.b c.w c.p (c.trap 0x23))
    | .applied =>
      if !c.wv.greleased then .hold .cbarrier s
      else c.withAcq 2 s fun s =>
        .done ((s.modWv c.b c.w fun v => { v with glatch := .empty, glatchVA := 0, glatchGen := 0, greleased := false }).watchEnd
          c.b c.w (watchGrid c.wv.glatchVA.toNat c.wv.glatchGen))

/-- GRID_LATCH_REPLY (R382): the CP's oldest reply to the wave. Only the reply to the latest arrival sets the latch. -/
def execGridLatchReply (b w : Nat) (s : State) : Host.Outcome State Fault Refusal :=
  match (s.wv b w).greplies with
  | [] => .next s
  | d :: rest =>
    .next (s.modWv b w fun v =>
      let v := { v with greplies := rest, gsent := v.gsent - 1 }
      if v.gsent = 0 ∧ v.glatch = .pending then { v with glatch := if d then .diverted else .applied } else v)

/-! ### Stage rings (R376, R377) -/

def Block.sByte (k : Block) (a : Nat) : Byte := SMap.get 0 k.scratch a
def Block.sRead (k : Block) (a n : Nat) : List Byte := (List.range n).map fun i => k.sByte (a + i)
def Block.sWrite (k : Block) (a : Nat) (bs : List Byte) : Block :=
  { k with scratch := bs.zipIdx.foldl (fun m e => SMap.put 0 m (a + e.2) e.1) k.scratch }

/-- A stage-ring header. -/
structure StageRing where
  base : Nat
  closed : Bool
  log2cap : Nat
  esz : Nat
  tail : Nat
  head : Nat
  ok : Bool
deriving DecidableEq, Repr, Inhabited

/-- TAIL − HEAD. -/
def StageRing.used (r : StageRing) : Nat := (r.tail + 2 ^ 32 - r.head) % 2 ^ 32

def stageRing (bs : List Byte) (sb : Nat) : StageRing :=
  let h := BitVec.ofNat 128 (leNat bs)
  let r : StageRing :=
    { base := fld h 127 96, closed := h.getLsbD 80, log2cap := fld h 75 72, esz := fld h 65 64, tail := fld h 63 32
      head := fld h 31 0, ok := true }
  { r with ok := fld h 95 81 == 0 && fld h 79 76 == 0 && fld h 71 66 == 0 && r.log2cap ≤ 10 && r.used ≤ 2 ^ r.log2cap &&
             r.base + 16 * 2 ^ r.log2cap ≤ sb }

/-- Why a ring instruction waits for the wave's earlier accesses to its scratchpad, which take effect before it (R325). -/
def Wave.localLeft (v : Wave) : Option Stall :=
  let due (p : OpKind → Bool) : Bool := v.ops.any fun o => p o.kind && o.lanes.any fun l => l.st == .pending
  if due (fun k => match k with | .loadLocal _ _ | .atomicLocal _ => true | _ => false) then some .waitLd
  else if due (fun k => match k with | .storeLocal _ => true | _ => false) then some .waitSt
  else none

/-- An uncorrectable error in a ring's header or in an entry that is read is DATA at the ring instruction (R22). -/
def Ctx.ringData (c : Ctx) (s : State) (la n : Nat) (k : Act) : Act :=
  match ((List.range (n / 4)).map fun i => la / 4 + i).find? (s.blk c.b).badWords.contains with
  | some x => .trapIn { c.trap 0x14 none (BitVec.ofNat 64 (4 * x)) with sub := 7 } (s.log 5 (some 0x14) (some c.blk.core) c.world (4 * x))
  | none => k

/-- The checks of R377: the header's address, and the register run that starts at `run`, if any. -/
def Ctx.ringOp (c : Ctx) (a : Field) (run : Option Field) (s : State) (f : Nat → StageRing → Act) : Act :=
  let h := (c.g a.toNat).toNat
  let va : DWord := (c.g a.toNat).setWidth 64
  let r := stageRing ((s.blk c.b).sRead h 16) c.sb
  if h % 16 ≠ 0 then .trap (c.trap 0x13 none va)
  else if c.sb < h + 16 then .trap (c.trap 0x12 none va)
  else
    match c.wv.localLeft with
    | some r => .hold r s
    | none =>
      c.ringData s h 16 <|
        if !r.ok then .trap (c.trap 0x22 none va)
        else
          match run with
          | some d => if 126 < d.toNat + r.esz then .trap (c.trap 0x12) else f h r
          | none => f h r

/-- Local address of entry `t`. -/
def StageRing.entry (r : StageRing) (t : Nat) : Nat := r.base + t % 2 ^ r.log2cap * 16

/-- R377. -/
def execRpush (y : Bool) (a b : Field) (s : State) : Host.Outcome State Fault Refusal :=
  let i := info (.rpush y a b)
  issue i y s fun c s => c.ringOp a (some b) s fun h r =>
    c.withRel 0 s fun s =>
      if r.closed then .trap (c.trap 0x22 none ((c.g a.toNat).setWidth 64))
      else if 2 ^ r.log2cap ≤ r.used then .hold .ring s
      else
        let data := (List.range (r.esz + 1)).flatMap fun j => natBytes 4 (c.g (b.toNat + j)).toNat
        .done (s.modBlk c.b fun k => (k.sWrite (r.entry r.tail) data).sWrite (h + 4) (natBytes 4 (r.tail + 1)))

/-- R377. -/
def execRpop (y : Bool) (d a : Field) (s : State) : Host.Outcome State Fault Refusal :=
  let i := info (.rpop y d a)
  issue i y s fun c s => c.ringOp a (some d) s fun h r =>
    let acq (s : State) : State := s.modPath c.b c.w c.p fun p => { p with acq := some 0 }
    if r.head = r.tail then
      (if r.closed then .done (acq (c.writeGs d.toNat (r.esz + 1) (fun _ => 0xFFFFFFFF#32) s)) else .hold .ring s)
    else
      c.ringData s (r.entry r.head) (4 * (r.esz + 1)) <|
      let e := (s.blk c.b).sRead (r.entry r.head) 16
      .done (acq (c.writeGs d.toNat (r.esz + 1) (fun j => BitVec.ofNat 32 (leNat ((e.drop (4 * j)).take 4)))
        (s.modBlk c.b fun k => k.sWrite h (natBytes 4 (r.head + 1)))))

/-- R377. -/
def execRpeek (y : Bool) (d a : Field) (s : State) : Host.Outcome State Fault Refusal :=
  let i := info (.rpeek y d a)
  issue i y s fun c s => c.ringOp a none s fun _ r =>
    .done (c.writeG d.toNat (BitVec.ofNat 32 (r.used % 2 ^ 16 + r.closed.toNat * 2 ^ 16 + r.head / 2 ^ r.log2cap % 2 * 2 ^ 17)) s)

/-- R377. -/
def execRclose (y : Bool) (a : Field) (s : State) : Host.Outcome State Fault Refusal :=
  let i := info (.rclose y a)
  issue i y s fun c s => c.ringOp a none s fun h _ =>
    c.withRel 0 s fun s =>
      .done (s.modBlk c.b fun k => k.sWrite (h + 10) [k.sByte (h + 10) ||| 1#8])

end Sys2Proof.Machine
end

