-- ==== Sys2Proof/Machine/Copy.lean ====
section
/-! DEFINITION. The COPY major and the copy units: spec/05_copy_engines_and_transforms.md R124–R142, with R71,
R104 and R311. -/

namespace Sys2Proof.Machine

open Sys2Proof

/-! ### Shape records (R132–R135) -/

def shInteg (r : BitVec 512) : Nat := fld r 415 408
def shPolicy (r : BitVec 512) : Nat := fld r 407 400
def shLpitch (r : BitVec 512) : Nat := fld r 399 384
def shOob (r : BitVec 512) : Nat := fld r 377 376
def shSwz (r : BitVec 512) : Nat := fld r 371 368
def shLenc (r : BitVec 512) : Nat := fld r 367 360
def shMenc (r : BitVec 512) : Nat := fld r 359 352
def shRank (r : BitVec 512) : Nat := fld r 346 344
/-- BOXk + 1. -/
def shBox (r : BitVec 512) (k : Nat) : Nat := fld r (319 + 8 * k) (312 + 8 * k) + 1
/-- STRIDEk; dimension 0 has none. -/
def shStride (r : BitVec 512) (k : Nat) : Nat := if k = 0 then 0 else fld r (191 + 40 * k) (152 + 40 * k)
def shSize (r : BitVec 512) (k : Nat) : Nat := fld r (95 + 32 * k) (64 + 32 * k)
def shBase (r : BitVec 512) : Nat := fld r 63 0

/-- Width in bits of an encoding. -/
def encWidth (m : Nat) : Nat := match memEnc m with | some (_, w) => w | none => 8

/-- The pairs (MENC, LENC) of R135, for CPT.GL and for CPT.LG. -/
def shPair (gl : Bool) (m l : Nat) : Bool :=
  m == l || (m == 0x0A && (l == 0x08 || l == 0x09)) ||
    (gl && ((l == 0x0A && (m == 0x08 || m == 0x09)) || ((m == 0x10 || m == 0x11) && (l == 0x08 || l == 0x09))))

/-- Bytes of a row in scratchpad, and the pitch of rows (R134). -/
def shRow (r : BitVec 512) : Nat := shBox r 0 * encWidth (shLenc r) / 8
def shPitch (r : BitVec 512) : Nat := if shLpitch r = 0 then (shRow r + 15) / 16 * 16 else shLpitch r
/-- Rows of the box. -/
def shRows (r : BitVec 512) : Nat := shBox r 1 * shBox r 2 * shBox r 3
/-- Offset from L of byte `t` of row `k` (R134). -/
def shPlace (r : BitVec 512) (k t : Nat) : Nat := k * shPitch r + (t ^^^ (k % 2 ^ shSwz r * 16))
/-- The local footprint: one past the last byte that a row places; only the last 8 rows can hold it. The padding of the last
row up to the pitch is no part of it (DESIGN CHOICE, notes/assumptions/67.md). -/
def shFoot (r : BitVec 512) : Nat :=
  ((List.range (min 8 (shRows r))).map fun i =>
    ((List.range (shRow r)).map fun t => shPlace r (shRows r - 1 - i) t + 1).foldl max 0).foldl max 0

/-- A valid shape record for an origin 0 (R132). DESIGN CHOICE (log 67): a STRIDE or LPITCH that is no multiple of 16, a BASE
that is misaligned or not canonical, and an encoding code 0x00 make a record invalid too. -/
def shValid (gl : Bool) (r : BitVec 512) (o0 : Int) : Bool :=
  let dims := List.range 4
  fld r 511 416 == 0 && fld r 383 378 == 0 && fld r 375 372 == 0 && fld r 351 347 == 0 &&
    1 ≤ shRank r && shRank r ≤ 4 && shInteg r ≤ 1 && shPolicy r ≤ 3 && shOob r ≤ 1 && shSwz r ≤ 3 &&
    shLpitch r % 16 == 0 && shBase r % 16 == 0 && canonical (BitVec.ofNat 64 (shBase r)) &&
    dims.all (fun k => shStride r k % 16 == 0) &&
    dims.all (fun k => if k < shRank r then shSize r k ≠ 0 else shSize r k == 0 && shStride r k == 0 && shBox r k == 1) &&
    (memEnc (shMenc r)).isSome && (memEnc (shLenc r)).isSome && shPair gl (shMenc r) (shLenc r) &&
    (8 ≤ encWidth (shMenc r) || (shBox r 0 % 32 == 0 && shSize r 0 % 32 == 0 && o0 % 32 == 0)) &&
    (shLpitch r == 0 || shRow r ≤ shLpitch r) && shFoot r ≤ 2 ^ 20

/-! ### What a copy does, by segments (R133, R136) -/

/-- Where a byte of a copy lies: scratchpad, or a VA. -/
inductive Side where
  | loc | glob
deriving DecidableEq, Repr, Inhabited

/-- Source side and destination side of a COPY function. -/
def fnSides (fn : Nat) : Side × Side :=
  match fn with
  | 0 | 3 => (.glob, .loc)
  | 1 | 4 => (.loc, .glob)
  | _ => (.glob, .glob)

/-- Some destination bytes and what they take: source bytes, moved or converted, or a fill. -/
structure Piece where
  dst : List Nat
  src : List Nat := []
  conv : Option (Fmt × Fmt) := none
  fill : List Byte := []
deriving DecidableEq, Repr, Inhabited

def Copy.word64 (c : Copy) (i : Nat) : Nat := (c.ops.getD i 0).toNat + (c.ops.getD (i + 1) 0).toNat * 2 ^ 32
/-- Destination and source addresses of a CPY. -/
def Copy.dst (c : Copy) : Nat := if c.fn = 0 then (c.ops.getD 0 0).toNat else c.word64 0
def Copy.src (c : Copy) : Nat := if c.fn = 1 then (c.ops.getD 2 0).toNat else c.word64 2
/-- LEN of a CPY (R138). -/
def Copy.len (c : Copy) : Nat := (c.ops.getD 4 0).toNat / 128
/-- Origin `k` of a CPT. -/
def Copy.org (c : Copy) (k : Nat) : Int := (c.ops.getD (4 + k) 0).toInt
/-- FIRSTSEG of a CPT. -/
def Copy.first (c : Copy) : Nat := if c.fn < 3 then 0 else (c.ops.getD 1 0).toNat % 2 ^ 20
/-- A CPY.GG that is cut from the last byte downward (R136). -/
def Copy.down (c : Copy) : Bool := c.fn == 2 && c.src < c.dst && c.dst < c.src + c.len
def Copy.policy (c : Copy) : Nat := if c.fn < 3 then rbPolicy (c.snap.setWidth 320) else shPolicy c.snap
def Copy.skips (c : Copy) : Bool := if c.fn < 3 then rbInteg (c.snap.setWidth 320) == 1 else shInteg c.snap == 1

/-- Byte ranges of a CPY's segments: `vas` are the first VAs of its global sides. -/
def cpySegs (vas : List Nat) (len : Nat) (down : Bool) : Nat → Nat → List (Nat × Nat)
  | 0, _ => []
  | fuel + 1, p =>
    if down then
      if p = 0 then []
      else
        let lo := (vas.map fun v => (v + p - 1) / 65536 * 65536 - 255 * 65536 - v).foldl max 0
        (lo, p) :: cpySegs vas len down fuel lo
    else
      if len ≤ p then []
      else
        let hi := (vas.map fun v => ((v + p) / 65536 + 256) * 65536 - v).foldl min len
        (p, hi) :: cpySegs vas len down fuel hi

/-- Box indices of row `k` (R133). -/
def shIndex (r : BitVec 512) (k d : Nat) : Nat :=
  match d with
  | 1 => k % shBox r 1
  | 2 => k / shBox r 1 % shBox r 2
  | _ => k / (shBox r 1 * shBox r 2)

/-- The in-bounds elements of row `k`: first and end; the row has none where another coordinate is out. -/
def Copy.rowRange (c : Copy) (k : Nat) : Nat × Nat :=
  let r := c.snap
  let inside := [1, 2, 3].all fun d => shRank r ≤ d ||
    (let x := c.org d + (shIndex r k d : Int); 0 ≤ x && x < (shSize r d : Int))
  let lo := (max 0 (- c.org 0)).toNat
  let hi := (min (shBox r 0 : Int) ((shSize r 0 : Int) - c.org 0)).toNat
  if inside && lo < hi then (lo, hi) else (0, 0)

/-- VA of element `e` of row `k`. -/
def Copy.rowVa (c : Copy) (k e : Nat) : Nat :=
  let r := c.snap
  let x : Int := (shBase r : Int) * 8 + (c.org 0 + (e : Int)) * (encWidth (shMenc r) : Int) +
    (([1, 2, 3].map fun d => (c.org d + (shIndex r k d : Int)) * (shStride r d : Int)).foldl (· + ·) 0) * 8
  (x / 8 % 2 ^ 64).toNat

/-- VA granules that row `k` touches. -/
def Copy.rowGranules (c : Copy) (k : Nat) : List Nat :=
  let (lo, hi) := c.rowRange k
  if lo = hi then []
  else
    let n := (hi - lo) * encWidth (shMenc c.snap) / 8
    let va := c.rowVa k lo
    [va / 65536, (va + n - 1) / 65536 % 2 ^ 48].dedup

/-- Row ranges of a CPT's segments. -/
def cptSegs (granules : Nat → List Nat) (rows : Nat) : List (Nat × Nat) :=
  let r := (List.range rows).foldl (fun (a : List (Nat × Nat) × Nat × List Nat) k =>
    let g := (a.2.2 ++ granules k).dedup
    if 256 < g.length then (a.1 ++ [(a.2.1, k)], k, granules k) else (a.1, a.2.1, g)) (([] : List (Nat × Nat)), 0, ([] : List Nat))
  r.1 ++ [(r.2.1, rows)]

/-- The segments of a copy, as ranges of bytes or rows. -/
def Copy.segs (c : Copy) : List (Nat × Nat) :=
  if c.fn < 3 then
    let vas := (if (fnSides c.fn).1 = .glob then [c.src] else []) ++ (if (fnSides c.fn).2 = .glob then [c.dst] else [])
    cpySegs vas c.len c.down (c.len + 1) (if c.down then c.len else 0)
  else cptSegs c.rowGranules (shRows c.snap)

/-- Byte `i` of the fill of an element (R132 OOB). -/
def shFill (r : BitVec 512) (i : Nat) : Byte :=
  if shOob r = 0 then 0
  else match memEnc (shLenc r) with
    | some (.flt f, _) => BitVec.ofNat 8 (f.nan / 256 ^ i)
    | _ => 0

/-- The pieces of row `k` of a CPT. -/
def Copy.rowPieces (c : Copy) (k : Nat) : List Piece :=
  let r := c.snap
  let base := (c.ops.getD 0 0).toNat
  let (lo, hi) := c.rowRange k
  let mw := encWidth (shMenc r)
  let lw := encWidth (shLenc r)
  let gl := c.fn == 3
  if shMenc r = shLenc r then
    (List.range (shRow r)).filterMap fun t =>
      let at_ := base + shPlace r k t
      if lo * lw ≤ 8 * t ∧ 8 * t < hi * lw then
        let va := (c.rowVa k lo + (t - lo * lw / 8)) % 2 ^ 64
        some (if gl then { dst := [at_], src := [va] } else { dst := [va], src := [at_] })
      else if gl then some { dst := [at_], fill := [shFill r (t % (max 1 (lw / 8)))] }
      else none
  else
    (List.range (shBox r 0)).filterMap fun e =>
      let loc := (List.range (lw / 8)).map fun i => base + shPlace r k (e * lw / 8 + i)
      if lo ≤ e ∧ e < hi then
        let va := (List.range (mw / 8)).map fun i => (c.rowVa k e + i) % 2 ^ 64
        match memEnc (shMenc r), memEnc (shLenc r) with
        | some (.flt m, _), some (.flt l, _) =>
          some (if gl then { dst := loc, src := va, conv := some (m, l) } else { dst := va, src := loc, conv := some (l, m) })
        | _, _ => none
      else if gl then some { dst := loc, fill := (List.range (lw / 8)).map (shFill r) }
      else none

/-- The pieces of segment `k`. -/
def Copy.pieces (c : Copy) (k : Nat) : List Piece :=
  let (lo, hi) := c.segs.getD k (0, 0)
  if c.fn < 3 then (List.range (hi - lo)).map fun i => { dst := [(c.dst + lo + i) % 2 ^ 64], src := [(c.src + lo + i) % 2 ^ 64] }
  else (List.range (hi - lo)).flatMap fun i => c.rowPieces (lo + i)

/-- Bytes of a piece from its source bytes. -/
def Piece.bytes (p : Piece) (src : List Byte) : List Byte :=
  match p.conv with
  | some (f, t) => natBytes (t.width / 8) (stageEncode t (f.value (leNat src)))
  | none => if p.src = [] then p.fill else src

/-! ### The copy units -/

def State.copy? (s : State) (id : Nat) : Option Copy := s.copies.find? fun c => c.id == id
def State.modCopy (s : State) (id : Nat) (f : Copy → Copy) : State :=
  { s with copies := s.copies.map fun c => if c.id = id then f c else c }

/-- Pending copies of a core's unit (R124). -/
def State.unitLoad (s : State) (core : Nat) : Nat :=
  (s.copies.filter fun c => c.st != .done && (s.blk (c.wave / 32)).st == .resident && (s.blk (c.wave / 32)).core == core).length

/-- A copy stops or completes: it holds nothing any more. -/
def State.copyEnd (s : State) (c : Copy) : State :=
  { s with
    pins := c.pins.foldl (fun m g => SMap.put 0 m g (SMap.get 0 m g - 1)) s.pins
    owned := s.owned.filter fun e => e.2.2 != c.id }

/-- CODE of a failure with a cause (R129). -/
def stopCode (cause : Nat) : Nat := if cause = 0x14 then 2 else 1

/-- A copy that holds no segment, in a state; one that is done keeps nothing of what it read. -/
def Copy.idle (c : Copy) (st : CopySt) : Copy :=
  { c with st, pins := [], owned := [], gmap := [], put := [], lines := if st = .done then [] else c.lines }

/-- The copy stops before its next segment, or in it. -/
def State.copyStop (s : State) (id code cause sub va : Nat) : State :=
  match s.copy? id with
  | none => s
  | some c =>
    (s.copyEnd c).modCopy id fun x => { x.idle .done with code, cause, sub, va := BitVec.ofNat 64 va }

/-- A copy is among the 64 that its core's unit holds: copies that a restore issues again wait for their entry (R124, R131). -/
def State.inUnit (s : State) (c : Copy) : Bool :=
  (s.copies.filter fun x => x.id < c.id && x.st != .done && (s.blk (x.wave / 32)).st == .resident &&
    (s.blk (x.wave / 32)).core == (s.blk (c.wave / 32)).core).length < 64

/-- An earlier copy of the wave is unfinished (R125). -/
def State.copyBehind (s : State) (c : Copy) : Bool := s.copies.any fun x => x.wave == c.wave && x.id < c.id && x.st != .done
/-- A copy of the same batch has stopped (R125). -/
def State.batchStopped (s : State) (c : Copy) : Bool :=
  s.copies.any fun x => x.wave == c.wave && x.batch == c.batch && x.id < c.id && x.code ≠ 0

/-- The lowest VA in each aligned piece of `n` bytes. -/
def lowestIn (n : Nat) (vas : List Nat) : List Nat :=
  ((vas.map (· / n)).dedup).map fun g => (vas.filter fun v => v / n == g).foldl min (g * n + n - 1)

/-- The first failure in VA order. -/
def lowestFail (l : List (Nat × Nat × Nat)) : Option (Nat × Nat × Nat) :=
  l.foldl (fun b e => match b with | some x => if e.1 < x.1 then some e else b | none => some e) none

/-- A step of a segment's start: the state, the failures (VA, cause, subcause), whether it must wait. -/
structure SegWalk where
  s : State
  fails : List (Nat × Nat × Nat) := []
  wait : Bool := false

/-- Step 2 of R127 for one granule, from its lowest VA: the walk, the port of peer memory. An uncorrectable error is entered
in the last-events record (R22). -/
def SegWalk.walk (w : SegWalk) (world va ia : Nat) (store : Bool) : SegWalk :=
  match w.s.translate world ia store with
  | (s, .fault f) => { w with s := s.noteData f world ia, fails := w.fails ++ [(va, f.1, f.2)] }
  | (s, .pa pa) =>
    match s.portFor world pa with
      | .none => { w with s, fails := w.fails ++ [(va, 0x10, 3)] }
      | .train => { w with s, wait := true }
      | .ok => { w with s }

/-- R311 in step 2 for one destination line. -/
def SegWalk.heap (w : SegWalk) (world va ia : Nat) : SegWalk :=
  if w.s.inHeap ia then
    match w.s.heapWrite world ia with
    | (true, s) => { w with s }
    | (false, s) => { w with s, fails := w.fails ++ [(va, 0x10, 3)] }
  else w

/-- IA of a VA under a granule map. -/
def iaOf (gmap : List (Nat × Nat)) (va : Nat) : Nat :=
  match gmap.find? fun e => e.1 == va / 65536 with
  | some e => e.2 * 65536 + va % 65536
  | none => 0

/-- VAs that a segment reads, and VAs that it writes. -/
def Copy.reads (c : Copy) : List Nat := if (fnSides c.fn).1 = .glob then (c.pieces c.next).flatMap Piece.src else []
def Copy.writes (c : Copy) : List Nat := if (fnSides c.fn).2 = .glob then (c.pieces c.next).flatMap Piece.dst else []

/-- Step 1 of R127 for the next segment of a copy: its granule map, or its lowest VA that R63 refuses and the cause. Each
line is checked: the heap may end inside a granule (R310). -/
def State.segMap (s : State) (c : Copy) : Except (Nat × Nat × Nat) (List (Nat × Nat)) :=
  let l := s.launchOf (c.wave / 32)
  let core := (s.blk (c.wave / 32)).core
  let asid := recAsid l.record
  let mapped (need : Need) (va : Nat) : Except Nat Nat :=
    s.mapAccess core asid l.world (asid % 4096 == 0) (recSV l.record && recShade l.record) need (BitVec.ofNat 64 va)
  let bad (need : Need) (va : Nat) : Option (Nat × Nat × Nat) := match mapped need va with | .error e => some (va, e, 0) | .ok _ => none
  let granule (need : Need) (va : Nat) : Nat × Nat := (va / 65536, match mapped need va with | .ok ia => ia / 65536 | .error _ => 0)
  match lowestFail ((lowestIn 128 c.reads).filterMap (bad .load) ++ (lowestIn 128 c.writes).filterMap (bad .store)) with
  | some e => .error e
  | none => .ok (((lowestIn 65536 c.reads).map (granule .load) ++ (lowestIn 65536 c.writes).map (granule .store)).dedup)

/-- The IA granules that a segment pins, and its destination lines with the lowest VA in each. -/
def Copy.pinning (c : Copy) : List Nat := ((c.gmap.map Prod.snd).filter fun g => !iaDirect (g * 65536)).dedup
def Copy.destLines (c : Copy) : List (Nat × Nat) :=
  ((c.writes.map fun v => iaOf c.gmap v / 128).dedup).map fun x =>
    (x, (c.writes.filter fun v => iaOf c.gmap v / 128 == x).foldl min (2 ^ 64))

/-- The tables have room for all of a segment's pins and lines (R71, R104). -/
def State.segRoom (s : State) (c : Copy) : Bool :=
  let lines := c.destLines.map Prod.fst
  let home (x : Nat) : Nat := homeSlice (x * 128)
  s.pinRoom c.pinning && c.pinning.all (fun g => s.pinCount g ≠ 65535) &&
    lines.all fun x => (s.owned.filter fun e => home e.1 == home x).length + (lines.filter fun y => home y == home x).length ≤ 1024

/-- Steps 2 and 3 of R127 for a mapped segment: all of its pins and lines, or none. A line that it takes comes home first
(R103, R104). -/
def State.segTake (s : State) (c : Copy) : State :=
  let world := (s.launchOf (c.wave / 32)).world
  let core := (s.blk (c.wave / 32)).core
  let w : SegWalk := (lowestIn 65536 c.reads).foldl (fun w v => w.walk world v (iaOf c.gmap v) false) { s }
  let w := (lowestIn 65536 c.writes).foldl (fun w v => w.walk world v (iaOf c.gmap v) true) w
  let w := if w.fails = [] ∧ !w.wait then c.destLines.foldl (fun w e => w.heap world e.2 (e.1 * 128)) w else w
  match w.wait, lowestFail w.fails with
  | true, _ => w.s
  | false, some (va, cause, sub) => w.s.copyStop c.id (stopCode cause) cause sub va
  | false, none =>
    if !w.s.segRoom c then w.s.modCopy c.id fun x => { x.idle .refused with gmap := c.gmap }
    else
      let lines := c.destLines.map Prod.fst
      let s := lines.foldl (fun s x => s.recall world x) w.s
      ({ s with
          pins := c.pinning.foldl (fun m g => SMap.put 0 m g (SMap.get 0 m g + 1)) s.pins
          owned := s.owned ++ lines.map fun x => (x, core, c.id) }).modCopy c.id fun x =>
        { x with st := .pinned, pins := c.pinning, owned := lines, gmap := c.gmap, put := [] }

/-- Steps 1 to 3 of R127 for the next segment of a copy. -/
def State.segStart (s : State) (c : Copy) : State :=
  match s.segMap c with
  | .error (va, cause, sub) => s.copyStop c.id 1 cause sub va
  | .ok gmap => s.segTake { c with gmap }

/-- A copy runs while it is in its core's unit, and its block is resident, its banks awake, and not stopping (R124, R131,
R160). -/
def State.copyRuns (s : State) (c : Copy) : Bool :=
  (s.blk (c.wave / 32)).st == .resident && (s.blk (c.wave / 32)).waking == [] && !(s.blk (c.wave / 32)).stopping && s.inUnit c

/-- COPY_SEGMENT_START (R127 steps 1–3, R125, R128). -/
def execCopySegmentStart (b w c : Nat) (s : State) : Host.Outcome State Fault Refusal :=
  match s.copy? c with
  | none => .next s
  | some x =>
    if x.wave ≠ b * 32 + w || x.st ≠ .queued || s.copyBehind x || !s.copyRuns x then .next s
    else if s.batchStopped x then .next (s.modCopy c fun x => { x.idle .done with code := 0 })
    else if x.code ≠ 0 then .next (s.modCopy c fun x => x.idle .done)
    else if (s.launchOf b).cancelled then .next (s.copyStop c 3 0 0 0)
    else if x.segs.length ≤ x.next then .next (s.modCopy c fun x => x.idle .done)
    else .next (s.segStart x)

/-- PIN_RETRY (R71, R127): steps 2 and 3 once more, when the refusing table has room. -/
def execPinRetry (b w c : Nat) (s : State) : Host.Outcome State Fault Refusal :=
  match s.copy? c with
  | none => .next s
  | some x =>
    if x.wave ≠ b * 32 + w || x.st ≠ .refused || !s.copyRuns x then .next s
    else if (s.launchOf b).cancelled then .next (s.copyStop c 3 0 0 0)
    else if !s.segRoom x then .next s
    else .next (s.segTake x)

/-! ### Moving a segment -/

/-- What a stop of L2 is to a copy's access at an IA: it waits, for a way of the IA's slice or for a link, or it is not done:
a failed check and peer memory that no port leads to any more are entered in the last-events record (R22, R427). -/
def copyStopped (world ia pa : Nat) : L2Stop × State → Except (Option Nat) State
  | (.park, _) => .error (some ia)
  | (.train, _) => .error none
  | (.bad, s) => .ok (s.log 5 (some 0x14) none world pa)
  | (.noPort, s) => .ok (s.logFault (fTrans 3) none world pa)

/-- Read a source line: its data, `none` where a check fails (R22, R128), or the wait that keeps it. -/
def State.copyRead (s : State) (world core policy ia : Nat) : Except (Option Nat) (Option Line × State) :=
  match s.paFor world ia false with
  | (s, .fault f) => .ok (none, s.noteData f world ia)
  | (s, .pa pa) =>
    match (s.unhold world ia).l2Load { core := some core, world, ia, pa, policy } with
    | .ok (d, s) => .ok (some d, s)
    | .error e => (copyStopped world ia pa e).map (none, ·)

/-- Read a source: a line, or an aligned word of the block's scratchpad (R126). -/
def State.segRead (s : State) (c : Copy) (x : Nat) : Except (Option Nat) (Option Line × State) :=
  let k := s.blk (c.wave / 32)
  let world := (s.launchOf (c.wave / 32)).world
  if (fnSides c.fn).1 = .glob then s.copyRead world k.core c.policy (x * 128)
  else if k.badWords.contains x then .ok (none, s.log 5 (some 0x14) (some k.core) world (4 * x))
  else .ok (some (BitVec.ofNat 1024 (leNat ((List.range 4).map fun i => k.sByte (4 * x + i)))), s)

/-- Read some sources, in a list's order. -/
def State.segReads (s : State) (c : Copy) : List Nat → Except (Option Nat) (List (Nat × Option Line) × State)
  | [] => .ok ([], s)
  | x :: t =>
    match s.segRead c x with
    | .error e => .error e
    | .ok (d, s) =>
      match State.segReads s c t with
      | .error e => .error e
      | .ok (l, s) => .ok ((x, d) :: l, s)

/-- Runs of consecutive bytes, from bytes by rising offset. -/
def byteRuns : List (Nat × Byte) → List (Nat × List Byte)
  | [] => []
  | (o, x) :: t =>
    match byteRuns t with
    | (p, l) :: rest => if p = o + 1 then (o, x :: l) :: rest else (o, [x]) :: (p, l) :: rest
    | [] => [(o, [x])]

/-- Write the bytes of one global destination line in L2, and drop it from the core's L1 (R104, R126). A heap slot
that is no longer open, and a line whose check fails, take no write (R311, R168). -/
def State.copyWrite (s : State) (world core policy line : Nat) (bs : List (Nat × Byte)) : Except (Option Nat) State :=
  match s.paFor world (line * 128) true with
  | (s, .fault f) => .ok (s.logFault f none world (line * 128))
  | (s, .pa pa) =>
    match s.heapOk world (line * 128) with
    | (false, s) => .ok s
    | (true, s) =>
      let s := (s.unhold world (line * 128)).l1Drop core (line * 128)
      let sorted := sortBy (fun a b => a.1 ≤ b.1) bs
      (byteRuns sorted).foldl (fun (r : Except (Option Nat) State) e =>
        match r with
        | .ok s =>
          (match s.l2Write { core := some core, world, ia := line * 128 + e.1, pa := pa + e.1, policy } e.2 with
           | .error x => copyStopped world (line * 128) pa x
           | .ok s => .ok s)
        | r => r) (.ok s)

/-- The source that holds address `a`: its line, or its aligned word. -/
def Copy.source (c : Copy) (a : Nat) : Nat := if (fnSides c.fn).1 = .glob then iaOf c.gmap a / 128 else a / 4
/-- The destination line of address `a`: a line of L2, or an aligned 128-byte block of local addresses (R129). -/
def Copy.destLine (c : Copy) (a : Nat) : Nat := if (fnSides c.fn).2 = .glob then iaOf c.gmap a / 128 else a / 128
/-- What is written together at address `a`: a line of L2, or a byte of the scratchpad (R126). -/
def Copy.unit (c : Copy) (a : Nat) : Nat := if (fnSides c.fn).2 = .glob then iaOf c.gmap a / 128 else a
/-- The destination line of a unit. -/
def Copy.unitLine (c : Copy) (u : Nat) : Nat := if (fnSides c.fn).2 = .glob then u else u / 128

/-- The bytes of a segment, from what has been read: destination address, the byte, and whether a failing source feeds it. -/
def Copy.bytes (c : Copy) (lines : List (Nat × Option Line)) : List (Nat × Byte × Bool) :=
  (c.pieces c.next).flatMap fun p =>
    let byte (a : Nat) : Option Byte :=
      match lines.find? fun e => e.1 == c.source a with
      | some (_, some d) => some (lineByte d (if (fnSides c.fn).1 = .glob then iaOf c.gmap a % 128 else a % 4))
      | _ => none
    let src := p.src.map byte
    let bs := p.bytes (src.map fun x => x.getD 0)
    p.dst.zipIdx.map fun e => (e.1, bs.getD e.2 0, src.any Option.isNone)

/-- The sources that feed some destination lines. -/
def Copy.feeds (c : Copy) (lines : List Nat) : List Nat :=
  (((c.pieces c.next).filter fun p => p.dst.any fun a => lines.contains (c.destLine a)).flatMap fun p => p.src.map c.source).dedup
/-- The sources that are such lines themselves, and are read before those are written (R126). -/
def Copy.ownSources (c : Copy) (lines : List Nat) : List Nat :=
  if (fnSides c.fn).1 = .glob ∧ (fnSides c.fn).2 = .glob then
    (((c.pieces c.next).flatMap fun p => p.src.map c.source).filter lines.contains).dedup
  else []

/-- Some of a list, as the free values have it. -/
def State.freeSublist {α : Type} (s : State) : List α → List α × State
  | [] => ([], s)
  | x :: t =>
    let (take, s) := s.freeBit
    let (l, s) := State.freeSublist s t
    (if take then x :: l else l, s)

/-- Write some units of a segment. -/
def State.segWrite (s : State) (c : Copy) (bs : List (Nat × Byte × Bool)) (units : List Nat) : Except (Option Nat) State :=
  let b := c.wave / 32
  let bytesOf (u : Nat) : List (Nat × Byte) := (bs.filter fun e => c.unit e.1 == u && !e.2.2).map fun e => (e.1, e.2.1)
  if (fnSides c.fn).2 = .glob then
    units.foldl (fun (r : Except (Option Nat) State) u =>
      match r with
      | .ok s => s.copyWrite (s.launchOf b).world (s.blk b).core c.policy u ((bytesOf u).map fun e => (iaOf c.gmap e.1 % 128, e.2))
      | r => r) (.ok s)
  else .ok (s.modBlk b fun k => { k with scratch := units.foldl (fun m u => (bytesOf u).foldl (fun m e => SMap.put 0 m e.1 e.2) m) k.scratch })

/-- The units of a segment that are still to be written. -/
def Copy.left (c : Copy) : List Nat := (((c.pieces c.next).flatMap Piece.dst).map c.unit).dedup.filter fun u => !c.put.contains u

/-- A source that failed its check feeds a destination line. -/
def Copy.fedBad (c : Copy) (lines : List (Nat × Option Line)) (x : Nat) : Bool :=
  (c.feeds [x]).any fun k => lines.any fun e => e.1 == k && e.2.isNone

/-- A copy that stops inside a segment writes the lines of the scratchpad that it has begun whole (R128). -/
def State.segSettle (s : State) (c : Copy) : State :=
  match s.segWrite c (c.bytes c.lines) (c.left.filter fun u =>
    (c.put.map c.unitLine).contains (c.unitLine u) && !c.fedBad c.lines (c.unitLine u)) with
  | .ok s => s
  | .error _ => s

/-- A copy unit's access, as one of its wave: lane 34, with the copy's number as the operation. -/
def State.copyWho (s : State) (c : Copy) : Who :=
  { b := c.wave / 32, w := c.wave % 32, op := c.id, lane := 34, core := (s.blk (c.wave / 32)).core, world := (s.launchOf (c.wave / 32)).world }

/-- A part of step 4 of R127: units `pick` of the destination, after the sources of their lines and, where the spans overlap,
those lines themselves have been read (R126, R139). The ownership of a line ends as it is written (R104). A check that fails
stops the copy, or leaves the bytes that it feeds (R128); a line that an earlier segment has left stays left. The VA of a
failing scratchpad word is its local address (DESIGN CHOICE, notes/assumptions/67.md). -/
def State.segPart (s : State) (c : Copy) (pick : List Nat) : Except (Option Nat) State :=
  let begun := (pick.map c.unitLine).dedup
  match s.segReads c ((c.feeds begun ++ c.ownSources begun).dedup.filter fun x => !c.lines.any fun e => e.1 == x) with
  | .error e => .error e
  | .ok (news, s) =>
    let lines := c.lines ++ news
    let fed (x : Nat) : Bool := c.fedBad lines x
    let stop := !c.skips && news.any fun e => e.2.isNone
    -- under INTEG 1 a byte of the scratchpad that no failed source feeds is written all the same
    let write := pick.filter fun u =>
      if (fnSides c.fn).2 = .loc then c.skips || !fed (c.unitLine u) else !fed u && !c.skipped.contains u
    match s.segWrite c (c.bytes lines) write with
    | .error e => .error e
    | .ok s =>
      let va := (((c.pieces c.next).flatMap Piece.src).filter fun a => news.any fun e => e.1 == c.source a && e.2.isNone).foldl min (2 ^ 64)
      let ends (x : Nat) : Bool := (fnSides c.fn).2 == .glob && write.contains x
      let next := { c with lines, put := c.put ++ write }
      let s := if stop then s.segSettle next else s
      .ok (({ s with owned := s.owned.filter fun e => !(e.2.2 == c.id && ends e.1) }).modCopy c.id fun x =>
        let x := { x with
          lines, put := x.put ++ pick
          owned := x.owned.filter fun l => !ends l
          skipped := if c.skips then (x.skipped ++ begun.filter fed).dedup else x.skipped }
        if stop then { x with st := .moved, code := 2, cause := 0x14, sub := 7, va := BitVec.ofNat 64 va }
        else if c.left.all pick.contains then { x with st := .moved }
        else x)

/-- Step 4 of R127 goes on. Lines that a thread's access has recalled come ahead of the others, unless their sources have
still to be read and that read waits (R105); a CPY.GG that overlaps upward moves its bytes from the highest down (R136); any
other copy takes some of its units, in any order (R126). -/
def State.segMove (s : State) (c : Copy) : State :=
  let wait (e : Option Nat) : State := e.elim s fun ia => s.parkWait (s.copyWho c) ia
  let recalled := c.left.filter fun u => (fnSides c.fn).2 == .glob && s.ownWait.any fun e => e.1 == u
  let others := c.left.filter fun u => !recalled.contains u
  let rest : Except (Option Nat) State :=
    if c.down then s.segPart c (others.reverse.take 1)
    else
      let (pick, t) := s.freeSublist others
      t.segPart c (if pick = [] then others.take 1 else pick)
  if recalled = [] then
    match rest with
    | .ok s => s
    | .error e => wait e
  else
    match s.segPart c recalled with
    | .ok s => s
    | .error e =>
      if others = [] then wait e
      else match rest with
        | .ok s => s
        | .error _ => wait e

/-- COPY_SEGMENT_MOVE (R127 step 4). -/
def execCopySegmentMove (b w c : Nat) (s : State) : Host.Outcome State Fault Refusal :=
  match s.copy? c with
  | none => .next s
  | some x =>
    if x.wave = b * 32 + w ∧ x.st = .pinned ∧ (s.blk b).st = .resident ∧ (s.blk b).waking = [] then .next (s.segMove x) else .next s

/-- COPY_SEGMENT_COMPLETE (R127 step 5, R128): the pins fall, and what ownership is left ends. -/
def execCopySegmentComplete (b w c : Nat) (s : State) : Host.Outcome State Fault Refusal :=
  match s.copy? c with
  | none => .next s
  | some x =>
    if x.wave ≠ b * 32 + w || x.st ≠ .moved then .next s
    else
      let s := s.copyEnd x
      if x.code ≠ 0 then .next (s.modCopy c fun x => x.idle .done)
      else if x.segs.length ≤ x.next + 1 then .next (s.modCopy c fun x => { x.idle .done with next := x.next + 1 })
      else
        let s := s.modCopy c fun x => { x.idle .queued with next := x.next + 1 }
        .next (if (s.launchOf b).cancelled then s.copyStop c 3 0 0 0 else s)

/-! ### Batches (R124, R129, R130, R137) -/

/-- Closed batches of a wave that have not completed. -/
def Wave.openBatches (v : Wave) : Nat := (v.openBatch - 1 + 2 ^ 32 - v.batchDone.toNat) % 2 ^ 32

/-- A completion record (R129). -/
def completionRecord (va skipped segdone index sub cause code copies batch : Nat) : List Byte :=
  natBytes 32 (batch % 2 ^ 32 + copies % 2 ^ 32 * 2 ^ 32 + code * 2 ^ 72 + cause * 2 ^ 80 + sub * 2 ^ 88 +
    index % 2 ^ 32 * 2 ^ 96 + segdone % 2 ^ 32 * 2 ^ 128 + skipped % 2 ^ 32 * 2 ^ 160 + va % 2 ^ 64 * 2 ^ 192)

/-- Complete batch `n` of a wave: its record, which a slot of the shading heap takes only as any write (R311), BATCHDONE and
the failure latch. -/
def State.finishBatch (s : State) (b w n : Nat) : State :=
  let v := s.wv b w
  let world := (s.launchOf b).world
  let mine (c : Copy) : Bool := c.wave == b * 32 + w && c.batch == n
  let cs := s.copies.filter mine
  let count := match v.batches.find? fun x => x.num == n with | some x => x.copies | none => 0
  let skipped := (cs.map fun c => c.skipped.length).foldl (· + ·) 0
  let stop := cs.foldl (fun (r : Option Copy) c => match r with
    | some x => if c.code ≠ 0 ∧ c.pos < x.pos then some c else r
    | none => if c.code ≠ 0 then some c else none) none
  let code := match stop with | some c => c.code | none => if skipped ≠ 0 then 2 else 0
  let bytes := match stop with
    | some c => completionRecord c.va.toNat skipped c.next c.pos c.sub c.cause code count n
    | none => completionRecord 0 skipped 0 count 0 0 code count n
  let s := match (v.batches.find? fun x => x.num == n).bind Batch.comp with
    | some (va, ia) =>
      (match (s.systemLines world false).heapOk world ia with
       | (false, s) => s.logFault (fTrans 3) (some (s.blk b).core) world va
       | (true, s) =>
         match s.engWrite world ia bytes with
         | (some f, s) => s.logFault f (some (s.blk b).core) world va
         | (none, s) => s)
    | none => s
  { s with copies := s.copies.filter fun c => !mine c }.modWv b w fun v =>
    { v with
      batches := v.batches.filter fun x => x.num != n
      batchDone := BitVec.ofNat 32 n
      latch := if v.latch.isNone && code ≠ 0 then some (n, code) else v.latch }

/-- BATCH_COMPLETE (R124, R129, R130): the wave's oldest closed batch, once its copies have completed or stopped. -/
def execBatchComplete (b w : Nat) (s : State) : Host.Outcome State Fault Refusal :=
  let v := s.wv b w
  if v.openBatches = 0 || b ≥ s.blocks.length || (s.blk b).st ≠ .resident then .next s
  else
    let n := v.openBatch - v.openBatches
    if s.copies.any fun c => c.wave == b * 32 + w && c.batch == n && c.st != .done then .next s
    else .next (s.finishBatch b w n)

/-! ### The COPY major (R137–R142) -/

/-- Enter a copy in its core's unit and the wave's open batch, or hold it while the unit is full (R124). -/
def Ctx.enqueue (c : Ctx) (x : Copy) (s : State) : Act :=
  if 64 ≤ s.unitLoad c.blk.core then .hold .batch s
  else
    let n := c.wv.openBatch
    let pos := match c.wv.batches.find? fun y => y.num == n with | some y => y.copies | none => 0
    let id := (s.copies.map Copy.id).foldl max 0 + 1
    let x := { x with id, pos, batch := n, wave := c.b * 32 + c.w, word := c.pa.word, pc := c.pa.pc }
    .done ({ s with copies := s.copies ++ [x] }.modWv c.b c.w fun v =>
      { v with batches := { (v.batches.find? fun (y : Batch) => y.num == n).getD { num := n } with copies := pos + 1 } ::
                            v.batches.filter fun (y : Batch) => y.num != n })

/-- The words of a COPY instruction's operands, zero where the form uses none (R408 OPS): a CPY's local side is one word. -/
def Ctx.copyWords (c : Ctx) (fn d a b nb : Nat) : List Word :=
  [c.g d, if fn = 0 then 0 else c.g (d + 1), c.g a, if fn = 1 then 0 else c.g (a + 1)] ++
    (List.range 4).map fun i => if i < nb then c.g (b + i) else 0

/-- The first trap of checks made one after another. -/
def firstTrap : List (Option TrapInfo) → Option TrapInfo
  | [] => none
  | some t :: _ => some t
  | none :: r => firstTrap r

/-- The first byte, every 64 KiB boundary and the last byte of a span. -/
def spanVas (va len : Nat) : List Nat :=
  va :: ((List.range ((va % 65536 + len - 1) / 65536)).map fun i => (va / 65536 + i + 1) * 65536) ++ [va + len - 1]

/-- CPY (R139). -/
def Ctx.cpy (c : Ctx) (fn d a b : Nat) (s : State) : Act :=
  let x : Copy := { fn, ops := c.copyWords fn d a b 1 }
  let ctl := c.g b
  let rec_ := ctl.toNat % 128
  let len := x.len
  let sides := fnSides fn
  let spans : List (Side × Nat × Need) := [(sides.2, x.dst, .store), (sides.1, x.src, .load)]
  let ordered := if fn = 0 then spans else if fn = 1 then spans.reverse else spans
  let globs := spans.filter fun e => e.1 == .glob
  let t (code va : Nat) : Option TrapInfo := some (c.trap code none (BitVec.ofNat 64 va))
  let align := ordered.findSome? fun e => if e.2.1 % 4 ≠ 0 then t 0x13 e.2.1 else none
  match firstTrap [align, if len % 4 ≠ 0 then t 0x13 len else none, if len = 0 then t 0x12 len else none] with
  | some tr => .trap tr
  | none =>
    let eva := c.recVa rec_
    match c.record s rec_ with
    | .bad s => .trapIn (c.trap 0x17 none eva) s
    | .park s => .hold .park s
    | .ok rc s =>
      let bad := (rec_ ≠ 0 && recordMalformed rc) || rbKind rc ≠ 1
      let perm := globs.any fun e => !rbPermits rc e.2.2
      let extent := globs.findSome? fun e =>
        if rec_ ≠ 0 && (e.2.1 < rbBase rc || rbBase rc + rbExtent rc < e.2.1 + len) then t 0x12 e.2.1 else none
      let local_ := spans.findSome? fun e => if e.1 = .loc ∧ c.sb < e.2.1 + len then t 0x12 e.2.1 else none
      let mapped := globs.findSome? fun e => (spanVas e.2.1 len).findSome? fun va =>
        match c.map s e.2.2 (BitVec.ofNat 64 va) with
        | .error code => t code va
        | .ok _ => none
      match firstTrap [if bad then some (c.trap 0x17 none eva) else none, if perm then some (c.trap 0x11 none eva) else none,
          extent, local_, mapped] with
      | some tr => .trapIn tr s
      | none => c.enqueue { x with snap := rc.setWidth 512 } s

/-- Find a shape record through the record cache (R123): its bits, a failure of its read, or a wait. -/
def Ctx.shapeRecord (c : Ctx) (s : State) (va : DWord) : Except SyncStop (BitVec 512) × State :=
  match (s.core c.blk.core).shapes.find? (fun e => e.1 == recKey c.asid va) with
  | some e => (.ok e.2, s)
  | none =>
    match c.readVA s va 64 with
    | .error (e, s) => (.error e, match e with | .fault f => s.noteData f c.world va.toNat | _ => s)
    | .ok (bs, s) =>
      let r := BitVec.ofNat 512 (leNat bs)
      let (l, s) := s.recFill (s.core c.blk.core).shapes 32 (recKey c.asid va) r
      (.ok r, s.modCore c.blk.core fun k => { k with shapes := l })

/-- CPT (R139): its precise checks, the snapshot, and the failures that stop the copy before its first segment. -/
def Ctx.cpt (c : Ctx) (fn d a b : Nat) (s : State) : Act :=
  let x : Copy := { fn, ops := c.copyWords fn d a b 4 }
  let rva := x.word64 2
  let la := (c.g d).toNat
  let x := { x with next := x.first }
  if rva % 64 ≠ 0 then .trap (c.trap 0x13 none (BitVec.ofNat 64 rva))
  else if la % 16 ≠ 0 then .trap (c.trap 0x13 none (BitVec.ofNat 64 la))
  else if fld (c.g (d + 1)) 31 20 ≠ 0 then .trap (c.trap 0x12 none ((c.g (d + 1)).setWidth 64))
  else if 64 ≤ s.unitLoad c.blk.core then .hold .batch s
  else
    let fail (cause sub va : Nat) (s : State) : Act :=
      c.enqueue { x with code := stopCode cause, cause, sub, va := BitVec.ofNat 64 va } s
    match c.shapeRecord s (BitVec.ofNat 64 rva) with
    | (.error .park, s) => .hold .batch s
    | (.error (.trap code), s) => fail code 0 rva s
    | (.error (.fault f), s) => fail f.1 f.2 rva s
    | (.ok r, s) =>
      let x := { x with snap := r }
      if !shValid (fn == 3) r (x.org 0) then
        c.enqueue { x with code := 1, cause := 0x17, va := BitVec.ofNat 64 rva } s
      else if c.sb < la + shFoot r ∨ x.segs.length ≤ x.first then c.enqueue { x with code := 1, cause := 0x12 } s
      else c.enqueue x s

/-- R137–R139. -/
def execCpyGl (y : Bool) (d a b : BitVec 4) (s : State) : Host.Outcome State Fault Refusal :=
  let i := info (.cpyGl y d a b)
  issue i y s fun c s => c.cpy 0 d.toNat a.toNat b.toNat s

/-- R137–R139. -/
def execCpyLg (y : Bool) (d a b : BitVec 4) (s : State) : Host.Outcome State Fault Refusal :=
  let i := info (.cpyLg y d a b)
  issue i y s fun c s => c.cpy 1 d.toNat a.toNat b.toNat s

/-- R137–R139. -/
def execCpyGg (y : Bool) (d a b : BitVec 4) (s : State) : Host.Outcome State Fault Refusal :=
  let i := info (.cpyGg y d a b)
  issue i y s fun c s => c.cpy 2 d.toNat a.toNat b.toNat s

/-- R137–R139. -/
def execCptGl (y : Bool) (d a : BitVec 4) (b : BitVec 2) (s : State) : Host.Outcome State Fault Refusal :=
  let i := info (.cptGl y d a b)
  issue i y s fun c s => c.cpt 3 d.toNat a.toNat (4 * b.toNat) s

/-- R137–R139. -/
def execCptLg (y : Bool) (d a : BitVec 4) (b : BitVec 2) (s : State) : Host.Outcome State Fault Refusal :=
  let i := info (.cptLg y d a b)
  issue i y s fun c s => c.cpt 4 d.toNat a.toNat (4 * b.toNat) s

/-- Close the wave's open batch (R140). -/
def Wave.closeBatch (v : Wave) (comp : Option (Nat × Nat)) : Wave :=
  let n := v.openBatch
  { v with
    openBatch := n + 1
    batches :=
      match v.batches.find? fun y => y.num == n with
      | some y => { y with closed := true, comp } :: v.batches.filter fun y => y.num != n
      | none => if comp.isSome then { num := n, closed := true, comp } :: v.batches else v.batches }

/-- R140. -/
def execCpbatch (y : Bool) (a : BitVec 4) (s : State) : Host.Outcome State Fault Refusal :=
  let i := info (.cpbatch y a)
  issue i y s fun c s =>
    if a = 0 then .done (s.modWv c.b c.w fun v => v.closeBatch none)
    else
      let va := c.bc64 a
      if va.toNat % 32 ≠ 0 then .trap (c.trap 0x13 none va)
      else
        match c.map s .store va with
        | .error code => .trap (c.trap code none va)
        | .ok ia => .done (s.modWv c.b c.w fun v => v.closeBatch (some (va.toNat, ia)))

/-- R141. -/
def execCpwait (y : Bool) (d : Field) (a : BitVec 4) (s : State) : Host.Outcome State Fault Refusal :=
  let i := info (.cpwait y d a)
  issue i y s fun c s =>
    let n := c.bc a
    let v := s.wv c.b c.w
    if 0 < (n - BitVec.ofNat 32 (v.openBatch - 1)).toInt then .trap (c.trap 0x12 none (n.setWidth 64))
    else if (v.batchDone - n).toInt < 0 then .hold .batch s
    else
      match v.latch with
      | some (b, code) =>
        if 0 ≤ (n - BitVec.ofNat 32 b).toInt then
          .done (c.writeVAll d.toNat (fun _ => BitVec.ofNat 32 (b % 2 ^ 24 * 256 + code))
            (s.modWv c.b c.w fun v => { v with latch := none }))
        else .done (c.writeVAll d.toNat (fun _ => 0) s)
      | none => .done (c.writeVAll d.toNat (fun _ => 0) s)

/-- R142. -/
def execRecfence (y : Bool) (s : State) : Host.Outcome State Fault Refusal :=
  let i := info (.recfence y)
  issue i y s fun c s =>
    if c.wv.sc ≠ 0 then .hold .waitSt s
    else .done (s.modCore c.blk.core fun k =>
      { k with recs := k.recs.filter fun e => e.1 / 2 ^ 64 != c.asid, shapes := k.shapes.filter fun e => e.1 / 2 ^ 64 != c.asid })

/-! ### Lost flits (R430) -/

/-- DATA for an access that a lost flit carried (R430): a lane's, a copy's (lane 34, its number as the operation), which
stops, or the fetch of a path that waits for it (lane 33, the path as the operation). -/
def State.flitLost (s : State) (e : Nat × Nat × Nat × Nat) : State :=
  let (b, w, op, lane) := e
  let note (s : State) (addr : Nat) : State := s.log 5 (some 0x14) none (s.launchOf b).world addr
  if lane = 34 then
    (match s.copy? op with
     | some c => if c.wave = b * 32 + w ∧ c.st = .pinned then note s ((c.reads ++ c.writes).foldl min (2 ^ 64 - 1)) else s
     | none => s : State).modCopy op fun (c : Copy) =>
      if c.wave = b * 32 + w ∧ c.st = .pinned then
        { c with st := .moved, code := 2, cause := 0x14, sub := 7, va := BitVec.ofNat 64 ((c.reads ++ c.writes).foldl min (2 ^ 64 - 1)) }
      else c
  else if lane = 33 then
    let p := (s.wv b w).path op
    if p.st = .run ∧ p.blocked = some .fetch ∧ !p.again then (s.ctxAt b w op).fetchFault (fData 7) p.pc 0 s else s
  else
    match (s.wv b w).op? op with
    | some o =>
      (match o.lanes.find? fun l => l.lane == lane && l.open_ with
       | some l => (note s l.ia).modLane b w op lane fun x => { x with st := .faulted 0x14 7 l.va l.ia }
       | none => s)
    | none => s

/-- FLIT_TAG_FAILURE (R430): a flit that fails its tag is sent again; its third failure gives DATA to the accesses it carries,
and its link retrains. A port sends its flits one after another, so a failure of another flit follows the success of the one
before it. -/
def execFlitTagFailure (port : Nat) (carried : List (Nat × Nat × Nat × Nat)) (s : State) : Host.Outcome State Fault Refusal :=
  let tries := SMap.get 0 s.flitTries port
  if 16 ≤ port ∨ tries = 3 then .next s
  else
    let same := s.flitNow.any fun e => e.1 == port && e.2 == carried
    let n := if same then tries + 1 else 1
    let s := { s with
      flitTries := SMap.put 0 s.flitTries port n
      flitNow := (port, carried) :: s.flitNow.filter fun e => e.1 != port }
    if n < 3 then .next s
    else .next ((carried.foldl State.flitLost s).log 4 none (some port) 15 0)

/-- LINK_RETRAIN (R430): the link carries flits again. -/
def execLinkRetrain (port : Nat) (s : State) : Host.Outcome State Fault Refusal :=
  .next (if SMap.get 0 s.flitTries port = 3 then
    { s with flitTries := SMap.put 0 s.flitTries port 0, flitNow := s.flitNow.filter fun e => e.1 != port }
  else s)

end Sys2Proof.Machine
end

