-- ==== Sys2Proof/Machine/Graphics.lean ====
section
/-! DEFINITION. The texture, traversal and raster units: spec/12_graphics_coprocessors.md R262–R292. -/

namespace Sys2Proof.Machine

open Sys2Proof

/-! ### The co-processor model (R262, R263) -/

/-- The unit that carries an operation out: texture, traversal, raster, shading-cache port; 0 for none. -/
def OpKind.unit : OpKind → Nat
  | .tex _ _ => 1
  | .boxt | .trit | .stkPush | .stkPop => 2
  | .frag | .cover => 3
  | .scq | .scpub | .scabort | .scinv | .scpin | .scunpin | .sctick => 4
  | _ => 0

/-- Instructions that a core's unit has accepted and not finished. -/
def State.unitOps (s : State) (core u : Nat) : Nat :=
  ((s.wavesOn core).map fun bw => ((s.wv bw.1 bw.2).ops.filter fun o => o.kind.unit == u).length).foldl (· + ·) 0

/-- Hold the issue while the unit is full (R262). -/
def Ctx.toUnit (c : Ctx) (u : Nat) (s : State) (k : State → Act) : Act :=
  if 64 ≤ s.unitOps c.blk.core u then .hold .waitCo s else k s

/-- Each unit applies the instructions of one wave in issue order, lane by lane (R262, R276). -/
def Wave.unitTurn (v : Wave) (op : AsyncOp) (lane : Nat) : Bool :=
  v.ops.all fun e => e.kind.unit != op.kind.unit || op.id < e.id ||
    e.lanes.all fun l => l.st != .pending || (e.id == op.id && lane ≤ l.lane)

/-- The next part of an access chain. -/
def Acc.bind {α β : Type} (r : Acc α) (k : α → State → Acc β) : Acc β :=
  match r with
  | .ok x s => k x s
  | .fault f ia s => .fault f ia s
  | .wait s => .wait s

/-- Read bytes at a VA for a unit, line by line, through L1 and L2 under policy allocate (R263). DESIGN CHOICE (log 67): the
read is served as any load of its core, so it may see a store of its own wave before SC is zero; its VA is mapped as it is
performed, and where R63 then refuses it the bytes read are zero. -/
def State.coRead (s : State) (a : Who) (c : Ctx) (va : Nat) : Nat → Nat → Acc (List Byte)
  | 0, _ => .ok [] s
  | _, 0 => .ok [] s
  | fuel + 1, n =>
    match c.map s .load (BitVec.ofNat 64 va) with
    | .error _ => .ok (List.replicate n 0) s
    | .ok ia =>
      let k := min n (128 - ia % 128)
      (s.loadLine a ia k 0 true).bind fun bs s =>
        (State.coRead s a c (va + k) fuel (n - k)).bind fun cs s => .ok (bs ++ cs) s

/-! ### Image records (R266–R269) -/

def imRid (r : BitVec 320) : Nat := fld r 287 264
def imMapva (r : BitVec 320) : Nat := ((BitVec.ofNat 56 (fld r 263 208)).signExtend 64).toNat
def imBorder (r : BitVec 320) : Nat := fld r 199 198
def imWrap (r : BitVec 320) (v : Bool) : Nat := if v then fld r 197 196 else fld r 195 194
def imMipf (r : BitVec 320) : Bool := r.getLsbD 193
def imFilt (r : BitVec 320) : Bool := r.getLsbD 192
def imLod (r : BitVec 320) : Bool := r.getLsbD 184
def imTfmt (r : BitVec 320) : Nat := fld r 183 176
def imLevels (r : BitVec 320) : Nat := fld r 175 172 + 1
def imH0 (r : BitVec 320) : Nat := fld r 143 128 + 1
def imW0 (r : BitVec 320) : Nat := fld r 127 112 + 1

/-- Bytes of a texel, and its page shape (R267). -/
def texShape (t : Nat) : Nat × Nat × Nat :=
  match t with
  | 4 => (8, 128, 64)
  | 5 => (16, 64, 64)
  | _ => (4, 128, 128)

/-- Check 1 of R269 over the record's fields. -/
def imOk (r : BitVec 320) : Bool :=
  fld r 319 292 == 0 && fld r 207 200 == 0 && fld r 191 185 == 0 && fld r 171 152 == 0 && fld r 111 64 == 0 &&
    rbKind r == 2 && 1 ≤ imTfmt r && imTfmt r ≤ 5 && imBorder r ≠ 3 &&
    canonical (BitVec.ofNat 64 (rbBase r)) && rbBase r % 65536 == 0 &&
    imLevels r ≤ 1 + Nat.log2 (max (imW0 r) (imH0 r)) && (!imLod r || imMapva r % 4 == 0)

/-- Width, height and pages of level `l` (R268). -/
def imW (r : BitVec 320) (l : Nat) : Nat := max 1 (imW0 r / 2 ^ l)
def imH (r : BitVec 320) (l : Nat) : Nat := max 1 (imH0 r / 2 ^ l)
def imPx (r : BitVec 320) (l : Nat) : Nat := let p := (texShape (imTfmt r)).2.1; (imW r l + p - 1) / p
def imPy (r : BitVec 320) (l : Nat) : Nat := let p := (texShape (imTfmt r)).2.2; (imH r l + p - 1) / p
/-- LP(l). -/
def imLp (r : BitVec 320) (l : Nat) : Nat := ((List.range l).map fun k => imPx r k * imPy r k).foldl (· + ·) 0
/-- Page number, and VA, of texel (x, y) of level `l`. -/
def imPage (r : BitVec 320) (l x y : Nat) : Nat :=
  let (_, pw, ph) := texShape (imTfmt r)
  imLp r l + y / ph * imPx r l + x / pw
def imVa (r : BitVec 320) (l x y : Nat) : Nat :=
  let (n, pw, ph) := texShape (imTfmt r)
  rbBase r + imPage r l x y * 65536 + (y % ph * pw + x % pw) * n

/-- The channels of a texel as numerators over one denominator (R267, R121). DEDUCED (log 67): a UN8 channel is its exact
u / 255 until the result is rounded (R272). -/
def texDen (t : Nat) : Nat := if t = 3 then 255 else 1
def texChans (t : Nat) (bs : List Byte) : List FV :=
  let x := leNat bs
  let one : FV := .fin false (texDen t) 0
  let zero : FV := .fin false 0 0
  match t with
  | 1 => [Fmt.f32.value (x % 2 ^ 32), zero, zero, one]
  | 2 => [Fmt.f16.value (x % 65536), Fmt.f16.value (x / 65536 % 65536), zero, one]
  | 3 => (List.range 4).map fun i => .fin false (x / 256 ^ i % 256) 0
  | 4 => (List.range 4).map fun i => Fmt.f16.value (x / 65536 ^ i % 65536)
  | _ => (List.range 4).map fun i => Fmt.f32.value (x / 2 ^ (32 * i) % 2 ^ 32)
/-- The border value (R266). -/
def texBorder (r : BitVec 320) : List FV :=
  let one : FV := .fin false (texDen (imTfmt r)) 0
  let zero : FV := .fin false 0 0
  match imBorder r with
  | 0 => [zero, zero, zero, zero]
  | 1 => [zero, zero, zero, one]
  | _ => [one, one, one, one]

/-! ### Level and texel choice (R270, R271) -/

/-- The FP32 value of a word times 2^149, NaN and infinite ones as 0. -/
def fixed32 (x : Word) : Int :=
  match Fmt.f32.value x.toNat with
  | .fin n m e => (FV.fin n m e).scaled (-149)
  | _ => 0
def isInf32 (x : Word) : Bool := (Fmt.f32.value x.toNat).isInf

/-- λ × 256 before the clamp, from the scaled gradients du/dx, dv/dx, du/dy, dv/dy; `none` where ρ² = 0 (R270). -/
def lambda256 (r : BitVec 320) (dux dvx duy dvy : Int) : Option Int :=
  let sq (a b : Int) : Nat := ((a * imW0 r) ^ 2 + (b * imH0 r) ^ 2).natAbs
  let rho := max (sq dux dvx) (sq duy dvy)
  if rho = 0 then none else some (Nat.log2 (rho ^ 128) - 298 * 128)

/-- λ × 256 of a lookup. Operand words: own run, then u and v of the quad's four lanes. -/
def texLambda (r : BitVec 320) (fn : Nat) (ws : List Word) : Nat :=
  let top : Int := 256 * (imLevels r - 1 : Nat)
  let clamp (x : Int) : Nat := (max 0 (min x top)).toNat
  let w (i : Nat) : Word := ws.getD i 0
  if fn = 1 then
    if (List.range 4).any fun i => isInf32 (w (2 + i)) then top.toNat
    else match lambda256 r (fixed32 (w 2)) (fixed32 (w 3)) (fixed32 (w 4)) (fixed32 (w 5)) with
      | none => 0
      | some x => clamp x
  else
    let u (i : Nat) : Int := fixed32 (w (6 + i))
    let v (i : Nat) : Int := fixed32 (w (10 + i))
    match lambda256 r (u 1 - u 0) (v 1 - v 0) (u 2 - u 0) (v 2 - v 0) with
    | none => 0
    | some x =>
      if fn ≠ 2 then clamp x
      else match Fmt.f32.value (w 2).toNat with
        | .inf n => if n then 0 else top.toNat
        | .nan _ => clamp x
        | b => clamp (x + b.scaled (-149) * 256 / 2 ^ 149)

/-- The wrap of an index into [0, S): `none` is the border (R271). -/
def wrapIndex (mode S : Nat) (i : Int) : Option Nat :=
  match mode with
  | 0 => some (i % S).toNat
  | 1 => some (max 0 (min i (S - 1))).toNat
  | 2 => if 0 ≤ i ∧ i < S then some i.toNat else none
  | _ => let m := (i % (2 * S)).toNat; some (if m < S then m else 2 * S - 1 - m)

/-- Texels of a footprint: position (`none` the border) and weight out of 65,536. -/
abbrev Foot := List (Option (Nat × Nat) × Nat)

/-- The footprint of (u, v) at a level (R271). `gather` keeps all four texels. -/
def texFoot (r : BitVec 320) (bilinear gather : Bool) (l : Nat) (u v : Word) : Foot :=
  let at_ (x y : Int) : Option (Nat × Nat) :=
    match wrapIndex (imWrap r false) (imW r l) x, wrapIndex (imWrap r true) (imH r l) y with
    | some x, some y => some (x, y)
    | _, _ => none
  if bilinear then
    let s := fixed32 u * imW r l * 2 - 2 ^ 149
    let t := fixed32 v * imH r l * 2 - 2 ^ 149
    let x0 := s / 2 ^ 150
    let y0 := t / 2 ^ 150
    let fx := (s % 2 ^ 150 * 256 / 2 ^ 150).toNat
    let fy := (t % 2 ^ 150 * 256 / 2 ^ 150).toNat
    let all : Foot :=
      [(at_ x0 y0, (256 - fx) * (256 - fy)), (at_ (x0 + 1) y0, fx * (256 - fy)), (at_ x0 (y0 + 1), (256 - fx) * fy),
       (at_ (x0 + 1) (y0 + 1), fx * fy)]
    if gather then all.map fun e => (e.1, 65536) else all.filter fun e => e.2 ≠ 0
  else [(at_ (fixed32 u * imW r l / 2 ^ 149) (fixed32 v * imH r l / 2 ^ 149), 65536)]

/-- The wanted level and f × 256 of a lookup (R270). -/
def texWanted (r : BitVec 320) (fn : Nat) (ws : List Word) : Nat × Nat :=
  match fn with
  | 3 | 4 => ((ws.getD 2 0).toNat, 0)
  | 5 => (min (fld (ws.getD 2 0) 7 4) (imLevels r - 1), 0)
  | _ =>
    let x := texLambda r fn ws
    if imMipf r then (x / 256, if x / 256 = imLevels r - 1 then 0 else x % 256) else ((x + 128) / 256, 0)

/-- The footprint of a lookup at each level from `l0` on (R271, R273). A texel that an odd size pushes past a coarser
level is not stated: which one is read is free. -/
def State.texFeet (s : State) (r : BitVec 320) (fn l0 : Nat) (ws : List Word) : List Foot × State :=
  ((List.range (imLevels r)).drop l0).foldl (fun (p : List Foot × State) l =>
    if fn = 3 ∨ fn = 4 then
      let x := (ws.getD 0 0).toNat / 2 ^ (l - l0)
      let y := (ws.getD 1 0).toNat / 2 ^ (l - l0)
      let (x, s) := if x < imW r l then (x, p.2) else p.2.freeNat (imW r l)
      let (y, s) := if y < imH r l then (y, s) else s.freeNat (imH r l)
      (p.1 ++ [[(some (x, y), 65536)]], s)
    else (p.1 ++ [texFoot r (fn = 5 || imFilt r) (fn = 5) l (ws.getD 0 0) (ws.getD 1 0)], p.2)) ([], s)

/-- Pages of a footprint at a level, ascending. -/
def footPages (r : BitVec 320) (l : Nat) (f : Foot) : List Nat :=
  sortBy (fun a b => a ≤ b) (f.filterMap fun e => e.1.map fun p => imPage r l p.1 p.2).dedup

/-! ### Residency (R273–R279) -/

/-- VA of the map byte of a page. -/
def imMapByte (r : BitVec 320) (n : Nat) : Nat := imMapva r + n / 8

/-- One residency bit, through the core's residency cache (R275). -/
def State.resident (s : State) (a : Who) (c : Ctx) (r : BitVec 320) (n : Nat) : Acc Bool :=
  match c.map s .load (BitVec.ofNat 64 (imMapByte r n)) with
  | .error _ => .ok false s
  | .ok ia =>
    let word := ia / 4 * 4
    let key := a.world * 2 ^ 52 + word
    let bit (w : Word) : Bool := w.getLsbD (8 * (ia % 4) + n % 8)
    match SMap.get none (s.core a.core).resid key with
    | some w => .ok (bit w) s
    | none =>
      (s.loadLine a word 4 0 false).bind fun bs s =>
        let w := BitVec.ofNat 32 (leNat bs)
        let old := (s.core a.core).resid
        let (old, s) := if old.length < 1024 then (old, s) else
          let (v, s) := s.freeNat old.length
          (old.eraseIdx v, s)
        .ok (bit w) (s.modCore a.core fun k => { k with resid := SMap.put none old key (some w) })

/-- The bits of some pages: those that are not resident. -/
def State.absent (s : State) (a : Who) (c : Ctx) (r : BitVec 320) : List Nat → Acc (List Nat)
  | [] => .ok [] s
  | n :: t => (s.resident a c r n).bind fun b s => (State.absent s a c r t).bind fun l s => .ok (if b then l else n :: l) s

/-- The smallest level from `l` on whose pages are all resident: `none` if none is; and the absent pages of the first
level looked at. -/
def State.deliver? (s : State) (a : Who) (c : Ctx) (r : BitVec 320) : Nat → List Foot → Acc (Option Nat × List Nat)
  | _, [] => .ok (none, []) s
  | l, f :: t =>
    (s.absent a c r (footPages r l f)).bind fun miss s =>
      if miss = [] then .ok (some l, []) s
      else (State.deliver? s a c r (l + 1) t).bind fun d s => .ok (d.1, miss) s

/-- Read the texels of a footprint: channels and weights (R271, R272). -/
def State.texels (s : State) (a : Who) (c : Ctx) (r : BitVec 320) (l : Nat) : Foot → Acc (List (List FV × Nat))
  | [] => .ok [] s
  | (none, w) :: t => (State.texels s a c r l t).bind fun x s => .ok ((texBorder r, w) :: x) s
  | (some (x, y), w) :: t =>
    (s.coRead a c (imVa r l x y) 2 (texShape (imTfmt r)).1).bind fun bs s =>
      (State.texels s a c r l t).bind fun rest s => .ok ((texChans (imTfmt r) bs, w) :: rest) s

/-- RNE_F32 of a weighted sum over the texel denominator (R272). -/
def texResult (t : Nat) (terms : List (FV × Nat)) : Word :=
  let sum := (FV.sum .rne ((terms.filter fun e => e.2 ≠ 0).map fun e => (e.1.mul (.fin false e.2 (-24))).1)).1
  BitVec.ofNat 32 (quotEncode .f32 sum (.fin false (texDen t) 0))

/-- The data words of a lookup at level `d`, with f × 256 of the next (R272, R281). -/
def State.texData (s : State) (a : Who) (c : Ctx) (r : BitVec 320) (fn sel d f : Nat) (feet : List Foot) : Acc (List Word) :=
  (s.texels a c r d (feet.getD 0 [])).bind fun t0 s =>
    (if f = 0 then .ok [] s else s.texels a c r (d + 1) (feet.getD 1 [])).bind fun t1 s =>
      if fn = 5 then .ok (t0.map fun e => texResult (imTfmt r) [(e.1.getD sel (.fin false 0 0), 2 ^ 24)]) s
      else .ok ((List.range 4).map fun i => texResult (imTfmt r)
        (t0.map (fun e => (e.1.getD i (.fin false 0 0), (256 - f) * e.2)) ++ t1.map fun e => (e.1.getD i (.fin false 0 0), f * e.2))) s

/-- What a lookup answers: data, status word without its report bits, the pages to report with their level. -/
structure TexRes where
  data : List Word
  status : Nat
  report : List Nat
deriving DecidableEq, Repr, Inhabited

/-- One lane's lookup (R273, R274, R281). -/
def State.texLookup (s : State) (a : Who) (c : Ctx) (r : BitVec 320) (fn : Nat) (ws : List Word) : Acc TexRes :=
  let (l0, f) := texWanted r fn ws
  let sel := (ws.getD 2 0).toNat % 4
  let border : List Word :=
    if fn = 5 then List.replicate 4 (texResult (imTfmt r) [((texBorder r).getD sel (.fin false 0 0), 2 ^ 24)])
    else (texBorder r).map fun x => texResult (imTfmt r) [(x, 2 ^ 24)]
  let wanted := l0 % 16
  if (fn = 3 ∨ fn = 4) ∧ (imLevels r ≤ l0 ∨ imW r l0 ≤ (ws.getD 0 0).toNat ∨ imH r l0 ≤ (ws.getD 1 0).toNat) then
    .ok ⟨border, 2 ^ 12 + wanted * 17, []⟩ s
  else
    let (feet, s) := s.texFeet r fn l0 ws
    if !imLod r then (s.texData a c r fn sel l0 f feet).bind fun d s => .ok ⟨d, wanted * 17, []⟩ s
    else
      (s.deliver? a c r l0 feet).bind fun dm s =>
        match dm with
        | (none, miss) => .ok ⟨border, 2 ^ 11 + 2 ^ 8 + wanted * 17, miss.take 4⟩ s
        | (some d, miss) =>
          if d = l0 then
            (if f = 0 then .ok [] s else s.absent a c r (footPages r (l0 + 1) (feet.getD 1 []))).bind fun next s =>
              (s.texData a c r fn sel l0 (if next = [] then f else 0) feet).bind fun x s => .ok ⟨x, wanted * 17, []⟩ s
          else
            (s.texData a c r fn sel d 0 (feet.drop (d - l0))).bind fun x s => .ok ⟨x, 2 ^ 8 + wanted * 16 + d, miss.take 4⟩ s

/-- Key of a report: the IA of the page's map bit (R276). -/
def Ctx.reportKey (c : Ctx) (s : State) (r : BitVec 320) (n : Nat) : Nat :=
  match c.map s .load (BitVec.ofNat 64 (imMapByte r n)) with
  | .ok ia => ia * 8 + n % 8
  | .error _ => 0

/-- A key becomes the most recent of a filter of 64 (R276). -/
def filterUse (l : List (Nat × Nat)) (k : Nat × Nat) : List (Nat × Nat) := (k :: l.filter (· != k)).take 64

/-- Words of a lane's data operand. -/
def LaneOp.words (o : LaneOp) (n : Nat) : List Word := (List.range n).map fun i => BitVec.ofNat 32 (o.data.toNat / 2 ^ (32 * i))

/-- A lane's result and replies are all there: the status of FETCHF follows the data (R274). -/
def LaneOp.texEnd (o : LaneOp) (fn : Nat) (reports : Bool) : LaneOp :=
  let st := o.addr.toNat
  let st := if reports && st / 2 ^ 10 % 2 = 0 then st + 2 ^ 9 else st
  { o with st := .ready, res := if fn = 4 then o.res ++ [BitVec.ofNat 32 st] else o.res }

/-- A TEX lane is carried out: its lookup, and its reports sent (R276). Lane fields: `res` the data, `addr` the status,
`aux` the replies still due once the lookup is done. -/
def State.performTex (s : State) (a : Who) (c : Ctx) (fn : Nat) (r : BitVec 320) (o : LaneOp) : State :=
  if o.aux ≠ [] then s
  else
    match s.texLookup a c r fn (o.words 14) with
    | .wait s => s
    | .fault f ia s => s.laneFault a o.va f ia
    | .ok x s =>
      let keys := x.report.map fun n => (n, c.reportKey s r n)
      let filt := (s.core a.core).filter
      let known := keys.filter fun e => filt.contains (a.world, e.2)
      let new := keys.filter fun e => !filt.contains (a.world, e.2)
      let level := (x.status / 16) % 16
      let entry (n : Nat) : BitVec 128 :=
        BitVec.ofNat 128 (imRid r * 2 ^ 104 + level * 2 ^ 100 + n * 2 ^ 64 + c.asid * 2 ^ 48 + a.core * 2 ^ 40)
      let s := s.modCore a.core fun k =>
        { k with
          filter := known.foldl (fun l e => filterUse l (a.world, e.2)) k.filter
          reports := k.reports ++ new.map fun e => (a.b, a.w, a.op, a.lane, entry e.1, e.2) }
      s.modLane a.b a.w a.op a.lane fun o =>
        let o := { o with res := x.data, addr := BitVec.ofNat 64 x.status, aux := [new.length] }
        if new = [] then o.texEnd fn (keys ≠ []) else o

/-- FEEDBACK_REPORT_APPEND (R276, R279): the oldest report of a core is appended or dropped, and the reply goes to its
lane. -/
def execFeedbackReportAppend (core : Nat) (s : State) : Host.Outcome State Fault Refusal :=
  match (s.core core).reports with
  | [] => .next s
  | (b, w, op, lane, entry, key) :: rest =>
    let world := (s.launchOf b).world
    let hia := wrFbia (s.world world).record
    let s := s.modCore core fun k => { k with reports := rest }
    let (r, s) := s.ringAppend world hia 64 65536 4096 16 (fun a => if iaRegion a = world then some a else none)
      fun tail => natBytes 16 (entry.toNat + tail)
    let s := match r with
      | .done => s.modCore core fun k => { k with filter := filterUse k.filter (world, key) }
      | .full => s.ringDrop world hia
      | .dropped => s
    let fn := match ((s.wv b w).op? op).map AsyncOp.kind with | some (.tex fn _) => fn | _ => 0
    .next (s.modLane b w op lane fun o =>
      let o := { o with
        addr := if r = .done ∨ o.addr.getLsbD 10 then o.addr else o.addr + 2 ^ 10
        aux := [o.aux.headD 1 - 1] }
      if o.aux = [0] ∧ o.st = .pending then o.texEnd fn true else o)

/-- The registers in which SAMP and SAMPB read u and v of the inactive lanes of their quads, in a melded region each lane's own
(R262, R270, R358). -/
def Ctx.quadRegs (c : Ctx) (fn : Nat) (a : Field) : List Nat :=
  if c.pa.mode = .plain ∨ (fn ≠ 0 ∧ fn ≠ 2) then []
  else (((List.range 32).filter c.active).flatMap fun ln => (List.range 4).map fun i => c.vreg (ln / 4 * 4 + i) a.toNat).dedup

/-- ILL of those registers (R42). -/
def Ctx.quadIll (c : Ctx) (fn : Nat) (a : Field) : Bool := (c.quadRegs fn a).any (c.B + c.X < · + 2)

/-- The issue of a TEX lookup (R262, R269, R270). `n` words of operands, `nd` registers of result. -/
def Ctx.texIssue (c : Ctx) (fn : Nat) (d a r : Field) (n nd : Nat) (s : State) : Act :=
  let eva := c.recVa r.toNat
  let rec_ (code : Nat) : Act := .trap (c.trap code (some c.pa.exm) eva)
  if !c.holdsLock && (c.quadRegs fn a).any (c.B < · + 2) then .trap (c.trap 0x05)
  else
  match c.record s r.toNat with
  | .bad s => (rec_ 0x17).after s
  | .park s => .hold .park s
  | .ok rc s => Act.after s <|
    if !imOk rc then rec_ 0x17
    else if fn ≠ 6 && !rbRD rc then rec_ 0x11
    else
      let lanes := (List.range 32).filter c.active
      if lanes = [] then .done s
      else
        let np := imLp rc (imLevels rc)
        let vas := (List.range np).map (fun i => rbBase rc + i * 65536) ++
          (if imLod rc then spanVas (imMapva rc) ((np + 7) / 8) else [])
        let bad := if fn = 6 then none else vas.findSome? fun va =>
          match c.map s .load (BitVec.ofNat 64 va) with
          | .error e => some (va, e)
          | .ok _ => none
        match bad with
        | some (va, e) => .trap (c.trap e (some c.pa.exm) (BitVec.ofNat 64 va))
        | none => c.toUnit 1 s fun s =>
          let words (ln : Nat) : List Word :=
            (List.range 6).map (fun j => if j < n then c.v ln a.toNat j else 0) ++
              (if fn = 0 ∨ fn = 2 then
                (List.range 4).map (fun i => c.v (ln / 4 * 4 + i) a.toNat 0) ++ (List.range 4).map fun i => c.v (ln / 4 * 4 + i) a.toNat 1
               else [])
          let data (ln : Nat) : BitVec 512 :=
            BitVec.ofNat 512 ((words ln).zipIdx.foldl (fun x e => x + e.1.toNat * 2 ^ (32 * e.2)) 0)
          let lane (ln : Nat) : LaneOp :=
            let o : LaneOp := { lane := ln, va := BitVec.ofNat 64 (rbBase rc), dst := c.vreg ln d.toNat, data := data ln }
            if fn = 6 then
              let l := (c.v ln a.toNat 0).toNat
              let ok := l < imLevels rc
              { o with st := .ready, res := [if ok then BitVec.ofNat 32 (imW rc l) else 0, if ok then BitVec.ofNat 32 (imH rc l) else 0,
                                             BitVec.ofNat 32 (imLevels rc), BitVec.ofNat 32 (imTfmt rc)] }
            else o
          c.async { ctr := .cc, kind := .tex fn rc, nregs := nd, lanes := lanes.map lane } s

/-- R270, R281. -/
def execSamp (y : Bool) (d a r : Field) (s : State) : Host.Outcome State Fault Refusal :=
  let i := info (.samp y d a r)
  issueWith false i y (fun c => c.quadIll 0 a) s fun c s => c.texIssue 0 d a r 2 4 s

/-- R270, R281. -/
def execSampg (y : Bool) (d a r : Field) (s : State) : Host.Outcome State Fault Refusal :=
  let i := info (.sampg y d a r)
  issue i y s fun c s => c.texIssue 1 d a r 6 4 s

/-- R270, R281. -/
def execSampb (y : Bool) (d a r : Field) (s : State) : Host.Outcome State Fault Refusal :=
  let i := info (.sampb y d a r)
  issueWith false i y (fun c => c.quadIll 2 a) s fun c s => c.texIssue 2 d a r 3 4 s

/-- R281. -/
def execFetch (y : Bool) (d a r : Field) (s : State) : Host.Outcome State Fault Refusal :=
  let i := info (.fetch y d a r)
  issue i y s fun c s => c.texIssue 3 d a r 3 4 s

/-- R274, R281. -/
def execFetchf (y : Bool) (d a r : Field) (s : State) : Host.Outcome State Fault Refusal :=
  let i := info (.fetchf y d a r)
  issue i y s fun c s => c.texIssue 4 d a r 3 5 s

/-- R281. -/
def execGath4 (y : Bool) (d a r : Field) (s : State) : Host.Outcome State Fault Refusal :=
  let i := info (.gath4 y d a r)
  issue i y s fun c s => c.texIssue 5 d a r 3 4 s

/-- R281. -/
def execResq (y : Bool) (d a r : Field) (s : State) : Host.Outcome State Fault Refusal :=
  let i := info (.resq y d a r)
  issue i y s fun c s => c.texIssue 6 d a r 1 4 s

/-! ### Traversal (R282–R286) -/

/-- The reals extended by ±∞. -/
inductive Ext where
  | inf (neg : Bool)
  | fin (q : Rat)
deriving DecidableEq, Repr, Inhabited

def Ext.le (a b : Ext) : Bool :=
  match a, b with
  | .inf true, _ => true
  | _, .inf false => true
  | .fin p, .fin q => p ≤ q
  | _, _ => false
def Ext.max (a b : Ext) : Ext := if a.le b then b else a
def Ext.min (a b : Ext) : Ext := if a.le b then a else b
/-- The value of an FP32 word; a NaN is none. -/
def ext32 (x : Word) : Option Ext :=
  match Fmt.f32.value x.toNat with
  | .nan _ => none
  | .inf n => some (.inf n)
  | .fin n m e => some (.fin ((FV.fin n m e).scaled (-149) / (2 ^ 149 : Rat)))
/-- Round a value to FP32. -/
def extRound (mode : RMode) (x : Ext) : Word :=
  match x with
  | .inf n => BitVec.ofNat 32 (Fmt.f32.sign n + Fmt.f32.infBits)
  | .fin q =>
    let a := q.num.natAbs * 2 ^ 600
    BitVec.ofNat 32 (if q = 0 then 0 else (Fmt.f32.roundSticky mode (q < 0) (a / q.den) (-600) (a % q.den ≠ 0)).bits)

/-- A ray that can hit (R282). -/
def rayOk (r : List Word) : Bool :=
  let v (i : Nat) : FV := Fmt.f32.value (r.getD i 0).toNat
  (List.range 6).all (fun i => !(v i).isNan && !(v i).isInf) && (List.range 3).any (fun i => !(v (3 + i)).isZero) &&
    (match ext32 (r.getD 6 0), ext32 (r.getD 7 0) with | some a, some b => a.le b | _, _ => false)

/-- R282. An empty ray keeps a NaN tmin. -/
def execRayld (y : Bool) (a : Field) (s : State) : Host.Outcome State Fault Refusal :=
  let i := info (.rayld y a)
  issue i y s fun c s => c.toUnit 2 s fun s =>
    let lanes := (List.range 32).filter c.active
    let ray (ln : Nat) : List Word :=
      let r := (List.range 8).map fun j => c.v ln a.toNat j
      if rayOk r then r else r.set 6 0x7FC00000
    .done (s.modWv c.b c.w fun v =>
      { v with rays := lanes.map (fun ln => (ln, ray ln)) ++ v.rays.filter fun e => !lanes.contains e.1 })

/-- The ray of a lane of a wave; an empty one where none was loaded. -/
def Wave.ray (v : Wave) (ln : Nat) : List Word :=
  match v.rays.find? fun e => e.1 == ln with
  | some e => e.2
  | none => [0, 0, 0, 0, 0, 0, 0x7FC00000, 0]

/-- The issue of BOXT and TRIT (R283, R284): `n` bytes at a node aligned to `al`. The lane's ray goes with it. -/
def Ctx.travIssue (c : Ctx) (d a : Field) (kind : OpKind) (al n nd : Nat) (s : State) : Act :=
  let lanes := (List.range 32).filter c.active
  let va (ln : Nat) : DWord := c.v ln a.toNat 1 ++ c.v ln a.toNat 0
  match c.laneTrap ((lanes.filter fun ln => (va ln).toNat % al ≠ 0).map (·, 0x13)) va with
  | some t => .trap t
  | none =>
    let bad (ln : Nat) : Option (Nat × Nat) := [va ln, va ln + BitVec.ofNat 64 (n - 1)].findSome? fun x =>
      match c.map s .load x with | .error e => some (ln, e) | .ok _ => none
    match c.laneTrap (lanes.filterMap bad) va with
    | some t => .trap t
    | none =>
      if lanes = [] then .done s
      else c.toUnit 2 s fun s =>
        c.async
          { ctr := .cc, kind, nregs := nd
            lanes := lanes.map fun ln =>
              { lane := ln, va := va ln, addr := va ln, dst := c.vreg ln d.toNat
                data := BitVec.ofNat 512 ((c.wv.ray ln).zipIdx.foldl (fun x e => x + e.1.toNat * 2 ^ (32 * e.2)) 0) } } s

/-- R283. -/
def execBoxt (y : Bool) (d a : Field) (s : State) : Host.Outcome State Fault Refusal :=
  let i := info (.boxt y d a)
  issue i y s fun c s => c.travIssue d a .boxt 64 192 10 s

/-- R284. -/
def execTrit (y : Bool) (d a : Field) (s : State) : Host.Outcome State Fault Refusal :=
  let i := info (.trit y d a)
  issue i y s fun c s => c.travIssue d a .trit 16 36 4 s

/-- Words of some bytes. -/
def bytesWords (bs : List Byte) : List Word := (List.range (bs.length / 4)).map fun i => BitVec.ofNat 32 (leNat ((bs.drop (4 * i)).take 4))

/-- The slab test of one axis (R283). -/
def slab (o d lo hi : Ext) (t : Ext × Ext) : Ext × Ext :=
  let quot (x : Ext) : Ext :=
    match x, o, d with
    | .inf n, _, .fin d => .inf (n != decide (d < 0))
    | .fin x, .fin o, .fin d => .fin ((x - o) / d)
    | _, _, _ => .fin 0
  if d = .fin 0 then (t.1, if o.le lo && o ≠ lo || hi.le o && o ≠ hi then .inf true else t.2)
  else
    let t1 := quot lo
    let t2 := quot hi
    (t.1.max (t1.min t2), t.2.min (t1.max t2))

/-- BOXT over a ray and the node's words: the result run (R283). -/
def boxTest (ray node : List Word) : List Word :=
  let x (l : List Word) (i : Nat) : Option Ext := ext32 (l.getD i 0)
  let child (c : Nat) : Option Ext :=
    if !rayOk ray then none
    else
      let box := (List.range 6).map fun i => x node (6 * c + i)
      let good := box.all Option.isSome && (List.range 3).all fun i =>
        match box.getD i none, box.getD (3 + i) none with | some a, some b => a.le b | _, _ => false
      if !good then none
      else
        let g (o : Option Ext) : Ext := o.getD (.fin 0)
        let r := (List.range 3).foldl (fun t i =>
          slab (g (x ray i)) (g (x ray (3 + i))) (g (box.getD i none)) (g (box.getD (3 + i) none)) t) (g (x ray 6), g (x ray 7))
        if r.1.le r.2 then some r.1 else none
  let hits := (List.range 8).filterMap fun c => (child c).map fun d => (c, d)
  let sorted := sortBy (fun a b => a.2.le b.2) hits
  let mask := hits.foldl (fun m e => m + 2 ^ e.1) 0
  let order := (List.range 8).foldl (fun m k => m + (match sorted[k]? with | some e => e.1 | none => 15) * 16 ^ k) 0
  [BitVec.ofNat 32 (mask + hits.length * 256), BitVec.ofNat 32 order] ++
    (List.range 8).map fun k => match sorted[k]? with | some e => extRound .rd e.2 | none => 0x7F800000

/-- det of three vectors. -/
def det3 (a b c : List Int) : Int :=
  let g (l : List Int) (i : Nat) : Int := l.getD i 0
  g a 0 * (g b 1 * g c 2 - g b 2 * g c 1) - g a 1 * (g b 0 * g c 2 - g b 2 * g c 0) + g a 2 * (g b 0 * g c 1 - g b 1 * g c 0)

/-- The order of vertices by x, then y, then z. -/
def vtxBefore (a b : List Int) : Bool :=
  let g (l : List Int) (i : Nat) : Int := l.getD i 0
  g a 0 < g b 0 || (g a 0 = g b 0 && (g a 1 < g b 1 || (g a 1 = g b 1 && g a 2 < g b 2)))

/-- TRIT over a ray and the triangle's words: the result run (R284). -/
def triTest (ray tri : List Word) : List Word :=
  let miss : List Word := [0, 0x7F800000, 0, 0]
  let finite := (List.range 9).all fun i => match Fmt.f32.value (tri.getD i 0).toNat with | .fin _ _ _ => true | _ => false
  if !rayOk ray || !finite then miss
  else
    let vec (l : List Word) (k : Nat) : List Int := (List.range 3).map fun i => fixed32 (l.getD (k + i) 0)
    let sub (a b : List Int) : List Int := (List.range 3).map fun i => a.getD i 0 - b.getD i 0
    let org := vec ray 0
    let dir := vec ray 3
    let v := fun k => vec tri (3 * k)
    let a := fun k => sub (v k) org
    let w := [det3 dir (a 1) (a 2), det3 dir (a 2) (a 0), det3 dir (a 0) (a 1)]
    let d := w.foldl (· + ·) 0
    let side := w.all fun x => if 0 < d then 0 ≤ x else x ≤ 0
    let edges := [(1, 2), (2, 0), (0, 1)]
    let edge := (List.range 3).all fun i =>
      w.getD i 0 ≠ 0 ||
        (let (j, k) := edges.getD i (0, 0)
         v j ≠ v k && (vtxBefore (v j) (v k) != decide (d < 0)))
    let t : Rat := (det3 (sub (v 1) (v 0)) (sub (v 2) (v 0)) (a 0) : Rat) / d
    let inside := match ext32 (ray.getD 6 0), ext32 (ray.getD 7 0) with
      | some lo, some hi => lo.le (.fin t) && (Ext.fin t).le hi
      | _, _ => false
    if d ≠ 0 && side && edge && inside then
      [if d < 0 then 3 else 1, extRound .rne (.fin t), extRound .rne (.fin ((w.getD 1 0 : Rat) / d)),
        extRound .rne (.fin ((w.getD 2 0 : Rat) / d))]
    else miss

/-- Registers n of the stack run, and SPILL, of a STKINIT control word (R285). -/
def stkN (ctl : Word) : Nat := fld ctl 4 0 + 1
def stkSpillN (ctl : Word) : Nat := fld ctl 31 16

/-- R285. -/
def execStkinit (y : Bool) (d : Field) (a b : BitVec 4) (s : State) : Host.Outcome State Fault Refusal :=
  let i := info (.stkinit y d a b)
  issueWith false i y (fun c => c.pa.mode ≠ .plain || c.runIll d.toNat (stkN (c.bc b)) false) s fun c s =>
    let ctl := c.bc b
    let va := c.bc64 a
    if c.runXreg d.toNat (stkN ctl) then .trap (c.trap 0x05)
    else if va.toNat % 128 ≠ 0 then .trap (c.trap 0x13 none va)
    else if fld ctl 15 5 ≠ 0 then .trap (c.trap 0x12 none (ctl.setWidth 64))
    else
      -- line by line: the heap's range may end inside a granule (R63, R310)
      let bad := ((List.range (stkSpillN ctl)).map fun i => va.toNat + 128 * i).findSome? fun x =>
        [Need.load, Need.store].findSome? fun n =>
          match c.map s n (BitVec.ofNat 64 x) with | .error e => some (x, e) | .ok _ => none
      match bad with
      | some (x, e) => .trap (c.trap e none (BitVec.ofNat 64 x))
      | none => c.toUnit 2 s fun s =>
        .done (s.modWv c.b c.w fun v =>
          { v with stkInit := true, stkReg := d.toNat, stkCtl := ctl, stkSpill := va, stkDepth := [] })

/-- Where entry `e` of a lane lies: a register, or a VA. -/
def Wave.stkEntry (v : Wave) (ln e : Nat) : Nat ⊕ Nat :=
  let n := stkN v.stkCtl
  if e < n then .inl (v.stkReg + e) else .inr ((v.stkSpill.toNat + ((e - n) * 32 + ln) * 4) % 2 ^ 64)

/-- A wave reaches stack-run registers of the extended set without the lock (R42, R149, R264). -/
def Ctx.stackXreg (c : Ctx) : Bool := !c.holdsLock && c.B < c.wv.stkReg + stkN c.wv.stkCtl

/-- The trap of R63 for the spill entries that lanes are to reach. -/
def Ctx.spillTrap (c : Ctx) (s : State) (need : Need) (lanes : List Nat) (e : Nat → Nat) : Option TrapInfo :=
  let va (ln : Nat) : Option DWord := match c.wv.stkEntry ln (e ln) with | .inr x => some (BitVec.ofNat 64 x) | .inl _ => none
  c.laneTrap (lanes.filterMap fun ln => match (va ln).map (c.map s need) with | some (.error code) => some (ln, code) | _ => none)
    fun ln => (va ln).getD 0

/-- The IA of a spill entry that R63 lets through. -/
def Ctx.spillIA (c : Ctx) (s : State) (need : Need) (va : Nat) : Nat :=
  match c.map s need (BitVec.ofNat 64 va) with | .ok ia => ia | .error _ => 0

/-- R285. Each lane keeps its value for its entry, which its turn in the unit writes. -/
def execStkpush (y : Bool) (a : Field) (s : State) : Host.Outcome State Fault Refusal :=
  let i := info (.stkpush y a)
  issue i y s fun c s =>
    let lanes := (List.range 32).filter c.active
    let depth (ln : Nat) : Nat := SMap.get 0 c.wv.stkDepth ln
    let full := lanes.filter fun ln => depth ln = stkN c.wv.stkCtl + stkSpillN c.wv.stkCtl
    if lanes = [] then .done s
    else if !c.wv.stkInit then .trap (c.trap 0x12 (some c.pa.exm))
    else if c.stackXreg then .trap (c.trap 0x05)
    else if full ≠ [] then .trap (c.trap 0x12 (some (maskOf full.contains)))
    else
    match c.spillTrap s .store lanes depth with
    | some t => .trap t
    | none => c.toUnit 2 s fun s =>
      let lane (ln : Nat) : LaneOp :=
        let x := c.src a ln 0
        match c.wv.stkEntry ln (depth ln) with
        | .inl r => { lane := ln, dst := r, data := x.setWidth 512, aux := [r] }
        | .inr va => { lane := ln, va := BitVec.ofNat 64 va, data := x.setWidth 512, ia := c.spillIA s .store va }
      match c.async { ctr := .cc, kind := .stkPush, nregs := 1, lanes := lanes.map lane } s with
      | .done s => .done (s.modWv c.b c.w fun v =>
          { v with stkDepth := lanes.foldl (fun m ln => SMap.put 0 m ln (depth ln + 1)) v.stkDepth })
      | r => r

/-- R285. -/
def execStkpop (y : Bool) (d : Field) (s : State) : Host.Outcome State Fault Refusal :=
  let i := info (.stkpop y d)
  issue i y s fun c s =>
    let lanes := (List.range 32).filter c.active
    let depth (ln : Nat) : Nat := SMap.get 0 c.wv.stkDepth ln
    if lanes = [] then .done s
    else if !c.wv.stkInit then .trap (c.trap 0x12 (some c.pa.exm))
    else if c.stackXreg then .trap (c.trap 0x05)
    else
    match c.spillTrap s .load (lanes.filter fun ln => depth ln ≠ 0) fun ln => depth ln - 1 with
    | some t => .trap t
    | none => c.toUnit 2 s fun s =>
      let lane (ln : Nat) : LaneOp :=
        let o : LaneOp := { lane := ln, dst := c.vreg ln d.toNat }
        if depth ln = 0 then { o with st := .ready, res := [0xFFFFFFFF] }
        else
          match c.wv.stkEntry ln (depth ln - 1) with
          | .inl r => { o with aux := [r] }
          | .inr va => { o with va := BitVec.ofNat 64 va, ia := c.spillIA s .load va }
      match c.async { ctr := .cc, kind := .stkPop, nregs := 1, lanes := lanes.map lane } s with
      | .done s => .done (s.modWv c.b c.w fun v =>
          { v with stkDepth := lanes.foldl (fun m ln => SMap.put 0 m ln (depth ln - 1)) v.stkDepth })
      | r => r

/-! ### The rasteriser (R287–R292) -/

def rjSamples (d : BitVec 512) : Nat := fld d 165 164
def rjCull (d : BitVec 512) : Nat := fld d 167 166
def rjPrims (d : BitVec 512) : Nat := fld d 95 64
def rjVtx (d : BitVec 512) : Nat := fld d 63 0
/-- A valid descriptor (R287). -/
def rjOk (d : BitVec 512) : Bool :=
  fld d 511 168 == 0 && fld d 163 160 == 0 && rjCull d ≠ 3 && rjSamples d ≠ 3 && 1 ≤ rjPrims d && rjPrims d ≤ 2 ^ 24 && rjVtx d % 16 == 0

/-- Sample positions in sixteenths of a pixel (R288). -/
def rjPositions (d : BitVec 512) : List (Nat × Nat) :=
  match rjSamples d with
  | 0 => [(8, 8)]
  | 1 => [(6, 2), (14, 6), (2, 10), (10, 14)]
  | _ => [(9, 5), (7, 11), (13, 9), (5, 3), (3, 13), (1, 7), (11, 15), (15, 1)]

/-- A coordinate in units of 1/256 pixel, rounded to nearest even; `none` where it is not finite or out of range. -/
def snap (x : Word) : Option Int :=
  match Fmt.f32.value x.toNat with
  | .fin n m e =>
    let r := (roundTo .rne n m (e + 8) 0).1
    let v : Int := if n then -(r : Int) else r
    if -(2 ^ 23) ≤ v ∧ v < 2 ^ 23 then some v else none
  | _ => none

/-- A triangle after snapping: three points, and three depths. -/
structure Tri where
  p : List (Int × Int)
  z : List Word
deriving DecidableEq, Repr, Inhabited

/-- E_pq(s). -/
def edgeFn (p q s : Int × Int) : Int := (q.1 - p.1) * (s.2 - p.2) - (q.2 - p.2) * (s.1 - p.1)
def Tri.v (t : Tri) (i : Nat) : Int × Int := t.p.getD i (0, 0)
/-- A. -/
def Tri.area (t : Tri) : Int := edgeFn (t.v 0) (t.v 1) (t.v 2)

/-- Triangle `k` of a job: `none` where it is discarded or culled (R288, R287). -/
def RJob.tri (j : RJob) (k : Nat) : Option Tri :=
  let vs := (List.range 3).map fun i => j.vtx[3 * k + i]?
  let ps := vs.map fun v => v.bind fun v => match snap v.1, snap v.2.1 with | some x, some y => some (x, y) | _, _ => none
  let zs := vs.map fun v => match v with | some v => v.2.2 | none => 0x7FC00000
  if ps.any Option.isNone || zs.any (fun z => (Fmt.f32.value z.toNat).isNan || (Fmt.f32.value z.toNat).isInf) then none
  else
    let t : Tri := { p := ps.map fun p => p.getD (0, 0), z := zs }
    if t.area = 0 ∨ (rjCull j.desc = 1 ∧ t.area < 0) ∨ (rjCull j.desc = 2 ∧ 0 < t.area) then none else some t

/-- The coverage mask of a triangle at pixel (x, y) (R288). -/
def Tri.cover (t : Tri) (d : BitVec 512) (x y : Nat) : Nat :=
  let vs := if t.area < 0 then [t.v 0, t.v 2, t.v 1] else [t.v 0, t.v 1, t.v 2]
  let inside (s : Int × Int) : Bool := (List.range 3).all fun i =>
    let p := vs.getD i (0, 0)
    let q := vs.getD ((i + 1) % 3) (0, 0)
    let e := edgeFn p q s
    0 < e || (e = 0 && (q.2 < p.2 || (q.2 = p.2 && p.1 < q.1)))
  (rjPositions d).zipIdx.foldl (fun m e =>
    if inside ((x : Int) * 256 + e.1.1 * 16, (y : Int) * 256 + e.1.2 * 16) then m + 2 ^ e.2 else m) 0

/-- The fragments of a triangle in issue order (R289): pixel, triangle, mask. -/
def RJob.frags (j : RJob) (k : Nat) : List (Nat × Nat × Nat) :=
  match j.tri k with
  | none => []
  | some t =>
    let d := j.desc
    let lo (f : Int × Int → Int) (m : Nat) : Nat := max m ((t.p.map f).foldl min (2 ^ 23) / 256).toNat
    let hi (f : Int × Int → Int) (m : Nat) : Nat := min m (((t.p.map f).foldl max (-(2 ^ 23)) / 256 + 1).toNat)
    let x0 := lo Prod.fst (fld d 111 96)
    let x1 := hi Prod.fst (fld d 143 128)
    let y0 := lo Prod.snd (fld d 127 112)
    let y1 := hi Prod.snd (fld d 159 144)
    (List.range (y1 - y0)).flatMap fun y => (List.range (x1 - x0)).filterMap fun x =>
      let m := t.cover d (x0 + x) (y0 + y)
      if m = 0 then none else some ((y0 + y) * 65536 + x0 + x, k, m)

/-- The next batch of a job: up to 32 fragments, no pixel twice (R289). -/
def nextBatch : Nat → List Nat → List (Nat × Nat × Nat) → List (Nat × Nat × Nat)
  | 0, _, _ => []
  | _, _, [] => []
  | n + 1, seen, f :: t => if seen.contains f.1 then [] else f :: nextBatch n (f.1 :: seen) t

def isJob (asid va : Nat) (j : RJob) : Bool := j.asid == asid && j.va == va
/-- The waves whose order places a core's jobs have: those of its resident blocks, and of the saved ones that come back to
it (R265). -/
def State.placeWaves (s : State) (core : Nat) : List (Nat × Nat) :=
  (List.range s.blocks.length).flatMap fun b =>
    match (s.blk b).st with
    | .resident | .saved _ => if (s.blk b).core = core then (List.range (s.blk b).waves.length).map (b, ·) else []
    | _ => []
/-- Some wave holds a place of the job (R289, R291). -/
def State.placesHeld (s : State) (core asid va : Nat) : Bool :=
  (s.placeWaves core).any fun bw =>
    recAsid (s.launchOf bw.1).record == asid && (s.wv bw.1 bw.2).frags.any fun f => f.job == va && f.places ≠ 0
/-- A FRAG of the core names the job and has still to be served. -/
def State.fragDue (s : State) (core asid va : Nat) : Bool :=
  (s.wavesOn core).any fun bw =>
    recAsid (s.launchOf bw.1).record == asid && (s.wv bw.1 bw.2).ops.any fun o =>
      o.kind == .frag && o.lanes.any fun l => l.st == .pending && l.va.toNat == va
/-- Close the jobs that have ended and hold no place (R289). -/
def State.closeJobs (s : State) (core : Nat) : State :=
  s.modCore core fun k => { k with rjobs := k.rjobs.filter fun j =>
    !(j.ended && !s.placesHeld core j.asid j.va && !s.fragDue core j.asid j.va) }

/-- Read the descriptor and the vertices of a job (R289). -/
def State.startJob (s : State) (a : Who) (c : Ctx) (j : RJob) : Acc RJob :=
  let stop (code : Nat) (s : State) : Acc RJob := .ok { j with started := true, endCode := code } s
  let mapped (vas : List Nat) : Bool := vas.all fun va => match c.map s .load (BitVec.ofNat 64 va) with | .ok _ => true | .error _ => false
  if j.va % 64 ≠ 0 then stop 1 s
  else if !mapped [j.va] then stop 2 s
  else
    match s.coRead a c j.va 3 64 with
    | .wait s => .wait s
    | .fault _ _ s => stop 3 s
    | .ok bs s =>
      let d := BitVec.ofNat 512 (leNat bs)
      let n := rjPrims d * 48
      if !rjOk d then stop 1 s
      else if !mapped (spanVas (rjVtx d) n) then stop 2 s
      else
        match s.coRead a c (rjVtx d) (n / 16 + 2) n with
        | .wait s => .wait s
        | .fault _ _ s => stop 3 s
        | .ok bs s =>
          let ws := bytesWords bs
          let j := { j with started := true, desc := d,
                            vtx := (List.range (3 * rjPrims d)).map fun i => (ws.getD (4 * i) 0, ws.getD (4 * i + 1) 0, ws.getD (4 * i + 2) 0) }
          .ok { j with todo := (List.range (rjPrims d)).flatMap j.frags } s

/-- Serve a FRAG (R289): the previous batch's places are released once SC is zero, then the next batch is handed out. -/
def State.performFrag (s : State) (a : Who) (c : Ctx) (va : Nat) : State :=
  if (s.wv a.b a.w).frags.any (fun f => f.places ≠ 0) ∧ (s.wv a.b a.w).sc ≠ 0 then s
  else
    let s := (s.modWv a.b a.w fun v => { v with frags := [] }).closeJobs a.core
    match (s.core a.core).rjobs.find? (isJob c.asid va) with
    | none => s
    | some j =>
      match (if j.started then .ok j s else s.startJob a c j : Acc RJob) with
      | .wait s => s
      | .fault _ _ s => s
      | .ok j s =>
        let batch := nextBatch 32 [] j.todo
        let j := { j with todo := j.todo.drop batch.length, ended := j.ended || batch = [] }
        let s := s.modCore a.core fun k => { k with rjobs := k.rjobs.map fun x => if isJob c.asid va x then j else x }
        let res (ln : Nat) : List Word :=
          match batch[ln]? with
          | some (p, t, m) => [BitVec.ofNat 32 p, BitVec.ofNat 32 t, BitVec.ofNat 32 m]
          | none => [0xFFFFFFFF, if batch = [] then BitVec.ofNat 32 j.endCode else 0, 0]
        let s := s.modWv a.b a.w fun v =>
          { v with frags := batch.zipIdx.map fun e => { job := va, lane := e.2, pixel := e.1.1, tri := e.1.2.1, mask := e.1.2.2, places := e.1.2.2 } }
        (s.modOp a.b a.w a.op fun o => { o with lanes := o.lanes.map fun l => { l with st := .ready, res := res l.lane } }).closeJobs a.core

/-- R289. -/
def execFrag (y : Bool) (d : Field) (a : BitVec 4) (s : State) : Host.Outcome State Fault Refusal :=
  let i := info (.frag y d a)
  issueWith false i y (fun c => c.pa.mode ≠ .plain) s fun c s =>
    let va := c.bc64 a
    let jobs := (s.core c.blk.core).rjobs
    let open_ := jobs.any (isJob c.asid va.toNat)
    if !open_ && 4 ≤ jobs.length then .hold .waitCo s
    else c.toUnit 3 s fun s =>
      let lane (ln : Nat) : LaneOp := { lane := ln, va, dst := d.toNat }
      match c.async { ctr := .cc, kind := .frag, nregs := 3, lanes := (List.range 32).map lane } s with
      | .done s =>
        let s := s.modWv c.b c.w fun v => { v with rjob := some va.toNat }
        .done (if open_ then s else s.modCore c.blk.core fun k => { k with rjobs := k.rjobs ++ [{ asid := c.asid, va := va.toNat }] })
      | r => r

/-- COVER of one lane: coverage, weights and depth (R290). -/
def RJob.coverLane (j : RJob) (pixel tri : Nat) : List Word :=
  match (if tri < rjPrims j.desc then j.tri tri else none) with
  | none => [0, 0, 0, 0]
  | some t =>
    let x := pixel % 65536
    let y := pixel / 65536
    let c : Int × Int := ((x : Int) * 256 + 128, (y : Int) * 256 + 128)
    let b1 : Rat := (edgeFn (t.v 2) (t.v 0) c : Rat) / t.area
    let b2 : Rat := (edgeFn (t.v 0) (t.v 1) c : Rat) / t.area
    let z (i : Nat) : Rat := (fixed32 (t.z.getD i 0) : Rat) / 2 ^ 149
    [BitVec.ofNat 32 (t.cover j.desc x y), extRound .rne (.fin b1), extRound .rne (.fin b2),
      extRound .rne (.fin (z 0 + b1 * (z 1 - z 0) + b2 * (z 2 - z 0)))]

/-- The wave has issued a FRAG that its unit has still to serve: what follows it in the unit waits (R262). -/
def Wave.fragPending (v : Wave) : Bool := v.ops.any fun o => o.kind == .frag && o.lanes.any fun l => l.st == .pending

/-- R290: the job of the wave's latest FRAG, once that is served. A job that some FRAG has named afresh is open once it has
started. The job of a wave that has been restored on another core, where its own had closed, is that core's open job of the
same ASID and VA, if there is one: the spec does not say (DESIGN CHOICE, notes/assumptions/69.md). -/
def execCover (y : Bool) (d a : Field) (s : State) : Host.Outcome State Fault Refusal :=
  let i := info (.cover y d a)
  issue i y s fun c s =>
    let lanes := (List.range 32).filter c.active
    if lanes = [] then .done s
    else if c.wv.fragPending then .hold .waitCo s
    else
      match c.wv.rjob.bind fun va => (s.core c.blk.core).rjobs.find? fun j => isJob c.asid va j && j.started with
      | none => .trap (c.trap 0x12 (some c.pa.exm))
      | some j => c.toUnit 3 s fun s =>
        c.async
          { ctr := .cc, kind := .cover, nregs := 4
            lanes := lanes.map fun ln =>
              { lane := ln, dst := c.vreg ln d.toNat, st := .ready, res := j.coverLane (c.v ln a.toNat 0).toNat (c.v ln a.toNat 1).toNat } } s

/-- The fragments of the wave's active lanes. -/
def Ctx.activeFrags (c : Ctx) : List Frag := c.wv.frags.filter fun f => c.active f.lane

/-- An earlier fragment of the same job and pixel still holds a place that `f` waits for (R291). -/
def State.ordered (s : State) (core asid : Nat) (f : Frag) (smp : Bool) : Bool :=
  (s.placeWaves core).any fun bw =>
    recAsid (s.launchOf bw.1).record == asid && (s.wv bw.1 bw.2).frags.any fun e =>
      e.job == f.job && e.pixel == f.pixel && e.tri < f.tri && (if smp then e.places &&& f.mask ≠ 0 else e.places ≠ 0)

/-- ORDB (R291): the wait, then FENCE.ACQ at device scope. A zero EXM has no effect (R262). -/
def Ctx.ordb (c : Ctx) (smp : Bool) (s : State) : Act :=
  if c.pa.exm = 0 then .done s
  else c.toUnit 3 s fun s =>
  if c.wv.fragPending then .hold .waitCo s
  else c.fenceHold
    (if c.activeFrags.any fun f => s.ordered c.blk.core c.asid f smp then .hold .ordered s
     else c.withAcq 2 s fun s => .done (c.closeAtom true 2 s))

/-- R291. -/
def execOrdbPx (y : Bool) (s : State) : Host.Outcome State Fault Refusal :=
  let i := info (.ordbPx y)
  issueWith false i y (fun c => c.pa.mode ≠ .plain) s fun c s => c.ordb false s

/-- R291. -/
def execOrdbSmp (y : Bool) (s : State) : Host.Outcome State Fault Refusal :=
  let i := info (.ordbSmp y)
  issueWith false i y (fun c => c.pa.mode ≠ .plain) s fun c s => c.ordb true s

/-- R291: FENCE.REL at device scope, then the active lanes' places are released. A zero EXM has no effect (R262). -/
def execOrde (y : Bool) (s : State) : Host.Outcome State Fault Refusal :=
  let i := info (.orde y)
  issueWith false i y (fun c => c.pa.mode ≠ .plain) s fun c s =>
    if c.pa.exm = 0 then .done s
    else c.toUnit 3 s fun s =>
    if c.wv.fragPending then .hold .waitCo s
    else c.fenceHold (c.withRel 2 s fun s =>
      .done ((c.closeAtom false 2 (s.modWv c.b c.w fun v =>
        { v with frags := v.frags.map fun f => if c.active f.lane then { f with places := 0 } else f })).closeJobs c.blk.core))

/-- A wave that has ended releases its places once its SC is zero (R291). -/
def State.releasePlaces (s : State) (b w : Nat) : State :=
  let v := s.wv b w
  if v.st = .done ∧ v.frags ≠ [] ∧ v.sc = 0 then (s.modWv b w fun v => { v with frags := [] }).closeJobs (s.blk b).core else s

/-! ### Carrying out a lane -/

/-- Write a register entry of a lane's stack: in a run-ahead the register no longer awaits a faulted result (R77, R285). -/
def State.putEntry (s : State) (b w lane r : Nat) (x : Word) : State :=
  let c := s.ctxAt b w 0
  (s.modBlk b fun k => { k with v := rowPut k.v (vRow c.nw c.B c.X w r) (· == lane) fun _ => x }).modWv b w fun v =>
    { v with ra := v.ra.map fun q => { q with badV := q.badV.filter (· != r * 32 + lane) } }

/-- Carry out a lane of a co-processor instruction, if it is its turn. -/
def State.performCo (s : State) (b w id lane : Nat) : State :=
  let v := s.wv b w
  match v.op? id with
  | none => s
  | some op =>
    match op.lanes.find? fun o => o.lane == lane && o.st == .pending with
    | none => s
    | some o =>
      if !v.unitTurn op lane then s
      else
        let a : Who := { b, w, op := id, lane, core := (s.blk b).core, world := (s.launchOf b).world }
        let c := s.ctxAt b w op.path
        match op.kind with
        | .tex fn r => s.performTex a c fn r o
        | .boxt => (s.coRead a c o.va.toNat 4 192).andThen a o.va fun bs s => s.lanePerformed a (boxTest (o.words 8) (bytesWords bs))
        | .trit => (s.coRead a c o.va.toNat 3 36).andThen a o.va fun bs s => s.lanePerformed a (triTest (o.words 8) (bytesWords bs))
        | .stkPush =>
          -- a spill into the shading heap goes in issue order with the wave's stores there (R300)
          if !s.shadeTurn v op o then s
          else
          match o.aux with
          | r :: _ => (s.putEntry b w lane r (o.data.setWidth 32)).lanePerformed a []
          | [] => (s.storeLine a o.ia (natBytes 4 o.data.toNat) 0).andThen a o.va fun _ s =>
            (s.l1Update a.core o.ia (natBytes 4 o.data.toNat)).lanePerformed a []
        | .stkPop =>
          (match o.aux with
           | r :: _ => s.lanePerformed a [c.vraw lane r]
           | [] => (s.loadLine a o.ia 4 0 true).andThen a o.va fun bs s => s.lanePerformed a [BitVec.ofNat 32 (leNat bs)])
        | .frag => s.performFrag a c o.va.toNat
        | _ => s

end Sys2Proof.Machine
end

