-- ==== Sys2Proof/Machine/Matrix.lean ====
section
/-! DEFINITION. The matrix engine and the tile store: spec/11_matrix_engine.md R236–R260, with R200–R202. -/

namespace Sys2Proof.Machine

open Sys2Proof

/-! ### The tile store (R236–R238) -/

/-- Bytes [c, c + n) of tile row `r`. -/
def Block.tRead (k : Block) (r c n : Nat) : List Byte := (List.range n).map fun i => SMap.get 0 k.tile (r * 1024 + c + i)
def Block.tWrite (k : Block) (r c : Nat) (bs : List Byte) : Block :=
  { k with tile := bs.zipIdx.foldl (fun m e => SMap.put 0 m (r * 1024 + c + e.2) e.1) k.tile }

/-- Fields of a tile descriptor. -/
def tdRow (d : Word) : Nat := fld d 11 0
def tdCol (d : Word) : Nat := fld d 21 12
def tdT (d : Word) : Bool := d.getLsbD 22
/-- Tile row and column of element (i, j). -/
def tdPos (d : Word) (i j : Nat) : Nat × Nat :=
  if tdT d then (tdRow d + j, tdCol d + i) else (tdRow d + i, tdCol d + j)
/-- The bounds of R238 for M rows and N columns. -/
def tdOk (d : Word) (trows m n : Nat) : Bool :=
  fld d 31 23 == 0 && tdRow d + (if tdT d then n else m) ≤ trows && tdCol d + (if tdT d then m else n) ≤ 256

/-! ### Quorums (R239) -/

def qrV (q : Word) : Bool := q.getLsbD 31
/-- The A roles and the B roles present, by wave index. -/
def qrA (q : Word) : List Nat :=
  let a0 := fld q 29 25
  let a1 := fld q 24 20
  let a2 := fld q 19 15
  [a0] ++ (if a1 ≠ a0 then [a1] else []) ++ if a2 ≠ a1 then [a2] else []
def qrB (q : Word) : List Nat :=
  let b0 := fld q 14 10
  let b1 := fld q 9 5
  let b2 := fld q 4 0
  [b0] ++ (if b1 ≠ b0 then [b1] else []) ++ if b2 ≠ b1 then [b2] else []
/-- The members of a set quorum, in role order. -/
def qrMembers (q : Word) : List Nat := if qrV q then qrA q ++ qrB q else []

/-- The path whose MMA is held at the saddle latch; a debugger may hold it there (R441). -/
def Wave.saddlePath (v : Wave) : Option Nat := (List.range 8).find? fun p => v.latchPath (v.path p)

/-- The wave is held at the saddle latch, and no debugger holds its path. -/
def Wave.atLatch (v : Wave) : Bool := match v.saddlePath with | some p => (v.path p).st == .run | none => false

/-- The paths of a wave that wait in QWAIT. -/
def Wave.inQwait (v : Wave) : List Nat :=
  (List.range 8).filter fun p => (v.path p).issuing && (v.path p).phase == 1 && (v.path p).blocked == some .quorum && v.saddlePath != some p

/-- QUORUM at a path that waits for its quorum: it traps, or, where a debugger holds it, will trap at DBGRES (R343). -/
def State.breakPath (s : State) (b x p : Nat) : State :=
  if ((s.wv b x).path p).st == .held then
    s.modWv b x fun v => { v with saddle := if v.saddlePath = some p then none else v.saddle, paths := v.paths.modify p fun y => { y with broken := true } }
  else s.takeTrap b x p ((s.ctxAt b x p).trap 0x21)

/-- R241, R259: the waves whose QUORUMREG names one of `ws` and that wait for it raise QUORUM; where one of
them was held at its MMA, or has ended by it, so do those that wait for it. A HELD path does at DBGRES. -/
def State.quorumBreak (s : State) (b : Nat) : Nat → List Nat → State
  | 0, _ => s
  | _, [] => s
  | fuel + 1, w :: ws =>
    let hit := (List.range (s.blk b).waves.length).filter fun x =>
      let v := s.wv b x
      x ≠ w && v.st == .live && (qrMembers v.quorum).contains w
    let (s, more) := hit.foldl (fun (r : State × List Nat) x =>
      let v := r.1.wv b x
      let s' := (v.saddlePath.toList ++ v.inQwait).foldl (fun s p => if (s.wv b x).st == .live then s.breakPath b x p else s) r.1
      (s', if v.atLatch || ((s'.wv b x).st == .done && v.st == .live) then r.2 ++ [x] else r.2)) (s, ([] : List Nat))
    State.quorumBreak s b fuel (ws ++ more)

/-! ### Operand types (R243–R245) -/

/-- What an MMA multiplies. -/
structure MmaTy where
  fmt : Option Fmt
  w : Nat
  p : Nat
  mx : Bool
deriving DecidableEq, Repr, Inhabited

def mmaTy (fn : Nat) : MmaTy :=
  match fn with
  | 0 => ⟨some .e4m3, 8, 4, false⟩
  | 1 => ⟨some .e5m2, 8, 4, false⟩
  | 2 => ⟨some .bf16, 16, 2, false⟩
  | 3 => ⟨some .f16, 16, 2, false⟩
  | 4 => ⟨some .e4m3, 8, 4, true⟩
  | 5 => ⟨some .e2m3, 6, 4, true⟩
  | 6 => ⟨some .e2m1, 4, 8, true⟩
  | _ => ⟨none, 8, 4, false⟩

/-- Registers of a member's run. -/
def MmaTy.run (t : MmaTy) : Nat := if t.mx then 17 else 16
/-- K of one MMA. -/
def MmaTy.k (t : MmaTy) : Nat := 8 * t.p

/-- The bits of A(i, k), or of B(k, i), of a member's rows (R244). -/
def fragElem (t : MmaTy) (rows : List Row) (i k : Nat) : Nat :=
  let r := (rows.getD (8 * (i / 32) + k / t.p) zeroRow).getD (i % 32) 0
  r.toNat / 2 ^ (t.w * (k % t.p)) % 2 ^ t.w
/-- The scale of row `i` for K-block `blk` (R245). -/
def fragScale (t : MmaTy) (rows : List Row) (i blk : Nat) : Nat :=
  if t.mx then fld ((rows.getD 16 zeroRow).getD (i % 32) 0) (8 * (2 * blk + i / 32) + 7) (8 * (2 * blk + i / 32)) else 127

/-- The value of an E8M0 scale. -/
def scaleFV (x : Nat) : FV := if x = 255 then .nan false else .fin false 1 ((x : Int) - 127)

/-- R200: one element over one K-block. -/
def mmaStep (f : Fmt) (c : Nat) (as bs : List Nat) (sa sb : Nat) : Nat :=
  let prod (a b : Nat) : FV := ((((f.value a).mul (scaleFV sa)).1.mul (f.value b)).1.mul (scaleFV sb)).1
  let nan := sa = 255 || sb = 255 || (as.zip bs).any fun e =>
    (f.value e.1).isNan || (f.value e.2).isNan || ((f.value e.1).mul (f.value e.2)).2
  let s := if nan then .nan false else (FV.sum .rne ((as.zip bs).map fun e => prod e.1 e.2)).1
  match s with
  | .nan _ => 0x7FC00000
  | s =>
    let s := if s.isZero then .fin false 0 0 else s
    (Fmt.f32.deliver .rne false (FV.sum .rne [Fmt.f32.value c, s]).1).1

/-- R201: one element of MMA.S8. -/
def mmaStepS (c : Nat) (as bs : List Nat) : Nat :=
  let sg (x : Nat) : Int := if 128 ≤ x then (x : Int) - 256 else x
  let s := ((as.zip bs).map fun e => sg e.1 * sg e.2).foldl (· + ·) (c : Int)
  (s % 2 ^ 32).toNat

/-- The MACs that zero skipping leaves out for one element over one K-block (R202, R250). -/
def mmaSkips (t : MmaTy) (as bs : List Nat) (sa sb : Nat) : Nat :=
  let zero (a : Nat) : Bool := match t.fmt with | some f => (f.value a).isZero | none => a == 0
  let colOk := match t.fmt with | some f => bs.all (fun b => !(f.value b).isNan && !(f.value b).isInf) && sb ≠ 255 | none => true
  if colOk && sa ≠ 255 then (as.filter zero).length else 0

/-- Apply an MMA (R247): the block's tile, and the MACs skipped. -/
def mmaApply (k : Block) (fn : Nat) (desc q : Word) (frags : List (List Row)) : Block × Nat :=
  let t := mmaTy fn
  let na := (qrA q).length
  let nb := (qrB q).length
  let blocks := if t.k = 64 then 2 else 1
  let len := min t.k 32
  (List.range (64 * na)).foldl (fun (r : Block × Nat) i =>
    let ra := frags.getD (i / 64) []
    (List.range (64 * nb)).foldl (fun (r : Block × Nat) j =>
      let rb := frags.getD (na + j / 64) []
      let pos := tdPos desc i j
      let (c, skips) := (List.range blocks).foldl (fun (x : Nat × Nat) blk =>
        let as := (List.range len).map fun k => fragElem t ra (i % 64) (32 * blk + k)
        let bs := (List.range len).map fun k => fragElem t rb (j % 64) (32 * blk + k)
        let sa := fragScale t ra (i % 64) blk
        let sb := fragScale t rb (j % 64) blk
        (match t.fmt with | some f => mmaStep f x.1 as bs sa sb | none => mmaStepS x.1 as bs,
          x.2 + mmaSkips t as bs sa sb)) (leNat (k.tRead pos.1 (4 * pos.2) 4), 0)
      (r.1.tWrite pos.1 (4 * pos.2) (natBytes 4 c), r.2 + skips)) r) (k, 0)

/-! ### The queue (R248) -/

/-- The operation of a wave that a matrix operation stands for has been applied. -/
def State.matDone (s : State) (b w id : Nat) : State :=
  (s.modOp b w id fun o => { o with lanes := o.lanes.map fun l => { l with st := .returned } }).retire b w id

/-- The pairs packed in a list. -/
def pairsOf : List Nat → List (Nat × Nat)
  | a :: b :: t => (a, b) :: pairsOf t
  | _ => []

/-- The row spans of a TLDG or TSTG, cut by line: tile row and byte, VA, IA, length (R254). -/
def tileSpans (desc : Word) (rows cols pitch va : Nat) (gmap : List (Nat × Nat)) : List (Nat × Nat × Nat × Nat × Nat) :=
  (List.range rows).flatMap fun r =>
    let start := va + r * pitch
    let stop := start + 4 * cols
    let cuts := start :: ((List.range ((start % 128 + 4 * cols - 1) / 128)).map fun i => (start / 128 + i + 1) * 128)
    cuts.map fun p =>
      (tdRow desc + r, 4 * tdCol desc + (p - start), p % 2 ^ 64, iaOf gmap (p % 2 ^ 64), min stop ((p / 128 + 1) * 128) - p)

/-- A fault of a line joins those of an access, of which the first in each granule is kept (R76). -/
def addFault (f : List (Nat × Nat × DWord × Nat)) (x : Nat × Nat × DWord × Nat) : List (Nat × Nat × DWord × Nat) :=
  if f.any fun y => y.2.2.2 / 65536 == x.2.2.2 / 65536 then f else f ++ [x]

/-- Apply TLDG (`store` false) or TSTG to its spans, one line at a time: what it leaves, the first fault of each granule, and
the spans that are left where a line makes it wait. -/
def State.tileMove (s : State) (a : Who) (store : Bool) : List (Nat × Nat × Nat × Nat × Nat) → List (Nat × Nat × DWord × Nat) →
    State × List (Nat × Nat × DWord × Nat) × Nat
  | [], f => (s, f, 0)
  | (r, c, va, ia, n) :: t, f =>
    let fail (g : WalkFault) (s : State) := State.tileMove s a store t (addFault f (g.1, g.2, BitVec.ofNat 64 va, ia))
    let wait (s : State) := (s, f, t.length + 1)
    if store then
      match s.storeLine a ia ((s.blk a.b).tRead r c n) 0 with
      | .ok _ s => State.tileMove s a store t f
      | .fault g _ s => fail g (if g = fData 6 then s.noteData g a.world ia else s)
      | .wait s => wait s
    else
      match s.loadLine a ia n 0 false with
      | .ok bs s => State.tileMove (s.modBlk a.b fun k => k.tWrite r c bs) a store t f
      | .fault g _ s => fail g (if g = fData 6 then s.noteData g a.world ia else s)
      | .wait s => wait s

/-- Encode a TCVT element (R256). -/
def tcvtElem (fmt : Nat) (sat : Bool) (x : Nat) : List Byte :=
  let f : Fmt := match fmt with | 0 => .bf16 | 1 => .f16 | 2 => .e4m3 | _ => .e5m2
  natBytes (f.width / 8) (f.encode .rne sat (Fmt.f32.value x)).1
/-- Columns that a TCVT writes. -/
def tcvtCols (fmt cols : Nat) : Nat := ((if fmt < 2 then 2 else 1) * cols + 3) / 4

/-- A re-issued TLDG or TSTG enters the queue again (R81, R254). -/
def State.matAccept (s : State) (core : Nat) : State :=
  (s.wavesOn core).foldl (fun s bw =>
    (s.wv bw.1 bw.2).ops.foldl (fun s op =>
      let q := (s.core core).matq
      let tile := match op.kind with | .tldg _ _ _ _ | .tstg _ _ _ _ => true | _ => false
      let open_ := tile && op.lanes.any fun o => o.st == .pending
      if open_ && q.length < 16 && !(q.any fun m => m.block == bw.1 && m.waves.contains (bw.2, op.id)) then
        s.modCore core fun k => { k with matq := k.matq ++ [{ block := bw.1, waves := [(bw.2, op.id)], kind := op.kind, lanes := op.lanes }] }
      else s) s) s

/-- Apply the operation at the head of a core's queue. -/
def State.matApply (s : State) (core : Nat) (m : MatOp) : State :=
  let b := m.block
  let pop (s : State) : State := s.modCore core fun k => { k with matq := k.matq.tail }
  let (w, id) := m.waves.headD (0, 0)
  let finish (s : State) : State := m.waves.foldl (fun s e => s.matDone b e.1 e.2) (pop s)
  match m.kind with
  | .mma fn desc _ _ q =>
    let (k, n) := mmaApply (s.blk b) fn desc q m.frags
    finish (m.waves.foldl (fun s (e : Nat × Nat) => s.modWv b e.1 fun v => { v with mxskip := v.mxskip + BitVec.ofNat 32 n })
      (s.modBlk b fun _ => k))
  | .tld desc n =>
    let res (ln : Nat) : List Word := (List.range n).map fun j =>
      let p := tdPos desc ln j
      BitVec.ofNat 32 (leNat ((s.blk b).tRead p.1 (4 * p.2) 4))
    pop (s.modOp b w id fun o => { o with lanes := o.lanes.map fun l => { l with st := .ready, res := res l.lane } })
  | .tst desc n =>
    finish (m.lanes.foldl (fun s o => (List.range n).foldl (fun s j =>
      let p := tdPos desc o.lane j
      s.modBlk b fun k => k.tWrite p.1 (4 * p.2) (natBytes 4 (o.data.toNat / 2 ^ (32 * j)))) s) s)
  | .tzero desc rows cols =>
    finish (s.modBlk b fun k => (List.range rows).foldl (fun k r => k.tWrite (tdRow desc + r) (4 * tdCol desc) (List.replicate (4 * cols) 0)) k)
  | .tcvt dst src rows cols fmt sat =>
    let width := 4 * tcvtCols fmt cols
    let row (r : Nat) : List Byte :=
      let x := (s.blk b).tRead (tdRow src + r) (4 * tdCol src) (4 * cols)
      let bs := (List.range cols).flatMap fun j => tcvtElem fmt sat (leNat ((x.drop (4 * j)).take 4))
      bs ++ List.replicate (width - bs.length) 0
    let all := (List.range rows).map row
    finish (s.modBlk b fun k => all.zipIdx.foldl (fun k e => k.tWrite (tdRow dst + e.2) (4 * tdCol dst) e.1) k)
  | .tldg desc rows cols pitch | .tstg desc rows cols pitch =>
    let store := match m.kind with | .tstg _ _ _ _ => true | _ => false
    let o := m.lanes.headD {}
    let a : Who := { b, w, op := id, lane := o.lane, core, world := (s.launchOf b).world }
    let spans := tileSpans desc rows cols pitch o.addr.toNat (pairsOf o.aux)
    -- after the wave's earlier accesses of the same bytes (R166), its heap writes in issue order (R300)
    let turn := match (s.wv b w).op? id with
      | some op => (s.wv b w).mayPerform op o && s.shadeTurn (s.wv b w) op o
      | none => true
    if !turn then s
    else
      match s.tileMove a store (spans.drop m.moved) m.fails with
      | (s, [], 0) => finish s
      | (s, fs, 0) =>
        (pop s).modOp b w id fun x => { x with lanes := fs.map fun f => { o with st := .faulted f.1 f.2.1 f.2.2.1 f.2.2.2 } }
      | (s, fs, left) =>
        s.modCore core fun k =>
          { k with matq := { m with moved := spans.length - left, fails := fs } :: k.matq.tail }
  | _ => pop s

/-- MATRIX_OP_APPLY (R248). -/
def execMatrixOpApply (core : Nat) (s : State) : Host.Outcome State Fault Refusal :=
  let s := s.matAccept core
  match (s.core core).matq with
  | [] => .next s
  | m :: _ => .next (s.matApply core m)

/-! ### The saddle latch (R240–R242, R247) -/

/-- The run that a wave reads, by its role in its own QUORUMREG. -/
def Wave.roleRun (v : Wave) (w a b : Nat) : Option Nat :=
  if !qrV v.quorum then none
  else if (qrA v.quorum).contains w then some a
  else if (qrB v.quorum).contains w then some b
  else none

/-- The issue of an MMA up to the latch, where it may wait for the queue already (R248). A trap there reaches the members that
wait for the wave. -/
def mma (i : Info) (fn : Nat) (y : Bool) (d : BitVec 4) (a b : Field) (s : State) : Host.Outcome State Fault Refusal :=
  let t := mmaTy fn
  let run (c : Ctx) : Option Nat := c.wv.roleRun c.w a.toNat b.toNat
  let out := issueWith false i y (fun c => match run c with | some f => c.wordRunIll i f t.run false | none => false) s fun c s =>
    let desc := c.g d.toNat
    let q := c.wv.quorum
    if (match run c with | some f => c.runXreg f t.run | none => false) then .trap (c.trap 0x05)
    else if !tdOk desc c.trows (64 * (qrA q).length) (64 * (qrB q).length) then .trap (c.trap 0x12 none (desc.setWidth 64))
    else if !qrV q then .trap (c.trap 0x21)
    else if 1 < (c.wv.paths.filter Path.live).length then .trap (c.trap 0x21)
    else if (qrMembers q).any fun w => (s.wv c.b w).st ≠ .live then .trap (c.trap 0x21)
    else if 63 ≤ c.wv.mc then .hold .waitMx s
    else .hold (if c.wv.saddle.isSome && c.pa.blocked = some .waitMx then .waitMx else .quorum)
      (s.modWv c.b c.w fun v => { v with saddle := some (c.pa.word, desc, q) })
  match out, s.ctx with
  | .next s', some c =>
    let v := s'.wv c.b c.w
    if v.st = .done ∨ (v.tinfo.getLsbD 31 ∧ !c.wv.tinfo.getLsbD 31) then
      .next ((s'.modWv c.b c.w fun v => { v with saddle := none }).quorumBreak c.b 64 [c.w])
    else .next s'
  | o, _ => o

/-- A released member: its MMA issues, raising MC; the read of its run holds its lane pair for 16 cycles (R240, R337). -/
def State.mmaRelease (s : State) (b w : Nat) (kind : OpKind) : State :=
  let v := s.wv b w
  match v.saddlePath with
  | none => s
  | some p =>
    let c := s.ctxAt b w p
    let s := c.startOp { ctr := .mc, kind, lanes := [{}] } s
    (c.issued (c.pa.word.getLsbD 31) (c.advance 0 s)).modWv b w fun v =>
      { v with saddle := none, slotEnd := s.clk + 16, slotUnit := v.pair, lastCls := some 4 }

/-- SADDLE_RELEASE (R240): the first quorum of the core all of whose members are held is compared, and released or
trapped. -/
def execSaddleRelease (core : Nat) (s : State) : Host.Outcome State Fault Refusal :=
  let ready := (s.wavesOn core).find? fun bw =>
    let v := s.wv bw.1 bw.2
    !(s.blk bw.1).stopping && v.st == .live && v.atLatch && (qrMembers v.quorum).all fun w => (s.wv bw.1 w).st == .live && (s.wv bw.1 w).atLatch
  match ready with
  | none => .next s
  | some (b, w) =>
    let key (x : Word × Word × Word) : Word × Word × Word := (x.1 &&& 0x7FFFFFFF#32, x.2)
    let mine := ((s.wv b w).saddle).map key
    let ms := qrMembers (s.wv b w).quorum
    if ms.any fun x => ((s.wv b x).saddle).map key ≠ mine then
      -- every member raises QUORUM
      let s := ms.foldl (fun s x =>
        match (s.wv b x).saddlePath with
        | some p => (s.modWv b x fun v => { v with saddle := none }).takeTrap b x p ((s.ctxAt b x p).trap 0x21)
        | none => s) s
      .next (s.quorumBreak b 64 ms)
    else if 16 ≤ (s.core core).matq.length then
      let wait (p : Path) : Path := if p.blocked = some .quorum then { p with blocked := some .waitMx } else p
      .next (ms.foldl (fun s x => s.modWv b x fun v => { v with paths := v.paths.map wait }) s)
    else
      match (s.wv b w).saddle with
      | none => .next s
      | some (word, desc, q) =>
        let fn := fld word 23 21
        let f (x : Nat) : Nat := if (qrA q).contains x then fld word 13 7 else fld word 6 0
        let c (x : Nat) : Ctx := s.ctxAt b x 0
        let rows (x : Nat) : List Row := (List.range (mmaTy fn).run).map fun j => (List.range 32).map fun ln => (c x).vraw ln (f x + j)
        let kind : OpKind := .mma fn desc (fld word 13 7) (fld word 6 0) q
        let waves := ms.map fun x => (x, (s.wv b x).nextOp)
        let m : MatOp := { block := b, waves, kind, frags := ms.map rows }
        .next ((ms.foldl (fun s x => s.mmaRelease b x kind) s).modCore core fun k => { k with matq := k.matq ++ [m] })

/-- R246, R247. -/
def execMmaE4m3 (y : Bool) (d : BitVec 4) (a b : Field) (s : State) : Host.Outcome State Fault Refusal :=
  let i := info (.mmaE4m3 y d a b)
  mma i 0 y d a b s

/-- R246, R247. -/
def execMmaE5m2 (y : Bool) (d : BitVec 4) (a b : Field) (s : State) : Host.Outcome State Fault Refusal :=
  let i := info (.mmaE5m2 y d a b)
  mma i 1 y d a b s

/-- R246, R247. -/
def execMmaBf16 (y : Bool) (d : BitVec 4) (a b : Field) (s : State) : Host.Outcome State Fault Refusal :=
  let i := info (.mmaBf16 y d a b)
  mma i 2 y d a b s

/-- R246, R247. -/
def execMmaF16 (y : Bool) (d : BitVec 4) (a b : Field) (s : State) : Host.Outcome State Fault Refusal :=
  let i := info (.mmaF16 y d a b)
  mma i 3 y d a b s

/-- R246, R247. -/
def execMmaMxe4m3 (y : Bool) (d : BitVec 4) (a b : Field) (s : State) : Host.Outcome State Fault Refusal :=
  let i := info (.mmaMxe4m3 y d a b)
  mma i 4 y d a b s

/-- R246, R247. -/
def execMmaMxe2m3 (y : Bool) (d : BitVec 4) (a b : Field) (s : State) : Host.Outcome State Fault Refusal :=
  let i := info (.mmaMxe2m3 y d a b)
  mma i 5 y d a b s

/-- R246, R247. -/
def execMmaMxe2m1 (y : Bool) (d : BitVec 4) (a b : Field) (s : State) : Host.Outcome State Fault Refusal :=
  let i := info (.mmaMxe2m1 y d a b)
  mma i 6 y d a b s

/-- R246, R247. -/
def execMmaS8 (y : Bool) (d : BitVec 4) (a b : Field) (s : State) : Host.Outcome State Fault Refusal :=
  let i := info (.mmaS8 y d a b)
  mma i 7 y d a b s

/-! ### The TILE major (R251–R256) -/

/-- Accept a TILE operation, or hold it while the queue or MC is full (R248). -/
def Ctx.tileOp (c : Ctx) (op : AsyncOp) (s : State) : Act :=
  if 16 ≤ (s.core c.blk.core).matq.length || 63 ≤ c.wv.mc then .hold .waitMx s
  else
    let m : MatOp := { block := c.b, waves := [(c.w, c.wv.nextOp)], kind := op.kind, lanes := op.lanes }
    .done ((c.startOp { op with ctr := .mc } s).modCore c.blk.core fun k => { k with matq := k.matq ++ [m] })

/-- TLD and TST (R252). The descriptor's reserved bits and a block without tile rows raise RANGE whatever the EXM (R236,
R238). -/
def Ctx.tileReg (c : Ctx) (d : Field) (a n : BitVec 4) (store : Bool) (s : State) : Act :=
  let desc := c.bc a
  let count := n.toNat + 1
  let lanes := (List.range 32).filter c.active
  if fld desc 31 23 ≠ 0 ∨ c.trows = 0 then .trap (c.trap 0x12 none (desc.setWidth 64))
  else
    match lanes.getLast? with
    | none => .done s
    | some top =>
    if !tdOk desc c.trows (top + 1) count then .trap (c.trap 0x12 none (desc.setWidth 64))
    else
      c.tileOp
        { kind := if store then .tst desc count else .tld desc count, nregs := count
          lanes := lanes.map fun ln => { lane := ln, dst := d.toNat, data := if store then c.runData false d count ln else 0 } } s

/-- R252. -/
def execTld (y : Bool) (d : Field) (a n : BitVec 4) (s : State) : Host.Outcome State Fault Refusal :=
  let i := info (.tld y d a n)
  issue i y s fun c s => c.tileReg d a n false s

/-- R252. -/
def execTst (y : Bool) (d : Field) (a n : BitVec 4) (s : State) : Host.Outcome State Fault Refusal :=
  let i := info (.tst y d a n)
  issue i y s fun c s => c.tileReg d a n true s

/-- The checks of R253, in the order of R254: descriptors, T, control word, regions (descriptor, columns). -/
def Ctx.tileRegion (c : Ctx) (ds : List Word) (ctl : Word) (cvt : Bool) (regions : List (Word × Nat)) : Option TrapInfo :=
  let t (x : Word) : Option TrapInfo := some (c.trap 0x12 none (x.setWidth 64))
  let rows := fld ctl 15 8 + 1
  firstTrap
    [ds.findSome? fun d => if fld d 31 23 ≠ 0 then t d else none,
     ds.findSome? fun d => if tdT d then t d else none,
     if fld ctl 31 19 ≠ 0 ∨ (!cvt ∧ fld ctl 18 16 ≠ 0) then t ctl else none,
     regions.findSome? fun e => if tdOk e.1 c.trows rows e.2 then none else t e.1]

/-- TLDG and TSTG (R254). -/
def Ctx.tileGlobal (c : Ctx) (d a b : BitVec 4) (store : Bool) (s : State) : Act :=
  let desc := c.bc d
  let ctl := c.g b.toNat
  let pitch := c.g (b.toNat + 1)
  let va := c.bc64 a
  let rows := fld ctl 15 8 + 1
  let cols := fld ctl 7 0 + 1
  match c.tileRegion [desc] ctl false [(desc, cols)] with
  | some t => .trap t
  | none =>
    if va.toNat % 4 ≠ 0 then .trap (c.trap 0x13 none va)
    else if pitch.toNat % 4 ≠ 0 then .trap (c.trap 0x13 none (pitch.setWidth 64))
    else if 1 < rows ∧ pitch.toNat < 4 * cols then .trap (c.trap 0x12 none (pitch.setWidth 64))
    else
      let vas := (List.range rows).flatMap fun r => spanVas (va.toNat + r * pitch.toNat) (4 * cols)
      let need : Need := if store then .store else .load
      match vas.findSome? fun x => match c.map s need (BitVec.ofNat 64 x) with | .error e => some (x, e) | .ok _ => none with
      | some (x, e) => .trap (c.trap e none (BitVec.ofNat 64 x))
      | none =>
        let gmap := (vas.map fun x =>
          (x % 2 ^ 64 / 65536, match c.map s need (BitVec.ofNat 64 x) with | .ok ia => ia / 65536 | .error _ => 0)).dedup
        c.tileOp
          { kind := if store then .tstg desc rows cols pitch.toNat else .tldg desc rows cols pitch.toNat, uniform := true
            lanes := [{ lane := 0, va, addr := va, ia := iaOf gmap va.toNat, aux := gmap.flatMap fun e => [e.1, e.2] }] } s

/-- R254. -/
def execTldg (y : Bool) (d a b : BitVec 4) (s : State) : Host.Outcome State Fault Refusal :=
  let i := info (.tldg y d a b)
  issue i y s fun c s => c.tileGlobal d a b false s

/-- R254. -/
def execTstg (y : Bool) (d a b : BitVec 4) (s : State) : Host.Outcome State Fault Refusal :=
  let i := info (.tstg y d a b)
  issue i y s fun c s => c.tileGlobal d a b true s

/-- R253, R255. -/
def execTzero (y : Bool) (d b : BitVec 4) (s : State) : Host.Outcome State Fault Refusal :=
  let i := info (.tzero y d b)
  issue i y s fun c s =>
    let desc := c.bc d
    let ctl := c.bc b
    match c.tileRegion [desc] ctl false [(desc, fld ctl 7 0 + 1)] with
    | some t => .trap t
    | none => c.tileOp { kind := .tzero desc (fld ctl 15 8 + 1) (fld ctl 7 0 + 1), lanes := [{}] } s

/-- R253, R256. -/
def execTcvt (y : Bool) (d a b : BitVec 4) (s : State) : Host.Outcome State Fault Refusal :=
  let i := info (.tcvt y d a b)
  issue i y s fun c s =>
    let dst := c.bc d
    let src := c.bc a
    let ctl := c.bc b
    let cols := fld ctl 7 0 + 1
    let fmt := fld ctl 17 16
    match c.tileRegion [dst, src] ctl true [(dst, tcvtCols fmt cols), (src, cols)] with
    | some t => .trap t
    | none => c.tileOp { kind := .tcvt dst src (fld ctl 15 8 + 1) cols fmt (ctl.getLsbD 18), lanes := [{}] } s

/-! ### The MQ major (R257–R260) -/

/-- A value that QSET may write (R258). -/
def Ctx.qsetOk (c : Ctx) (q : Word) : Bool :=
  let a0 := fld q 29 25; let a1 := fld q 24 20; let a2 := fld q 19 15
  let b0 := fld q 14 10; let b1 := fld q 9 5; let b2 := fld q 4 0
  let ms := qrA q ++ qrB q
  if !qrV q then q == 0
  else !q.getLsbD 30 && ms.all (· < c.nw) && ms.dedup.length == ms.length &&
    !(a2 ≠ a1 && a1 == a0) && !(b2 ≠ b1 && b1 == b0) && ms.contains c.w &&
    (!recRV c.lr || ms.all fun w => recNF c.lr ≤ w && w < recNF c.lr + recNM c.lr)

/-- R258. -/
def execQset (y : Bool) (a : BitVec 4) (s : State) : Host.Outcome State Fault Refusal :=
  let i := info (.qset y a)
  issue i y s fun c s =>
    let q := c.bc a
    if !c.qsetOk q then .trap (c.trap 0x12 none (q.setWidth 64))
    else .done ((s.modWv c.b c.w fun v => { v with quorum := q, qarr := 0 }).quorumBreak c.b 64 [c.w])

/-- The QWAITs of a block whose members' arrivals have come: their waits are over (R259). -/
def State.quorumMet (s : State) (b : Nat) : State :=
  (List.range (s.blk b).waves.length).foldl (fun t x =>
    let v := s.wv b x
    if (qrMembers v.quorum).all fun w => v.qarr ≤ (s.wv b w).qarr then
      v.inQwait.foldl (fun t p => t.modPath b x p fun y => { y with phase := 2 }) t
    else t) s

/-- R259. -/
def execQarr (y : Bool) (s : State) : Host.Outcome State Fault Refusal :=
  let i := info (.qarr y)
  issue i y s fun c s =>
    if !qrV c.wv.quorum then .trap (c.trap 0x21)
    else if c.wv.mc ≠ 0 then .hold .waitMx s
    else .done ((s.modWv c.b c.w fun v => { v with qarr := (v.qarr + 1) % 2 ^ 32 }).quorumMet c.b)

/-- R259. A named member that has retired can never arrive. QWAIT holds the whole wave. -/
def execQwait (y : Bool) (s : State) : Host.Outcome State Fault Refusal :=
  let i := info (.qwait y)
  issue i y s fun c s =>
    let ms := qrMembers c.wv.quorum
    if c.pa.phase = 2 then .done s
    else if ms = [] then .trap (c.trap 0x21)
    else if ms.any fun w => (s.wv c.b w).st ≠ .live then .trap (c.trap 0x21)
    else if ms.all fun w => c.wv.qarr ≤ (s.wv c.b w).qarr then .done s
    else .hold .quorum ((s.modPath c.b c.w c.p fun p => { p with phase := 1 }).modWv c.b c.w fun v => { v with excl := some c.p })

/-- R260. -/
def execQdrop (y : Bool) (s : State) : Host.Outcome State Fault Refusal :=
  let i := info (.qdrop y)
  issue i y s fun c s =>
    if c.wv.mc ≠ 0 then .hold .waitMx s
    else .done ((s.modWv c.b c.w fun v => { v with quorum := 0 }).quorumBreak c.b 64 [c.w])

end Sys2Proof.Machine
end

