-- ==== Sys2Proof/Machine/SaveArea.lean ====
section
/-! DEFINITION. The save-area layout of a block (R341, R405–R408), read as words by the debug window and written
whole by a save, and the debug window's writes into it (R438). -/

namespace Sys2Proof.Machine

open Sys2Proof

/-- A number from fields: the low bit of each and its value. -/
def fieldsNat (l : List (Nat × Nat)) : Nat := l.foldl (fun x e => x + e.2 * 2 ^ e.1) 0
/-- Word `i` of a number. -/
def wordAt (x i : Nat) : Word := BitVec.ofNat 32 (x / 2 ^ (32 * i))

def PathSt.num : PathSt → Nat
  | .free => 0 | .run => 1 | .wait => 2 | .fault => 3 | .held => 4 | .done => 5

/-- A path entry (R341). -/
def Path.bits (p : Path) : Nat :=
  fieldsNat
    [(201, p.pc.toNat / 4 % 2 ^ 55), (146, if p.st = .wait then p.join.toNat / 4 % 2 ^ 55 else 0), (144, p.mode.num), (142, p.pair % 4), (136, p.count % 64),
     (132, p.cpos % 16), (129, p.st.num), (128, p.parent.isSome.toNat), (125, p.parent.getD 0 % 8), (122, p.hst.num),
     (64, p.side.toNat), (32, p.full.toNat), (0, p.exm.toNat)]

/-- Offsets of the parts of a save area (R405). -/
structure Layout where
  nw : Nat
  rb : Nat
  sb : Nat
  trows : Nat
deriving DecidableEq, Repr, Inhabited

/-- RB of R144. -/
def recRB (r : BitVec 2048) : Nat := 128 * (recNw r * recB r + (recNw r + 1) / 2 * recX r)
def layoutOf (r : BitVec 2048) : Layout := { nw := recNw r, rb := recRB r, sb := recSB r, trows := recTrows r }
/-- V: the registers. -/
def Layout.v (l : Layout) : Nat := 1024 + 8192 * l.nw
/-- D: the deferred-access entries. -/
def Layout.d (l : Layout) : Nat := l.v + l.rb + l.sb + 1024 * l.trows

/-- The deferred accesses of a saved block in issue order, those of one cycle wave by wave. -/
def Block.deferredList (k : Block) : List (Nat × Deferred) :=
  sortBy (fun x y => x.2.op.at_ ≤ y.2.op.at_)
    ((List.range k.waves.length).flatMap fun w => (k.waves.getD w default).deferred.map (w, ·))
/-- The copies of a block that are to be issued again, in issue order (R131). -/
def State.copiesOf (s : State) (b : Nat) : List Copy :=
  s.copies.filter fun c => c.wave / 32 == b && c.st != .done

/-- The block header (R406). -/
def State.headerBits (s : State) (b : Nat) : Nat :=
  let k := s.blk b
  let l := s.launchOf b
  let cl := s.clusters.getD k.cluster {}
  let saved := k.st != .resident
  let pairs := List.range ((recNw l.record + 1) / 2)
  let barBits (lo : Nat) (bars : List Barrier) (w : Nat) : List (Nat × Nat) :=
    bars.zipIdx.map fun e => (lo + 64 * e.2, e.1.arrived.foldl (fun x i => x + 2 ^ i) 0 + e.1.gen % 65536 * 2 ^ w)
  fieldsNat
    ([(0, l.va.toNat), (64, k.idx), (96, cl.ticket), (128, k.core), (136, k.pinned.toNat), (144, recNw l.record - 1),
      (152, recB l.record), (160, recX l.record), (176, recSB l.record / 256), (192, recTrows l.record),
      (208, pairs.foldl (fun x p => if (SMap.get none k.xlock p).isSome then x + 2 ^ p else x) 0),
      (224, pairs.foldl (fun x p => if SMap.get none k.xlock p = some (2 * p + 1) then x + 2 ^ p else x) 0)] ++
      barBits 256 k.bars 32 ++ (if k.rank = 0 then barBits 1280 cl.bars 16 else []) ++
      (if saved then [(1792, k.deferredList.length), (1824, (s.copiesOf b).length)] else []))

def GLatch.num : GLatch → Nat
  | .empty => 0 | .pending => 1 | .applied => 2 | .diverted => 3

/-- READY, PARKED or HELD of WSTATE (R335, R407). -/
def Wave.stateNum (v : Wave) : Nat :=
  let live := v.paths.filter Path.live
  if live ≠ [] ∧ live.all (fun p => p.st == .held) then 2
  else if v.ypark || v.sleepUntil.isSome || v.ra.isSome || !((List.range 8).any v.mayIssue) then 1
  else 0

/-- The wave record (R407); `sup`: the wave runs in S mode (R391). R456 has the save area report the wave's slot, for which the layout has no field: none is given
(notes/assumptions/67.md). -/
def waveBits (sup : Bool) (v : Wave) : Nat :=
  fieldsNat
    ((List.range 126).map (fun i => (32 * (i + 1), (SMap.get 0 v.g (i + 1)).toNat)) ++
     [(4096, v.q.toNat), (4128, v.fctrl.toNat), (4160, v.fflags.toNat), (4192, v.tcode.toNat), (4224, v.tpc.toNat),
      (4288, v.tmask.toNat), (4320, v.texm.toNat), (4352, v.tva.toNat), (4416, fieldsNat [(0, v.tinfo.toNat % 2 ^ 30), (30, sup.toNat), (31, (v.tinfo.getLsbD 31).toNat)]), (4448, v.thdr.toNat),
      (4480, v.mxskip.toNat), (4512, v.quorum.toNat), (4544, v.qarr), (4576, v.cticket.toNat), (4608, v.clkLatch.toNat),
      (4640, v.openBatch % 2 ^ 32), (4672, v.batchDone.toNat),
      (4704, match v.latch with | some (b, c) => b % 2 ^ 32 + c * 2 ^ 32 + 2 ^ 63 | none => 0),
      (4768, v.stateNum + v.lastPath % 8 * 4 + ((List.range 8).foldl (fun x i => if (v.path i).ymark then x + 2 ^ i else x) 0) * 32 +
        v.pendDebug.toNat * 2 ^ 16 + v.pendDeliver.toNat * 2 ^ 24),
      (4800, v.glatchVA.toNat), (4864, v.glatchGen % 65536 + v.glatch.num * 2 ^ 16),
      (4896, v.mextlo.toNat + v.mexthi.toNat * 2 ^ 32), (4960, v.mext.toNat)] ++
     (List.range 16).map (fun i => (5120 + 32 * i, (v.stall.getD i 0).toNat)) ++
     (List.range 8).map (fun i => (6144 + 256 * i, (v.path i).bits)) ++
     v.rename.map (fun e => (8192 + 8 * (64 * (e.1 / 32) + 2 * (e.1 % 32)), e.2.1 + 256 * e.2.2)) ++
     [(10240, v.stkSpill.toNat + v.stkCtl.toNat * 2 ^ 64 + v.stkInit.toNat * 2 ^ 96)] ++
     (List.range 32).map (fun ln => (10368 + 32 * ln, SMap.get 0 v.stkDepth ln)) ++
     (List.range 32).map (fun ln => (12288 + 256 * ln,
        match v.rays.find? (fun e => e.1 == ln) with
        | some e => fieldsNat (e.2.zipIdx.map fun x => (32 * x.2, x.1.toNat))
        | none => 0x7FC00000 * 2 ^ 192)) ++
     [(20480, v.rjob.getD 0), (20544, v.frags.foldl (fun x f => if f.places = 0 then x else x ||| 2 ^ f.lane) 0)] ++
     v.frags.map (fun f => (20608 + 128 * f.lane, f.pixel + f.tri * 2 ^ 32 + f.mask * 2 ^ 64 + f.places * 2 ^ 96)))

/-- A deferred-access entry (R408). -/
def deferredBits (w : Nat) (d : Deferred) : Nat :=
  fieldsNat
    ([(0, d.op.word.toNat), (32, d.path), (35, w), (40, ((d.op.lanes.headD {}).dst) % 256), (64, d.op.pc.toNat),
      (128, d.op.lanes.foldl (fun x o => x ||| 2 ^ o.lane) 0)] ++
     d.op.lanes.map (fun o => (192 + 64 * o.lane, o.addr.toNat)) ++
     d.op.lanes.map (fun o => (2240 + 128 * o.lane, o.data.toNat % 2 ^ 128)))

/-- A copy re-issue entry (R408). -/
def copyBits (c : Copy) : Nat :=
  fieldsNat
    ([(0, c.word.toNat), (32, c.wave % 32), (64, c.batch % 2 ^ 32), (96, c.next), (384, if c.fn < 3 then 0 else c.snap.toNat)] ++
     c.ops.zipIdx.map fun e => (128 + 32 * e.2, e.1.toNat))

/-- Size of the layout of a block as it stands (R405, R438). -/
def State.saveSize (s : State) (b : Nat) : Nat :=
  let d := (layoutOf (s.launchOf b).record).d
  if (s.blk b).st = .resident then d else d + 1024 * (s.blk b).deferredList.length + 128 * (s.copiesOf b).length

/-- The aligned word at an offset of a block's save area. -/
def State.saveWord (s : State) (b off : Nat) : Word :=
  let k := s.blk b
  let l := layoutOf (s.launchOf b).record
  if off < 1024 then wordAt (s.headerBits b) (off / 4)
  else if off < l.v then wordAt (waveBits (recAsid (s.launchOf b).record % 4096 == 0) (k.waves.getD ((off - 1024) / 8192) default)) ((off - 1024) % 8192 / 4)
  else if off < l.v + l.rb then rowGet k.v ((off - l.v) / 128) ((off - l.v) % 128 / 4)
  else if off < l.v + l.rb + l.sb then BitVec.ofNat 32 (leNat (k.sRead (off - l.v - l.rb) 4))
  else if off < l.d then
    let o := off - l.v - l.rb - l.sb
    BitVec.ofNat 32 (leNat ((List.range 4).map fun i => SMap.get 0 k.tile (o + i)))
  else if k.st = .resident then 0
  else
    let defs := k.deferredList
    let o := off - l.d
    if o < 1024 * defs.length then
      (match defs[o / 1024]? with | some d => wordAt (deferredBits d.1 d.2) (o % 1024 / 4) | none => 0)
    else
      let o := o - 1024 * defs.length
      match (s.copiesOf b)[o / 128]? with | some c => wordAt (copyBits c) (o % 128 / 4) | none => 0

/-- The wave is HELD or SAVED (R438). -/
def Wave.stopped (v : Wave) : Bool := v.st == .saved || v.stateNum == 2

/-- A word written into a wave record through the debug window (R438). -/
def Wave.debugWrite (v : Wave) (o : Nat) (x : Word) : Wave :=
  if o % 4 ≠ 0 then v
  else if 4 ≤ o && o < 508 then { v with g := SMap.put 0 v.g (o / 4) x }
  else if o = 512 then { v with q := x.setWidth 8 ||| 1 }
  else if o = 516 then (if sregBad 0x09 x then v else { v with fctrl := x })
  else if o = 520 then (if sregBad 0x08 x then v else { v with fflags := x })
  else if 768 ≤ o && o < 1024 then
    let i := (o - 768) / 32
    let part := (o - 768) % 32
    let p := v.path i
    if p.st != .held then v
    else if part = 0 then v.modPath i fun p => { p with exm := x &&& p.full }
    else if part = 28 then
      -- PC[56:2] lies at [255:201]: the high word holds its top 32 bits
      v.modPath i fun p => { p with pc := BitVec.ofNat 64 ((x.toNat * 2 ^ 25 + p.pc.toNat % 2 ^ 25)) |> signPc, cpos := 0, words := [] }
    else if part = 24 then
      v.modPath i fun p => { p with pc := BitVec.ofNat 64 (p.pc.toNat % 2 ^ 57 / 2 ^ 25 * 2 ^ 25 + x.toNat / 2 ^ 9 * 4) |> signPc, cpos := 0, words := [] }
    else v
  else v
where
  /-- a VA from its low 57 bits (R57) -/
  signPc (x : DWord) : DWord := (x.setWidth 57).signExtend 64

/-- A word written at an offset of a block's view, applied only where R438 says. -/
def State.saveWrite (s : State) (b off : Nat) (x : Word) : State :=
  let k := s.blk b
  let l := layoutOf (s.launchOf b).record
  let r := (s.launchOf b).record
  if off < 1024 then s
  else if off < l.v then
    let w := (off - 1024) / 8192
    if (k.waves.getD w default).stopped then s.modWv b w fun v => v.debugWrite ((off - 1024) % 8192) x else s
  else if off < l.v + l.rb then
    let row := (off - l.v) / 128
    let nw := recNw r
    let held (w : Nat) : Bool := (k.waves.getD w default).stopped
    let ok :=
      if row < nw * recB r then held (row / recB r)
      else let p := (row - nw * recB r) / recX r; (List.range nw).all fun w => w / 2 ≠ p || held w || (k.waves.getD w default).st == .done
    if ok then s.modBlk b fun k => { k with v := rowPut k.v row (· == (off - l.v) % 128 / 4) (fun _ => x) } else s
  else if off < l.d then
    if k.waves.all fun v => v.stopped || v.st == .done then
      if off < l.v + l.rb + l.sb then s.modBlk b fun k => k.sWrite (off - l.v - l.rb) (natBytes 4 x.toNat)
      else s.modBlk b fun k =>
        { k with tile := (natBytes 4 x.toNat).zipIdx.foldl (fun m e => SMap.put 0 m (off - l.v - l.rb - l.sb + e.2) e.1) k.tile }
    else s
  else s

end Sys2Proof.Machine
end

