-- ==== Sys2Proof/Machine/Shading.lean ====
section
/-! DEFINITION. The SHC major and the notices of the shading cache: spec/13_shading_cache.md R304–R320, R448. The tag
store, its tokens and the query stand in Machine/Heap.lean. -/

namespace Sys2Proof.Machine

open Sys2Proof

/-! ### The actions (R300) -/

/-- The VALID and ABORTED entries of a handle become INVALID (R307, R431 OBJCLR). -/
def Shading.dropHandle (h : Shading) (handle : Nat) : Shading :=
  (h.tags.filterMap fun e => match e.2 with
    | some t => if t.key % 2 ^ 24 = handle ∧ t.st ≠ .inflight then some e.1 else none
    | none => none).foldl Shading.evict h

/-- R317: publish or abort a live token of a wave. -/
def State.pubAbort (s : State) (b w tok : Nat) (publish : Bool) : Nat × State :=
  let world := (s.launchOf b).world
  match s.shade.live tok with
  | none => (1, s)
  | some (_, t) =>
    match s.object world (t.key % 2 ^ 24) with
    | (none, s) => (4, s)
    | (some o, s) =>
      if obOwner o ≠ world then (4, s)
      else
        (0, (if publish then s.publish world tok else s.abortToken world tok).modWv b w fun v =>
          { v with tokens := v.tokens.filter (· != tok) })

/-- R307, R318: advance the epoch of an object. -/
def State.advanceEpoch (s : State) (world : Nat) (allowed : Bool) (handle : Nat) : Nat × State :=
  match s.object world handle with
  | (none, s) => (0x80000007, s)
  | (some o, s) =>
    if obOwner o ≠ world ∨ !allowed then (0x80000000, s)
    else
      let new := (obEpoch o + 1) % 2 ^ 16
      match s.engWrite world (s.shade.otia + 32 * handle) (natBytes 2 new) with
      | (some f, s) => (0x80000007, s.logFault f none world (s.shade.otia + 32 * handle))
      | (none, s) => (new, if new = 0 then s.modShade fun h => h.dropHandle handle else s)

/-- R319: raise or lower the pin of a key's VALID entry. -/
def State.pinTile (s : State) (world key : Nat) (up : Bool) : Nat × State :=
  match s.object world (key % 2 ^ 24) with
  | (none, s) => (0x80000007, s)
  | (some o, s) =>
    if !s.mayRead world o then (0x80000004, s)
    else
      match s.shade.find key .valid with
      | none => (0x80000002, s)
      | some (i, t) =>
        if up && t.pin = 3 then (0x80000008, s)
        else if !up && t.pin = 0 then (0x80000009, s)
        else
          let pin := if up then t.pin + 1 else t.pin - 1
          (pin, s.modShade fun h => h.setTag i (some { t with pin }))

/-- R308. -/
def Shading.tick (h : Shading) : Shading :=
  let frame := (h.frame + 1) % 2 ^ 32
  let tags := h.tags.filterMap fun e => match e.2 with
    | some t =>
      if t.st = .aborted then none
      else some (e.1, some (if t.st = .valid then { t with age := min (t.age + 1) 255 } else t))
    | none => none
  { h with frame, tags, quar := h.quar.filter fun q => frame < q.2 + 2 }

/-- A token that its wave still holds when it ends is aborted (R304). -/
def State.dropTokens (s : State) (b w : Nat) : State :=
  let v := s.wv b w
  if v.tokens = [] then s
  else (v.tokens.foldl (fun s t => s.abortToken (s.launchOf b).world t) s).modWv b w fun v => { v with tokens := [] }

/-- Carry out the action of a lane, if it is its turn (R300). -/
def State.performShc (s : State) (b w id lane : Nat) : State :=
  let v := s.wv b w
  match v.op? id with
  | none => s
  | some op =>
    match op.lanes.find? fun o => o.lane == lane && o.st == .pending with
    | none => s
    | some o =>
      if !v.unitTurn op lane || !s.shadeTurn v op o then s
      else
        let world := (s.launchOf b).world
        let key := o.addr.toNat
        let all (p : LaneOp → Bool) (x : Nat) (s : State) : State :=
          s.modOp b w id fun q =>
            { q with lanes := q.lanes.map fun l => if l.st == .pending && p l then { l with st := .ready, res := [BitVec.ofNat 32 x] } else l }
        match op.kind with
        | .scq =>
          let (r, s) := s.query world key
          let heap := r.status == 0 || r.status == 3
          (s.modLane b w id lane fun l =>
            { l with
              st := .ready
              res := [BitVec.ofNat 32 (r.status + 8 * r.fmt), BitVec.ofNat 32 r.token, BitVec.ofNat 32 r.va, BitVec.ofNat 32 (r.va / 2 ^ 32)] }).modOp b w id
            fun q => if heap then { q with phase := 1 } else q
        | .scpub => let (x, s) := s.pubAbort b w key true; all (fun _ => true) x s
        | .scabort => let (x, s) := s.pubAbort b w key false; all (fun _ => true) x s
        | .scinv =>
          let c := s.ctxAt b w op.path
          let (x, s) := s.advanceEpoch world (c.smode || c.shade) key
          all (fun l => l.addr == o.addr) x s
        | .scpin => let (x, s) := s.pinTile world key true; all (fun l => l.lane == lane) x s
        | .scunpin => let (x, s) := s.pinTile world key false; all (fun l => l.lane == lane) x s
        | .sctick =>
          (s.modShade Shading.tick).modOp b w id fun q =>
            { q with lanes := q.lanes.map fun l => if l.st == .pending then { l with st := .ready } else l }
        | _ => s

/-! ### Issue (R314–R320) -/

/-- A per-lane action on the operands of the active lanes, which have `bits` bits (R315, R318, R319). -/
def Ctx.shcLanes (c : Ctx) (kind : OpKind) (d a : Field) (bits nd : Nat) (s : State) : Act :=
  let lanes := (List.range 32).filter c.active
  let x (ln : Nat) : DWord := if bits = 24 then (c.src a ln 0).setWidth 64 else c.opnd64 false a ln
  match c.laneTrap ((lanes.filter fun ln => 2 ^ bits ≤ (x ln).toNat).map (·, 0x12)) x with
  | some t => .trap t
  | none =>
    if lanes = [] then .done s
    else c.toUnit 4 s fun s =>
      c.async { ctr := .cc, kind, nregs := nd, lanes := lanes.map fun ln => { lane := ln, addr := x ln, dst := c.vreg ln d.toNat } } s

/-- R315. -/
def execScq (y : Bool) (d a : Field) (s : State) : Host.Outcome State Fault Refusal :=
  let i := info (.scq y d a)
  issue i y s fun c s => c.shcLanes .scq d a 56 4 s

/-- R318. -/
def execScinv (y : Bool) (d a : Field) (s : State) : Host.Outcome State Fault Refusal :=
  let i := info (.scinv y d a)
  issue i y s fun c s => c.shcLanes .scinv d a 24 1 s

/-- R319. -/
def execScpin (y : Bool) (d a : Field) (s : State) : Host.Outcome State Fault Refusal :=
  let i := info (.scpin y d a)
  issue i y s fun c s => c.shcLanes .scpin d a 56 1 s

/-- R319. -/
def execScunpin (y : Bool) (d a : Field) (s : State) : Host.Outcome State Fault Refusal :=
  let i := info (.scunpin y d a)
  issue i y s fun c s => c.shcLanes .scunpin d a 56 1 s

/-- An action that executes once, whatever the EXM, and answers all 32 lanes (R317). -/
def Ctx.shcOnce (c : Ctx) (kind : OpKind) (d : Field) (x : Word) (nd : Nat) (s : State) : Act :=
  c.toUnit 4 s fun s =>
    c.async
      { ctr := .cc, kind, nregs := nd, lanes := (List.range 32).map fun ln => { lane := ln, addr := x.setWidth 64, dst := d.toNat } } s

/-- R312, R317. -/
def execScpub (y : Bool) (d : Field) (a : BitVec 4) (s : State) : Host.Outcome State Fault Refusal :=
  let i := info (.scpub y d a)
  issueWith false i y (fun c => c.pa.mode ≠ .plain) s fun c s =>
    if !c.shade then .trap (c.trap 0x11)
    else c.fenceHold (c.withRel 2 s fun s => c.shcOnce .scpub d (c.bc a) 1 (c.closeAtom false 2 s))

/-- R317. -/
def execScabort (y : Bool) (d : Field) (a : BitVec 4) (s : State) : Host.Outcome State Fault Refusal :=
  let i := info (.scabort y d a)
  issueWith false i y (fun c => c.pa.mode ≠ .plain) s fun c s =>
    if !c.shade then .trap (c.trap 0x11) else c.shcOnce .scabort d (c.bc a) 1 s

/-- R320. -/
def execSctick (y : Bool) (s : State) : Host.Outcome State Fault Refusal :=
  let i := info (.sctick y)
  issueWith false i y (fun c => c.pa.mode ≠ .plain) s fun c s =>
    if c.world ≠ s.shade.clockw then .trap (c.trap 0x11) else c.shcOnce .sctick 0 0 0 s

/-! ### SCWAIT (R316, R448) -/

/-- Take the wait-table entry of each distinct live-looking token. -/
def Ctx.scTake (c : Ctx) (toks : List Nat) (s : State) : List Nat × State :=
  toks.foldl (fun (r : List Nat × State) t =>
    match r.2.takeKey c.blk.core (.token t) with
    | (some i, s) =>
      let s := s.modWv c.b c.w fun v => { v with scKeys := v.scKeys ++ [i] }
      (r.1 ++ [i], s)
    | (none, s) => (r.1, s)) ([], s)

/-- Outcome 7 for every token without an outcome that is not live. -/
def Shading.scCheck (h : Shading) (l : List (Nat × Nat × Option Nat)) : List (Nat × Nat × Option Nat) :=
  l.map fun e => if e.2.2 = none ∧ (h.live e.2.1).isNone then (e.1, e.2.1, some 7) else e

/-- R316: the wave is held until every token has its outcome, then the outcomes go to the lanes. Phase 1: entries
taken; phase 2: the tokens checked. -/
def execScwait (y : Bool) (d a : Field) (s : State) : Host.Outcome State Fault Refusal :=
  let i := info (.scwait y d a)
  issueWith false i y (fun c => c.pa.mode ≠ .plain) s fun c s =>
    let lanes := (List.range 32).filter c.active
    if lanes = [] then .done s
    else
      let s := if c.pa.phase ≠ 0 then s
        else
          let all : List (Nat × Nat × Option Nat) := lanes.map fun ln =>
            let t := (c.src a ln 0).toNat
            (ln, t, if 2 ^ 31 ≤ t then some 7 else none)
          let s := (c.scTake ((all.filter fun e => e.2.2 = none).map fun e => e.2.1).dedup s).2
          (s.modWv c.b c.w fun v => { v with scwait := all }).modPath c.b c.w c.p fun p => { p with phase := 1 }
      let v := s.wv c.b c.w
      let busy := v.ops.any fun o => o.kind.shc && o.lanes.any fun l => l.st == .pending
      let s := if (v.path c.p).phase = 1 ∧ !busy then
          (s.modWv c.b c.w fun v => { v with scwait := s.shade.scCheck v.scwait }).modPath c.b c.w c.p fun p => { p with phase := 2 }
        else s
      let v := s.wv c.b c.w
      if v.scwait.any fun e => e.2.2.isNone then c.fenceHold (.hold .token s)
      else
        let op : AsyncOp :=
          { ctr := .cc, kind := .scq, phase := 1, nregs := 1
            lanes := v.scwait.map fun e =>
              { lane := e.1, dst := d.toNat, st := .ready, res := [BitVec.ofNat 32 (e.2.2.getD 7)] } }
        match c.async op s with
        | .done s => .done (s.modWv c.b c.w fun v => { v with scwait := [], scKeys := [] })
        | r => c.fenceHold r

/-- A token of a waiting wave has a wait-table entry on its core. -/
def State.hasTokenKey (s : State) (core : Nat) (v : Wave) (t : Nat) : Bool :=
  v.scKeys.any fun i => match SMap.get none (s.core core).wait i with
    | some e => e.key == .token t
    | none => false

/-- TOKEN_NOTICE (R316): the core's oldest notice resolves the tokens it names; a token without an entry is checked
again. -/
def execTokenNotice (core : Nat) (s : State) : Host.Outcome State Fault Refusal :=
  match (s.core core).notices with
  | [] => .next s
  | (published, tok) :: rest =>
    let s := s.modCore core fun k => { k with notices := rest }
    .next ((s.wavesOn core).foldl (fun s bw =>
      let v := s.wv bw.1 bw.2
      if v.scwait = [] then s
      else
        let checked := match v.excl with | some p => (v.path p).phase == 2 | none => false
        let l := v.scwait.map fun e =>
          if e.2.2 ≠ none then e
          else if s.hasTokenKey core v e.2.1 then (if e.2.1 = tok then (e.1, e.2.1, some (if published then 0 else 6)) else e)
          else if checked && (s.shade.live e.2.1).isNone then (e.1, e.2.1, some 7)
          else e
        s.modWv bw.1 bw.2 fun v =>
          { v with
            scwait := l
            paths := match v.excl with | some p => v.paths.modify p fun x => { x with again := true } | none => v.paths }) s)

end Sys2Proof.Machine
end

