-- ==== Sys2Proof/Machine/Blocks.lean ====
section
/-! DEFINITION. Blocks: occupancy and placement (R144, R145, R236, R456), clusters and tickets (R153, R155),
dispatch (R147, R339, R368, R369, R373), the end of a wave and of a block (R304, R373, R446, R458), donation
(R419). -/

namespace Sys2Proof.Machine

open Sys2Proof

/-! ### Occupancy (R144, R236) -/

def roundUp (x m : Nat) : Nat := (x + m - 1) / m * m
/-- A bank of the lane store (R143). -/
def bankSize : Nat := 32768
/-- The register region of `n` blocks, in bytes. -/
def occR (r : BitVec 2048) (n : Nat) : Nat := max (1024 * 1024) (roundUp (n * recRB r) bankSize)
/-- The scratchpad region of `n` blocks. -/
def occS (r : BitVec 2048) (n : Nat) : Nat := roundUp (n * recSB r) bankSize
def occOk (r : BitVec 2048) (n : Nat) : Bool :=
  n * recNw r ≤ 192 && occS r n ≤ 1792 * 1024 && occR r n + occS r n ≤ 2816 * 1024 && n * recTrows r ≤ 3072
/-- n of R144. -/
def recOcc (r : BitVec 2048) : Nat := ((List.range 193).filter (occOk r)).getLast?.getD 0

/-! ### What a core holds (R145, R458) -/

/-- Every resource of the block is free. -/
def Block.allFree (k : Block) : Bool := k.waves.all Wave.freed && k.freedStore && k.freedTile && k.freedBars
/-- The block holds resources of its core. -/
def Block.holds (k : Block) : Bool := k.st == .resident && !k.allFree
def State.blocksOn (s : State) (core : Nat) : List Nat :=
  (List.range s.blocks.length).filter fun b => (s.blk b).core == core && (s.blk b).holds
def State.sumOn (s : State) (core : Nat) (f : Nat → Nat) : Nat := ((s.blocksOn core).map f).foldl (· + ·) 0
/-- Wave slots in use. -/
def State.slotsUsed (s : State) (core : Nat) : List Nat :=
  (s.blocksOn core).flatMap fun b => ((s.blk b).waves.filter fun v => !v.freed).map Wave.slot
/-- Register bytes that a block still holds. -/
def State.regBytes (s : State) (b : Nat) : Nat :=
  let k := s.blk b
  let r := (s.launchOf b).record
  let live (w : Nat) : Bool := w < k.waves.length && !(k.waves.getD w default).freed
  128 * ((((List.range k.waves.length).filter live).length) * recB r +
    (((List.range ((k.waves.length + 1) / 2)).filter fun p => live (2 * p) || live (2 * p + 1)).length) * recX r)
def State.scratchBytes (s : State) (b : Nat) : Nat := if (s.blk b).freedStore then 0 else recSB (s.launchOf b).record
def State.tileRows (s : State) (b : Nat) : Nat := if (s.blk b).freedTile then 0 else recTrows (s.launchOf b).record

/-- `k` more blocks of a launch of a world fit on a core; what is there is of the same world (R145, R236). -/
def State.fits (s : State) (core world : Nat) (r : BitVec 2048) (k : Nat) : Bool :=
  if s.blocksOn core = [] then k ≤ recOcc r
  else
    ((s.blocksOn core).all fun b => (s.launchOf b).world == world) && (s.slotsUsed core).length + k * recNw r ≤ 192 &&
      s.sumOn core s.regBytes + k * recRB r ≤ (s.core core).splitR * bankSize &&
      s.sumOn core s.scratchBytes + k * recSB r ≤ (s.core core).splitS * bankSize &&
      s.sumOn core s.tileRows + k * recTrows r ≤ 3072

def State.modRidge (s : State) (r : Nat) (f : Ridge → Ridge) : State := { s with ridges := s.ridges.modify r f }
def State.ridge (s : State) (r : Nat) : Ridge := s.ridges.getD r {}

/-- A core's ridge is open for a world (R369, R413). -/
def State.ridgeOpen (s : State) (world ridge : Nat) : Bool :=
  let r := s.ridges.getD ridge {}
  r.phase == .open_ && r.world == some world && ridge < 32

/-- The cores of a ridge that a launch may use: a stage launch those it has been given (R374). -/
def Launch.coresOf (l : Launch) (ridge : Nat) : List Nat :=
  ((List.range 8).map (ridge * 8 + ·)).filter fun c => !recSV l.record || l.cores.contains c

/-- Blocks of one cluster that some cores of a ridge can take. -/
def State.coresRoom (s : State) (l : Launch) (cores : List Nat) : Nat :=
  let n := recCluster l.record
  (cores.map fun c => ((List.range (n + 1)).filter fun k => s.fits c l.world l.record k).getLast?.getD 0).foldl (· + ·) 0
/-- Blocks of one cluster that a ridge can take. -/
def State.ridgeRoom (s : State) (l : Launch) (ridge : Nat) : Nat := s.coresRoom l (l.coresOf ridge)

/-- The launch has another cluster to dispatch: a job, for a stage launch (R373). -/
def State.hasNext (s : State) (l : Launch) : Bool :=
  l.st == .ready && !l.cancelled &&
    (if recSV l.record then
      (match (s.stageRead l.world (recSqia l.record)).1 with
       | .ok q => q.ok && q.tail ≠ l.nextBlock
       | .error _ => false)
     else l.nextBlock < recGridX l.record * recGridY l.record * recGridZ l.record)

/-- The launch's next cluster fits on a ridge. -/
def State.roomOn (s : State) (l : Launch) (ridge : Nat) : Bool := s.hasNext l && recCluster l.record ≤ s.ridgeRoom l ridge

/-! ### Saved blocks (R404) -/

/-- A saved block may be restored to a core (R404, R265). -/
def State.restorable (s : State) (b core : Nat) : Bool :=
  let k := s.blk b
  (match k.st with | .saved _ => true | _ => false) && s.fits core (s.launchOf b).world (s.launchOf b).record 1 && (!k.pinned || k.core == core) &&
    !(s.launchOf b).cancelled

/-- Ridges that a world holds open. -/
def State.openRidges (s : State) (world : Nat) : List Nat := (List.range 32).filter (s.ridgeOpen world)

/-- A block of the world that a shutter saved can come back to a ridge: dispatch waits for it (R413 OPEN). -/
def State.restorePending (s : State) (world : Nat) : Bool :=
  (List.range s.blocks.length).any fun b =>
    (s.launchOf b).world == world && !(s.blk b).displaced &&
      (s.openRidges world).any fun r => (List.range 8).any fun c => s.restorable b (r * 8 + c)

/-- The world has a block that could be placed on a ridge if it held it (R419); of a stage launch, on cores that the ridge's
next division would give it (R374). -/
def State.couldUse (s : State) (world ridge : Nat) : Bool :=
  (s.launches.any fun l => l.world == world && s.hasNext l && recCluster l.record ≤ s.coresRoom l ((List.range 8).map (ridge * 8 + ·))) ||
    (List.range s.blocks.length).any fun b => (s.launchOf b).world == world && (List.range 8).any fun c => s.restorable b (ridge * 8 + c)

/-- R419: an idle ridge, on which nothing holds storage any more (R145), is lent to its world's donee. -/
def State.donate (s : State) (ridge : Nat) : State :=
  let r := s.ridges.getD ridge {}
  match s.slot, r.world with
  | some e, some w =>
    let mine := slRidge e ridge == w && r.phase == .open_ && !r.lent
    let busy := (List.range 8).any fun c => s.blocksOn (ridge * 8 + c) ≠ []
    let d := slDonee e w
    if mine && !busy && !s.couldUse w ridge && d < 12 && s.couldUse d ridge then
      { s with ridges := s.ridges.modify ridge fun x => { x with world := some d, lent := true } }
    else s
  | _, _ => s

/-! ### Dispatch -/

/-- The next ticket of a world (R153). -/
def State.drawTicket (s : State) (world : Nat) : Nat × State :=
  let held := (s.clusters.filter fun c => c.world == world && c.live).map Cluster.ticket
  let next (t : Nat) : Nat := if (t + 1) % 2 ^ 32 = 0 then 1 else (t + 1) % 2 ^ 32
  let t := (List.range (held.length + 1)).foldl (fun t _ => if held.contains t then next t else t) (next (s.world world).ticket)
  (t, s.modWorld world fun w => { w with ticket := t })

/-- A free choice among some values. -/
def State.pick (s : State) (l : List Nat) : Nat × State :=
  let (n, s) := s.freeNat l.length
  (l.getD n 0, s)

/-- Bind the waves of a block on its core: a slot that no other wave of the core holds, and a lane pair with fewer than 3
waves (R456). -/
def State.bind (s : State) (b : Nat) : State :=
  let core := (s.blk b).core
  (List.range (s.blk b).waves.length).foldl (fun s w =>
    if (s.wv b w).st == .done then s
    else
      let held := (s.blocksOn core).flatMap fun k =>
        ((List.range (s.blk k).waves.length).filter fun x => !((s.wv k x).freed || (k == b && w ≤ x))).map (s.wv k)
      let (slot, s) := s.pick ((List.range 192).filter fun x => !held.any fun v => v.slot == x)
      let (pair, s) := s.pick ((List.range 64).filter fun x => (held.filter fun v => v.pair == x).length < 3)
      s.modWv b w fun v => { v with slot, pair }) s

/-- The banks of the L1 region that must wake so that 8 of them stay ungated under a split (R143, R159). -/
def Core.l1Short (c : Core) : List Nat :=
  let l1 := (List.range 96).filter (c.splitR + c.splitS ≤ ·)
  (l1.filter c.gated.contains).take (8 - (l1.filter fun x => !c.gated.contains x).length)
/-- They wake. -/
def Core.wakeL1 (c : Core) : Core := { c with gated := c.gated.filter fun x => !c.l1Short.contains x, waking := c.l1Short ++ c.waking }

/-- What the arrival of a launch's block on a core does to it: its split, caches and range registers (R33, R62, R123,
R144, R145). The range registers are read where no resident wave of the core uses the space. A restore counts as a dispatch:
whether it is the first block of the launch dispatched there, and invalidates the ASID's entries of R123, the spec does not say
(DESIGN CHOICE, notes/assumptions/69.md). -/
def State.prepareCore (s : State) (core launch : Nat) : State :=
  let l := s.launches.getD launch default
  let r := l.record
  let n := recOcc r
  let empty := s.blocksOn core = []
  let fresh := !(s.core core).seen.contains launch
  let asidHere := (s.blocksOn core).any fun b =>
    recAsid (s.launchOf b).record == recAsid r && (s.blk b).waves.any fun v => v.st != .done
  let s := s.modCore core fun c =>
    { c with
      splitR := if empty then occR r n / bankSize else c.splitR
      splitS := if empty then occS r n / bankSize else c.splitS
      l1 := if empty then [] else c.l1
      icache := if fresh then [] else c.icache
      recs := if fresh then c.recs.filter fun e => e.1 / 2 ^ 64 != recAsid r else c.recs
      shapes := if fresh then c.shapes.filter fun e => e.1 / 2 ^ 64 != recAsid r else c.shapes
      seen := if fresh then launch :: c.seen else c.seen }
  let s := s.modCore core Core.wakeL1
  if asidHere then s else s.loadRanges core (recAsid r)

/-- The banks of a region, gated or waking, in which a block's storage falls: which they are is not defined, but the
region's other banks hold no more than they can (R160). -/
def State.fallsIn (s : State) (core lo size bytes : Nat) : List Nat × State :=
  let k := s.core core
  let shut := ((List.range size).map (lo + ·)).filter fun x => k.gated.contains x || k.waking.contains x
  let (hit, s) := s.freeSublist shut
  (hit ++ (shut.filter fun x => !hit.contains x).take (roundUp bytes bankSize / bankSize - (size - shut.length) - hit.length), s)

/-- The banks in which a block's storage falls wake, and the block waits for them (R160). -/
def State.wakeBanks (s : State) (b : Nat) : State :=
  let core := (s.blk b).core
  let k := s.core core
  let (v, s) := s.fallsIn core 0 k.splitR (s.sumOn core s.regBytes)
  let (x, s) := s.fallsIn core k.splitR k.splitS (s.sumOn core s.scratchBytes)
  (s.modCore core fun k =>
    { k with gated := k.gated.filter fun y => !(v ++ x).contains y, waking := (v ++ x).filter k.gated.contains ++ k.waking }).modBlk b
    fun q => { q with waking := v ++ x }

/-- A wave at dispatch (R147, R339). -/
def newWave (r : BitVec 2048) (idx w rank ticket : Nat) : Wave :=
  let mask := maskOf fun ln => w * 32 + ln < recThreads r
  let g := [(1, BitVec.ofNat 32 idx), (2, BitVec.ofNat 32 w), (3, BitVec.ofNat 32 rank), (4, word64 (recArg r) 0), (5, word64 (recArg r) 1)]
  { g := g.foldl (fun m (e : Nat × Word) => SMap.put 0 m e.1 e.2) []
    cticket := BitVec.ofNat 32 ticket
    paths := (List.replicate 8 ({} : Path)).set 0 { pc := recEntry r, st := .run, full := mask, exm := mask } }

/-- A block at dispatch: v0 holds the thread index, everything else zero (R147, R237, R437). -/
def newBlock (r : BitVec 2048) (launch idx cluster rank core ticket clk : Nat) : Block :=
  let nw := recNw r
  { launch, idx, cluster, rank, core, start := clk
    waves := (List.range nw).map fun w => newWave r idx w rank ticket
    v := (List.range nw).foldl (fun v w =>
      SMap.put zeroRow v (vRow nw (recB r) (recX r) w 0) ((List.range 32).map fun ln => BitVec.ofNat 32 (w * 32 + ln))) [] }

/-- Place one block on a core. -/
def State.placeBlock (s : State) (launch idx cluster rank core ticket : Nat) : State :=
  let s := s.prepareCore core launch
  let b := s.blocks.length
  let s := { s with blocks := s.blocks ++ [newBlock (s.launches.getD launch default).record launch idx cluster rank core ticket s.clk] }
  (s.wakeBanks b).bind b

/-- The token of the job with sequence number `seq` (R303, R373). -/
def State.jobToken (s : State) (l : Launch) (seq : Nat) : Option Nat × State :=
  match s.stageRead l.world (recSqia l.record) with
  | (.error f, s) => (none, s.logFault f none l.world (recSqia l.record))
  | (.ok q, s) =>
    match s.engRead l.world (q.base + seq % q.cap * 32 + 8) 4 with
    | (.ok bs, s) => (some (leNat bs), s)
    | (.error f, s) => (none, s.logFault f none l.world (recSqia l.record))

/-- Dispatch the next cluster of launch `l` to some cores, one for each rank (R369, R373). -/
def State.dispatch (s : State) (l : Nat) (cores : List Nat) : State :=
  let x : Launch := s.launches.getD l default
  let n := recCluster x.record
  let (ticket, s) := s.drawTicket x.world
  let cl := s.clusters.length
  let b := s.blocks.length
  let new : Cluster := { ticket, world := x.world, launch := l, ridge := cores.headD 0 / 8, members := (List.range n).map (b + ·) }
  let s : State := { s with clusters := s.clusters ++ [new] }
  let s := (List.range n).foldl (fun s r => s.placeBlock l (x.nextBlock + r) cl r (cores.getD r 0) ticket) s
  let s := s.modLaunch l fun y => { y with nextBlock := if recSV y.record then (y.nextBlock + 1) % 2 ^ 32 else y.nextBlock + n }
  if recSV x.record && recShade x.record then
    match s.jobToken x x.nextBlock with
    | (some t, s) => s.modWv b 0 fun v => { v with tokens := t :: v.tokens }
    | (none, s) => s
  else s

/-- The launches of a world in the order in which it dispatches them: by priority, then first in, first out (R368). -/
def State.readyOrder (s : State) (world : Nat) : List Nat :=
  let mine := (List.range s.launches.length).filter fun l => (s.launches.getD l default).world == world && (s.launches.getD l default).st == .ready
  sortBy (fun a b =>
    let x := s.launches.getD a default
    let y := s.launches.getD b default
    y.prio < x.prio || (x.prio == y.prio && x.order ≤ y.order)) mine

/-- Cores, one for each block of the launch's next cluster, on one open ridge of its world (R369). -/
def State.placement (s : State) (l : Launch) (cores : List Nat) : Bool :=
  let ridge := cores.headD 0 / 8
  cores.length == recCluster l.record && s.ridgeOpen l.world ridge &&
    cores.all fun c => (l.coresOf ridge).contains c && s.fits c l.world l.record (cores.filter (· == c)).length

/-- BLOCK_DISPATCH (R368, R369): the first launch of the world that can place its next cluster places it on the
cores that the choice of the CP names, where they meet the rules. -/
def execBlockDispatch (world : Nat) (cores : List Nat) (s : State) : Host.Outcome State Fault Refusal :=
  if s.restorePending world then .next s
  else
    match (s.readyOrder world).find? fun l => (s.openRidges world).any fun r => s.roomOn (s.launches.getD l default) r with
    | none => .next s
    | some l => .next (if s.placement (s.launches.getD l default) cores then s.dispatch l cores else s)

/-- BANK_WAKE_COMPLETE (R160). -/
def execBankWakeComplete (core bank : Nat) (s : State) : Host.Outcome State Fault Refusal :=
  let s := s.modCore core fun k => { k with waking := k.waking.filter (· != bank) }
  .next { s with blocks := s.blocks.map fun (k : Block) => if k.core = core then { k with waking := k.waking.filter (· != bank) } else k }

/-! ### Stage launches (R372–R374) -/

/-- HEAD advances over the longest run of retired jobs (R373). -/
def State.advanceHead (s : State) (l : Nat) : State :=
  let x := s.launches.getD l default
  let sqia := recSqia x.record
  match s.stageRead x.world sqia with
  | (.error f, s) => s.logFault f none x.world sqia
  | (.ok q, s) =>
    let (head, left) := (List.range (x.retiredJobs.length + 1)).foldl (fun (r : Nat × List Nat) _ =>
      if r.2.contains r.1 then ((r.1 + 1) % 2 ^ 32, r.2.filter (· != r.1)) else r) (q.head, x.retiredJobs)
    -- the CP reads CLOSED when the queue becomes empty (R372)
    let s := if head = q.tail then s.modLaunch l fun y => { y with closedSeen := q.closed, closedAt := s.clk } else s
    if head = q.head then s
    else
      match s.engWrite x.world (sqia + 12) (natBytes 4 head) with
      | (some f, s) => s.logFault f none x.world sqia
      | (none, s) => s.modLaunch l fun y => { y with retiredJobs := left }

/-- STAGE_CLOSED_POLL (R372): the CP reads CLOSED. -/
def execStageClosedPoll (l : Nat) (s : State) : Host.Outcome State Fault Refusal :=
  let x := s.launches.getD l default
  if x.st ≠ .ready || !recSV x.record then .next s
  else
    match s.stageRead x.world (recSqia x.record) with
    | (.ok q, s) => .next (s.modLaunch l fun y => { y with closedSeen := q.closed, closedAt := s.clk })
    | (.error f, s) => .next ((s.logFault f none x.world (recSqia x.record)).modLaunch l fun y => { y with closedAt := s.clk })

/-- Jobs of a stage launch that wait: TAIL − HEAD less those dispatched and not retired (R374). -/
def State.pendingJobs (s : State) (l : Launch) : Nat :=
  match (s.stageRead l.world (recSqia l.record)).1 with
  | .ok q => if q.ok then (q.tail + 2 ^ 32 - l.nextBlock) % 2 ^ 32 else 0
  | .error _ => 0

/-- A core of a ridge holds a block of a launch. -/
def State.coreHolds (s : State) (core l : Nat) : Bool := (s.blocksOn core).any fun b => (s.blk b).launch == l

/-- STAGE_CORE_DIVISION (R374): every 50 µs the ridge's cores are divided among the active stage launches of its world. The
window is the time since the last division. Which core a stage is given beyond what the rule says is not defined. -/
def execStageCoreDivision (ridge : Nat) (s : State) : Host.Outcome State Fault Refusal :=
  if s.clk < (s.ridge ridge).divided + 50 * cyclesPerUs then .next s
  else match (s.ridge ridge).world with
  | none => .next (s.modRidge ridge fun y => { y with divided := s.clk })
  | some w =>
    let all := (List.range 8).map (ridge * 8 + ·)
    let stages := (List.range s.launches.length).filter fun l =>
      let x := s.launches.getD l default
      x.world == w && x.st == .ready && recSV x.record
    let pend := stages.map fun l => (l, s.pendingJobs (s.launches.getD l default))
    let total := (pend.map Prod.snd).foldl (· + ·) 0
    -- cores that hold a block stay with its stage
    let kept (l : Nat) : List Nat := all.filter fun c => s.coreHolds c l
    let s1 := stages.foldl (fun s l => s.modLaunch l fun x => { x with cores := (x.cores.filter fun c => c / 8 ≠ ridge) ++ kept l }) s
    let free := all.filter fun c => !stages.any fun l => (kept l).contains c
    let give (s : State) (free : List Nat) (l : Nat) : List Nat × State :=
      let (c, s) := s.pick free
      (free.filter (· != c), s.modLaunch l fun x => { x with cores := x.cores ++ [c] })
    let own (s : State) (l : Nat) : Nat := ((s.launches.getD l default).cores.filter fun c => c / 8 == ridge).length
    let wants := pend.filter fun e => e.2 ≠ 0 && (s.launches.getD e.1 default).window1.all (· < (s.ridge ridge).divided)
    -- one core each while cores remain, then in proportion
    let step (quota : Nat × Nat → Nat) (r : List Nat × State) : List Nat × State :=
      wants.foldl (fun r e => (List.range 8).foldl (fun r _ => if r.1 ≠ [] ∧ own r.2 e.1 < quota e then give r.2 r.1 e.1 else r) r) r
    let (_, s2) := step (fun e => 8 * e.2 / max total 1) (step (fun _ => 1) (free, s1))
    .next (s2.modRidge ridge fun y => { y with divided := s.clk })

/-! ### The end of a block (R373, R446) -/

/-- The exit record of a block (R446). -/
def State.exitRecord (s : State) (b code : Nat) : Nat :=
  let k := s.blk b
  let l := s.launchOf b
  let sum (f : Wave → Nat) : Nat := (k.waves.map f).foldl (· + ·) 0 % 2 ^ 32
  let trap := (List.range k.waves.length).findSome? fun w => ((k.waves.getD w default).ended).map (w, ·)
  let t : Nat × EndRec := trap.getD (0, {})
  fieldsNat
    ((List.range 16).map (fun i => (512 + 32 * i, sum fun v => (v.stall.getD i 0).toNat)) ++
     [(448, l.va.toNat), (384, k.start % 2 ^ 64), (320, s.clk % 2 ^ 64), (256, t.2.va.toNat), (192, t.2.pc.toNat), (160, k.idx % 2 ^ 32),
      (128, sum fun v => v.mxskip.toNat), (120, t.2.code % 256), (112, t.2.sub % 256), (107, t.1 % 32), (104, t.2.path % 8),
      (96, k.core % 256), (56, code)])

/-- Append to a trace or exit ring (R444, R445). -/
def State.profAppend (s : State) (world hia size : Nat) (bs : List Byte) : State :=
  if hia = 0 then s
  else
    match s.ringAppend world hia 64 65536 4096 size (fun a => if iaRegion a = world then some a else none) fun _ => bs with
    | (.full, s) => s.ringDrop world hia
    | (_, s) => s

/-- A block ends: its exit record (R446), its job (R373), its attachment (R437). -/
def State.blockEnd (s : State) (b code : Nat) : State :=
  let k := s.blk b
  let l := s.launchOf b
  if k.endCode ≠ 0 then s
  else
    let bs := natBytes 128 (s.exitRecord b code)
    let s := s.modBlk b fun k => { k with endCode := code, attach := setFld k.attach 128 128 0 }
    let s := s.modLaunch k.launch fun x =>
      { x with ended := x.ended + 1, retiredJobs := if recSV x.record then k.idx :: x.retiredJobs else x.retiredJobs }
    let s := if recSV l.record && !l.cancelled then s.advanceHead k.launch else s
    let s := s.profAppend l.world (fld l.profile 127 64) 128 bs
    let s := if k.waves.any fun v => v.ended.isSome then
        let asid := recAsid l.record
        let va := recErrva l.record + 32
        (match s.cpRead asid [.load, .store] (va + 7) 1 with
         | (.ok [0], s) =>
           (match s.cpWrite asid [.load, .store] va bs with
            | (some f, s) => s.logFault f none l.world (l.va.toNat + va * 2 ^ 64)
            | (none, s) => s)
         | (.error f, s) => s.logFault f none l.world (l.va.toNat + va * 2 ^ 64)
         | (_, s) => s)
      else s
    let ended := (s.clusters.getD k.cluster {}).members.all fun m => (s.blk m).endCode ≠ 0
    if ended then s.modCluster k.cluster fun c => { c with live := false } else s

/-- What follows from a wave that is DONE: its tokens (R304), order places (R291), quorum (R242), and lock (R150); and
from the last wave of a block. -/
def State.settleWave (s : State) (b w : Nat) : State :=
  let v := s.wv b w
  if v.st ≠ .done then s
  else
    let s := (s.dropTokens b w).releasePlaces b w
    let zero := v.lc == 0 && v.sc == 0 && v.cc == 0 && v.mc == 0
    let s := if zero && SMap.get none (s.blk b).xlock (w / 2) == some w then s.unlock b (w / 2) else s
    let k := s.blk b
    if k.endCode = 0 ∧ (k.waves.all fun v => v.st == .done) then
      s.blockEnd b (if k.waves.any fun v => v.ended.isSome then 2 else 1)
    else s

/-- Every live wave of a block stops for good, its context discarded (R371, R416). -/
def State.discardBlock (s : State) (b code : Nat) : State :=
  let saved := match (s.blk b).st with | .saved _ => true | _ => false
  let ws := List.range (s.blk b).waves.length
  let s := ws.foldl (fun s w =>
    if (s.wv b w).st == .done then s
    else
      (s.modWv b w fun v =>
        { v with
          pendDebug := 0, pendDeliver := 0, ra := none, delivering := false, ringWait := []
          paths := v.paths.map fun x => if x.live then { x with st := .done, waitOn := .none, blocked := none, parkedAt := [] } else x }).waveEnd b w) s
  let s := if saved then
      -- its copies stopped with the save (R131): their batches complete now
      let s := (s.copiesOf b).foldl (fun s c => s.copyStop c.id (if code = 4 then 4 else 3) 0 0 0) s
      let s := ws.foldl (fun s w => (List.range ((s.wv b w).openBatches)).foldl (fun s _ =>
        s.finishBatch b w ((s.wv b w).openBatch - (s.wv b w).openBatches)) s) s
      s.modBlk b fun k => { k with st := .discarded }
    else s
  let s := s.blockEnd b code
  ws.foldl (fun s w => s.settleWave b w) s

/-- RESOURCE_RELEASE (R458): each resource of a block whose own condition holds is freed for new dispatches; what it held
stands until then (R155). With its last one its ridge may be lent (R419). -/
def execResourceRelease (b : Nat) (s : State) : Host.Outcome State Fault Refusal :=
  let k := s.blk b
  if k.st ≠ .resident || s.blocks.length ≤ b then .next s
  else
    let due (v : Wave) : Bool := v.ops.any fun o => o.ctr ≠ .sc
    let local_ (v : Wave) : Bool := v.ops.any fun o => match o.kind with | .storeLocal _ | .atomicLocal _ => true | _ => false
    let matrix (v : Wave) : Bool := v.ops.any fun o => o.ctr == .mc
    let s := s.modBlk b fun k => { k with waves := k.waves.map fun v => if v.st = .done ∧ !due v then { v with freed := true } else v }
    let k := s.blk b
    let cl := s.clusters.getD k.cluster {}
    let store := k.waves.all (fun v => v.st == .done && !local_ v && v.openBatches = 0) && cl.members.all fun m => (s.blk m).endCode ≠ 0
    let tile := k.waves.all fun v => v.st == .done && !matrix v
    let bars := k.waves.all Wave.freed
    let s := s.modBlk b fun k =>
      { k with
        freedStore := k.freedStore || store, freedTile := k.freedTile || tile, freedBars := k.freedBars || bars }
    .next (if (s.blk b).allFree ∧ (s.blk b).waves.all (fun v => v.ops = []) then
      (s.modBlk b fun k => { k with st := .retired }).donate (k.core / 8)
    else s)

end Sys2Proof.Machine
end

