-- ==== Sys2Proof/Machine/Float.lean ====
section
/-! DEFINITION. Floating-point and conversion instructions: the rules of
spec/10_float_instructions.md (R225–R235). -/

namespace Sys2Proof.Machine

open Sys2Proof

/-! ### Executions with flags -/

/-- A 32-bit result with flags in every executed lane (R198, R204, R205). -/
def fop (i : Info) (y g : Bool) (d : Field) (s : State) (f : Ctx → Nat → Res) :
    Host.Outcome State Fault Refusal :=
  issue i y s fun c s =>
    .done (c.raise ((c.execLanes g).foldl (fun x ln => x ||| (f c ln).2) 0)
      (c.writeD g d 1 (fun ln _ => BitVec.ofNat 32 (f c ln).1) s))

/-- A 64-bit result with flags in every executed lane. -/
def fop64 (i : Info) (y g : Bool) (d : Field) (s : State) (f : Ctx → Nat → Res) :
    Host.Outcome State Fault Refusal :=
  issue i y s fun c s =>
    .done (c.raise ((c.execLanes g).foldl (fun x ln => x ||| (f c ln).2) 0)
      (c.writeD g d 2 (fun ln j => word64 (BitVec.ofNat 64 (f c ln).1) j) s))

/-- A comparison of lane values into a mask, with flags (R232). -/
def fcmp (i : Info) (y : Bool) (d : Field) (s : State) (f : Ctx → Nat → Bool × Raised) :
    Host.Outcome State Fault Refusal :=
  issue i y s fun c s =>
    .done (c.raise ((c.execLanes false).foldl (fun x ln => x ||| (f c ln).2) 0)
      (c.writeG d.toNat (maskOf fun ln => c.active ln && (f c ln).1) s))

/-- The FP32 operand at a field, and the FP64 operand at a pair, read under FTZ (R195). -/
def Ctx.f32 (c : Ctx) (g : Bool) (f : Field) (ln : Nat) : FV :=
  Fmt.f32.value (Fmt.f32.operand c.ftz (c.opnd g f ln 0).toNat)
def Ctx.f64 (c : Ctx) (g : Bool) (f : Field) (ln : Nat) : FV :=
  Fmt.f64.value (Fmt.f64.operand c.ftz (c.opnd64 g f ln).toNat)

/-- a + b, or a − b. -/
def faddRes (f : Fmt) (c : Ctx) (a b : FV) : Res := fsumprod f c.rm c.ftz [] [a, b]

/-- ±(a × b) ± d rounded once (R228): `np` turns the product's sign, `nd` the addend's. -/
def fmaRes (f : Fmt) (c : Ctx) (np nd : Bool) (a b d : FV) : Res :=
  fsumprod f c.rm c.ftz [(if np then a.negate else a, b)] [if nd then d.negate else d]

/-- Half `h` of a packed register (R230). -/
def half (x : Word) (h : Nat) : Nat := x.toNat / 2 ^ (16 * h) % 65536
/-- Both halves computed and packed, their flags ORed together. -/
def halves (f : Nat → Res) : Res := ((f 0).1 + 65536 * (f 1).1, (f 0).2 ||| (f 1).2)

/-- A packed operation on operands a, b and d (R230). -/
def pack16 (i : Info) (y : Bool) (d a b : Field) (s : State) (fmt : Fmt) (f : Ctx → FV → FV → FV → Res) :
    Host.Outcome State Fault Refusal :=
  fop i y false d s fun c ln =>
    halves fun h => f c (fmt.value (half (c.opnd false a ln 0) h)) (fmt.value (half (c.opnd false b ln 0) h))
      (fmt.value (half (c.opnd false d ln 0) h))

/-- Packed minimum or maximum (R230). -/
def packMinmax (i : Info) (y : Bool) (d a b : Field) (s : State) (mx : Bool) :
    Host.Outcome State Fault Refusal :=
  fop i y false d s fun c ln =>
    halves fun h => fminmax .f16 false mx false (half (c.opnd false a ln 0) h) (half (c.opnd false b ln 0) h)

/-- Element `k` of a register, `w` bits wide. -/
def elem (w : Nat) (x : Word) (k : Nat) : Nat := x.toNat / 2 ^ (w * k) % 2 ^ w

/-- A floating dot product of `n` elements of width `w` (R231). -/
def dotF (i : Info) (y : Bool) (d a b : Field) (s : State) (fmt : Fmt) (n w : Nat) :
    Host.Outcome State Fault Refusal :=
  fop i y false d s fun c ln =>
    fsumprod .f32 c.rm c.ftz
      ((List.range n).map fun k => (fmt.value (elem w (c.opnd false a ln 0) k), fmt.value (elem w (c.opnd false b ln 0) k)))
      [c.f32 false d ln]

/-- An integer dot product of four bytes (R231). -/
def dotI (i : Info) (y : Bool) (d a b : Field) (s : State) (byte : Nat → Int) :
    Host.Outcome State Fault Refusal :=
  alu i y false d s fun c ln =>
    c.opnd false d ln 0 + BitVec.ofInt 32 ((List.range 4).foldl (fun x k =>
      x + byte (elem 8 (c.opnd false a ln 0) k) * byte (elem 8 (c.opnd false b ln 0) k)) 0)

/-- Two FP32 values rounded into packed halves (R231). -/
def packCvt (i : Info) (y : Bool) (d a b : Field) (s : State) (fmt : Fmt) :
    Host.Outcome State Fault Refusal :=
  fop i y false d s fun c ln => halves fun h => fmt.encode c.rm false (c.f32 false (if h = 0 then a else b) ln)

/-- FEQ and FNE raise NV for a signalling NaN, FLT and FLE for any (R232, R197). -/
def cmpFlags (anyNan : Bool) (a b : FV) : Raised :=
  Raised.when (if anyNan then a.isNan || b.isNan else a.isSnan || b.isSnan) fNV
def feqV (a b : FV) : Bool × Raised := (a.eq b, cmpFlags false a b)
def fneV (a b : FV) : Bool × Raised := (!a.eq b, cmpFlags false a b)
def fltV (a b : FV) : Bool × Raised := (!a.isNan && !b.isNan && a.lt b, cmpFlags true a b)
def fleV (a b : FV) : Bool × Raised := (!a.isNan && !b.isNan && !b.lt a, cmpFlags true a b)
def funV (a b : FV) : Bool × Raised := (a.isNan || b.isNan, cmpFlags false a b)

/-- An SFU function (R233). -/
def sfuOp (i : Info) (y g : Bool) (d a : Field) (s : State) (f : RMode → Bool → Nat → Res) :
    Host.Outcome State Fault Refusal :=
  fop i y g d s fun c ln => f c.rm c.ftz (c.opnd g a ln 0).toNat

/-- A float encoded from a value under the immediate's mode and SAT (R226, R234). -/
def cvtRes (f : Fmt) (c : Ctx) (m : BitVec 3) (sat : BitVec 1) (x : FV) : Res :=
  f.flush c.ftz (f.encode (rmode m.toNat c.wv.fctrl) (sat == 1) x)
/-- An integer of a value under the immediate's mode (R193, R234). -/
def cvtInt (c : Ctx) (m : BitVec 3) (lo hi : Int) (x : FV) : Res :=
  let r := toInteger (rmode m.toNat c.wv.fctrl) lo hi x
  ((r.1 % 2 ^ 32).toNat, r.2)

/-- CVTB: four FP32 registers packed into w-bit elements (R235). -/
def cvtb (i : Info) (y : Bool) (d a : Field) (sat : BitVec 1) (m : BitVec 3) (s : State) (f : Fmt) :
    Host.Outcome State Fault Refusal :=
  fop i y false d s fun c ln =>
    let r (k : Nat) := f.encode (rmode m.toNat c.wv.fctrl) (sat == 1) (Fmt.f32.value (c.src a ln k).toNat)
    ((List.range 4).foldl (fun x k => x + (r k).1 * 2 ^ (f.width * k)) 0,
      (List.range 4).foldl (fun x k => x ||| (r k).2) 0)

/-- XCVT: element `k` decoded exactly into a target format (R235). -/
def xcvtElem (f t : Fmt) (x : Word) (k : Nat) : Res :=
  t.encode .rne false (f.value (elem f.width x k))
/-- XCVT: four FP32 registers, or two registers of packed halves (R235). -/
def xcvt (i : Info) (y : Bool) (d a : Field) (fmt : BitVec 2) (s : State) (f : Fmt) :
    Host.Outcome State Fault Refusal :=
  issue i y s fun c s =>
    let t : Fmt := if fmt = 0 then .f32 else if fmt = 1 then .f16 else .bf16
    let flags := (c.execLanes false).foldl (fun x ln =>
      (List.range 4).foldl (fun x k => x ||| (xcvtElem f t (c.src a ln 0) k).2) x) 0
    .done (c.raise flags (c.writeV d.toNat (if fmt = 0 then 4 else 2) (fun ln j =>
      BitVec.ofNat 32 (if fmt = 0 then (xcvtElem f t (c.src a ln 0) j).1
        else (xcvtElem f t (c.src a ln 0) (2 * j)).1 + 65536 * (xcvtElem f t (c.src a ln 0) (2 * j + 1)).1)) s))

/-! ### Meanings -/

/-- R227. -/
def execFadd (y g : Bool) (d a b : Field) (s : State) : Host.Outcome State Fault Refusal :=
  fop (info (.fadd y g d a b)) y g d s fun c ln => faddRes .f32 c (c.f32 g a ln) (c.f32 g b ln)

/-- R227. -/
def execFsub (y g : Bool) (d a b : Field) (s : State) : Host.Outcome State Fault Refusal :=
  fop (info (.fsub y g d a b)) y g d s fun c ln => faddRes .f32 c (c.f32 g a ln) (c.f32 g b ln).negate

/-- R227. -/
def execFmul (y g : Bool) (d a b : Field) (s : State) : Host.Outcome State Fault Refusal :=
  fop (info (.fmul y g d a b)) y g d s fun c ln => fmulRes .f32 c.rm c.ftz (c.f32 g a ln) (c.f32 g b ln)

/-- R227. -/
def execFmin (y g : Bool) (d a b : Field) (s : State) : Host.Outcome State Fault Refusal :=
  fop (info (.fmin y g d a b)) y g d s fun c ln => fminmax .f32 c.ftz false false (c.opnd g a ln 0).toNat (c.opnd g b ln 0).toNat

/-- R227. -/
def execFmax (y g : Bool) (d a b : Field) (s : State) : Host.Outcome State Fault Refusal :=
  fop (info (.fmax y g d a b)) y g d s fun c ln => fminmax .f32 c.ftz true false (c.opnd g a ln 0).toNat (c.opnd g b ln 0).toNat

/-- R227. -/
def execFminn (y g : Bool) (d a b : Field) (s : State) : Host.Outcome State Fault Refusal :=
  fop (info (.fminn y g d a b)) y g d s fun c ln => fminmax .f32 c.ftz false true (c.opnd g a ln 0).toNat (c.opnd g b ln 0).toNat

/-- R227. -/
def execFmaxn (y g : Bool) (d a b : Field) (s : State) : Host.Outcome State Fault Refusal :=
  fop (info (.fmaxn y g d a b)) y g d s fun c ln => fminmax .f32 c.ftz true true (c.opnd g a ln 0).toNat (c.opnd g b ln 0).toNat

/-- R227. -/
def execFcopysign (y g : Bool) (d a b : Field) (s : State) : Host.Outcome State Fault Refusal :=
  alu2 (info (.fcopysign y g d a b)) y g d a b s copysign

/-- R228. -/
def execFma (y : Bool) (d a b : Field) (s : State) : Host.Outcome State Fault Refusal :=
  fop (info (.fma y d a b)) y false d s fun c ln => fmaRes .f32 c false false (c.f32 false a ln) (c.f32 false b ln) (c.f32 false d ln)

/-- R228. -/
def execFms (y : Bool) (d a b : Field) (s : State) : Host.Outcome State Fault Refusal :=
  fop (info (.fms y d a b)) y false d s fun c ln => fmaRes .f32 c false true (c.f32 false a ln) (c.f32 false b ln) (c.f32 false d ln)

/-- R228. -/
def execFnma (y : Bool) (d a b : Field) (s : State) : Host.Outcome State Fault Refusal :=
  fop (info (.fnma y d a b)) y false d s fun c ln => fmaRes .f32 c true false (c.f32 false a ln) (c.f32 false b ln) (c.f32 false d ln)

/-- R228. -/
def execFnms (y : Bool) (d a b : Field) (s : State) : Host.Outcome State Fault Refusal :=
  fop (info (.fnms y d a b)) y false d s fun c ln => fmaRes .f32 c true true (c.f32 false a ln) (c.f32 false b ln) (c.f32 false d ln)

/-- R228. -/
def execFmaF64 (y : Bool) (d a b : Field) (s : State) : Host.Outcome State Fault Refusal :=
  fop64 (info (.fmaF64 y d a b)) y false d s fun c ln => fmaRes .f64 c false false (c.f64 false a ln) (c.f64 false b ln) (c.f64 false d ln)

/-- R228. -/
def execFmsF64 (y : Bool) (d a b : Field) (s : State) : Host.Outcome State Fault Refusal :=
  fop64 (info (.fmsF64 y d a b)) y false d s fun c ln => fmaRes .f64 c false true (c.f64 false a ln) (c.f64 false b ln) (c.f64 false d ln)

/-- R228. -/
def execFnmaF64 (y : Bool) (d a b : Field) (s : State) : Host.Outcome State Fault Refusal :=
  fop64 (info (.fnmaF64 y d a b)) y false d s fun c ln => fmaRes .f64 c true false (c.f64 false a ln) (c.f64 false b ln) (c.f64 false d ln)

/-- R228. -/
def execFnmsF64 (y : Bool) (d a b : Field) (s : State) : Host.Outcome State Fault Refusal :=
  fop64 (info (.fnmsF64 y d a b)) y false d s fun c ln => fmaRes .f64 c true true (c.f64 false a ln) (c.f64 false b ln) (c.f64 false d ln)

/-- R230. -/
def execHadd2F16 (y : Bool) (d a b : Field) (s : State) : Host.Outcome State Fault Refusal :=
  pack16 (info (.hadd2F16 y d a b)) y d a b s .f16 fun c a b _ => fsumprod .f16 c.rm false [] [a, b]

/-- R230. -/
def execHmul2F16 (y : Bool) (d a b : Field) (s : State) : Host.Outcome State Fault Refusal :=
  pack16 (info (.hmul2F16 y d a b)) y d a b s .f16 fun c a b _ => fmulRes .f16 c.rm false a b

/-- R230. -/
def execHfma2F16 (y : Bool) (d a b : Field) (s : State) : Host.Outcome State Fault Refusal :=
  pack16 (info (.hfma2F16 y d a b)) y d a b s .f16 fun c a b d => fsumprod .f16 c.rm false [(a, b)] [d]

/-- R230. -/
def execHadd2Bf16 (y : Bool) (d a b : Field) (s : State) : Host.Outcome State Fault Refusal :=
  pack16 (info (.hadd2Bf16 y d a b)) y d a b s .bf16 fun c a b _ => fsumprod .bf16 c.rm false [] [a, b]

/-- R230. -/
def execHmul2Bf16 (y : Bool) (d a b : Field) (s : State) : Host.Outcome State Fault Refusal :=
  pack16 (info (.hmul2Bf16 y d a b)) y d a b s .bf16 fun c a b _ => fmulRes .bf16 c.rm false a b

/-- R230. -/
def execHfma2Bf16 (y : Bool) (d a b : Field) (s : State) : Host.Outcome State Fault Refusal :=
  pack16 (info (.hfma2Bf16 y d a b)) y d a b s .bf16 fun c a b d => fsumprod .bf16 c.rm false [(a, b)] [d]

/-- R230. -/
def execHmin2F16 (y : Bool) (d a b : Field) (s : State) : Host.Outcome State Fault Refusal :=
  packMinmax (info (.hmin2F16 y d a b)) y d a b s false

/-- R230. -/
def execHmax2F16 (y : Bool) (d a b : Field) (s : State) : Host.Outcome State Fault Refusal :=
  packMinmax (info (.hmax2F16 y d a b)) y d a b s true

/-- R232. -/
def execFeq (y : Bool) (d a b : Field) (s : State) : Host.Outcome State Fault Refusal :=
  fcmp (info (.feq y d a b)) y d s fun c ln => feqV (c.f32 false a ln) (c.f32 false b ln)

/-- R232. -/
def execFne (y : Bool) (d a b : Field) (s : State) : Host.Outcome State Fault Refusal :=
  fcmp (info (.fne y d a b)) y d s fun c ln => fneV (c.f32 false a ln) (c.f32 false b ln)

/-- R232. -/
def execFlt (y : Bool) (d a b : Field) (s : State) : Host.Outcome State Fault Refusal :=
  fcmp (info (.flt y d a b)) y d s fun c ln => fltV (c.f32 false a ln) (c.f32 false b ln)

/-- R232. -/
def execFle (y : Bool) (d a b : Field) (s : State) : Host.Outcome State Fault Refusal :=
  fcmp (info (.fle y d a b)) y d s fun c ln => fleV (c.f32 false a ln) (c.f32 false b ln)

/-- R232. -/
def execFun (y : Bool) (d a b : Field) (s : State) : Host.Outcome State Fault Refusal :=
  fcmp (info (.fun y d a b)) y d s fun c ln => funV (c.f32 false a ln) (c.f32 false b ln)

/-- R232. -/
def execFeqF64 (y : Bool) (d a b : Field) (s : State) : Host.Outcome State Fault Refusal :=
  fcmp (info (.feqF64 y d a b)) y d s fun c ln => feqV (c.f64 false a ln) (c.f64 false b ln)

/-- R232. -/
def execFltF64 (y : Bool) (d a b : Field) (s : State) : Host.Outcome State Fault Refusal :=
  fcmp (info (.fltF64 y d a b)) y d s fun c ln => fltV (c.f64 false a ln) (c.f64 false b ln)

/-- R232. -/
def execFleF64 (y : Bool) (d a b : Field) (s : State) : Host.Outcome State Fault Refusal :=
  fcmp (info (.fleF64 y d a b)) y d s fun c ln => fleV (c.f64 false a ln) (c.f64 false b ln)

/-- R233. -/
def execRcp (y g : Bool) (d a : Field) (s : State) : Host.Outcome State Fault Refusal :=
  sfuOp (info (.rcp y g d a)) y g d a s rcpRes

/-- R233. -/
def execRsq (y g : Bool) (d a : Field) (s : State) : Host.Outcome State Fault Refusal :=
  sfuOp (info (.rsq y g d a)) y g d a s rsqRes

/-- R233. -/
def execSqrt (y g : Bool) (d a : Field) (s : State) : Host.Outcome State Fault Refusal :=
  sfuOp (info (.sqrt y g d a)) y g d a s sqrtRes

/-- R233. -/
def execExp2 (y g : Bool) (d a : Field) (s : State) : Host.Outcome State Fault Refusal :=
  sfuOp (info (.exp2 y g d a)) y g d a s exp2Res

/-- R233. -/
def execLog2 (y g : Bool) (d a : Field) (s : State) : Host.Outcome State Fault Refusal :=
  sfuOp (info (.log2 y g d a)) y g d a s log2Res

/-- R233. -/
def execSinpi (y g : Bool) (d a : Field) (s : State) : Host.Outcome State Fault Refusal :=
  sfuOp (info (.sinpi y g d a)) y g d a s sinpiRes

/-- R233. -/
def execCospi (y g : Bool) (d a : Field) (s : State) : Host.Outcome State Fault Refusal :=
  sfuOp (info (.cospi y g d a)) y g d a s cospiRes

/-- R233. -/
def execTanh (y g : Bool) (d a : Field) (s : State) : Host.Outcome State Fault Refusal :=
  sfuOp (info (.tanh y g d a)) y g d a s tanhRes

/-- R234. -/
def execCvtF32S32 (y g : Bool) (d a : Field) (sat : BitVec 1) (m : BitVec 3) (s : State) : Host.Outcome State Fault Refusal :=
  fop (info (.cvtF32S32 y g d a sat m)) y g d s fun c ln => cvtRes .f32 c m sat (ofInteger (c.opnd g a ln 0).toInt)

/-- R234. -/
def execCvtF32N32 (y g : Bool) (d a : Field) (sat : BitVec 1) (m : BitVec 3) (s : State) : Host.Outcome State Fault Refusal :=
  fop (info (.cvtF32N32 y g d a sat m)) y g d s fun c ln => cvtRes .f32 c m sat (ofInteger (c.opnd g a ln 0).toNat)

/-- R234. -/
def execCvtS32F32 (y g : Bool) (d a : Field) (sat : BitVec 1) (m : BitVec 3) (s : State) : Host.Outcome State Fault Refusal :=
  fop (info (.cvtS32F32 y g d a sat m)) y g d s fun c ln => cvtInt c m (-2 ^ 31) (2 ^ 31 - 1) (c.f32 g a ln)

/-- R234. -/
def execCvtN32F32 (y g : Bool) (d a : Field) (sat : BitVec 1) (m : BitVec 3) (s : State) : Host.Outcome State Fault Refusal :=
  fop (info (.cvtN32F32 y g d a sat m)) y g d s fun c ln => cvtInt c m 0 (2 ^ 32 - 1) (c.f32 g a ln)

/-- R234. -/
def execCvtF64F32 (y g : Bool) (d a : Field) (sat : BitVec 1) (m : BitVec 3) (s : State) : Host.Outcome State Fault Refusal :=
  fop64 (info (.cvtF64F32 y g d a sat m)) y g d s fun c ln => cvtRes .f64 c m sat (c.f32 g a ln)

/-- R234. -/
def execCvtF32F64 (y g : Bool) (d a : Field) (sat : BitVec 1) (m : BitVec 3) (s : State) : Host.Outcome State Fault Refusal :=
  fop (info (.cvtF32F64 y g d a sat m)) y g d s fun c ln => cvtRes .f32 c m sat (c.f64 g a ln)

/-- R234. -/
def execCvtF64S32 (y g : Bool) (d a : Field) (sat : BitVec 1) (m : BitVec 3) (s : State) : Host.Outcome State Fault Refusal :=
  fop64 (info (.cvtF64S32 y g d a sat m)) y g d s fun c ln => cvtRes .f64 c m sat (ofInteger (c.opnd g a ln 0).toInt)

/-- R234. -/
def execCvtS32F64 (y g : Bool) (d a : Field) (sat : BitVec 1) (m : BitVec 3) (s : State) : Host.Outcome State Fault Refusal :=
  fop (info (.cvtS32F64 y g d a sat m)) y g d s fun c ln => cvtInt c m (-2 ^ 31) (2 ^ 31 - 1) (c.f64 g a ln)

/-- R229. -/
def execFaddF64 (y : Bool) (d a b : Field) (s : State) : Host.Outcome State Fault Refusal :=
  fop64 (info (.faddF64 y d a b)) y false d s fun c ln => faddRes .f64 c (c.f64 false a ln) (c.f64 false b ln)

/-- R229. -/
def execFsubF64 (y : Bool) (d a b : Field) (s : State) : Host.Outcome State Fault Refusal :=
  fop64 (info (.fsubF64 y d a b)) y false d s fun c ln => faddRes .f64 c (c.f64 false a ln) (c.f64 false b ln).negate

/-- R229. -/
def execFmulF64 (y : Bool) (d a b : Field) (s : State) : Host.Outcome State Fault Refusal :=
  fop64 (info (.fmulF64 y d a b)) y false d s fun c ln => fmulRes .f64 c.rm c.ftz (c.f64 false a ln) (c.f64 false b ln)

/-- R229. -/
def execFminF64 (y : Bool) (d a b : Field) (s : State) : Host.Outcome State Fault Refusal :=
  fop64 (info (.fminF64 y d a b)) y false d s fun c ln => fminmax .f64 c.ftz false false (c.opnd64 false a ln).toNat (c.opnd64 false b ln).toNat

/-- R229. -/
def execFmaxF64 (y : Bool) (d a b : Field) (s : State) : Host.Outcome State Fault Refusal :=
  fop64 (info (.fmaxF64 y d a b)) y false d s fun c ln => fminmax .f64 c.ftz true false (c.opnd64 false a ln).toNat (c.opnd64 false b ln).toNat

/-- R229. -/
def execFrndF32 (y : Bool) (d a : Field) (m : BitVec 3) (s : State) : Host.Outcome State Fault Refusal :=
  fop (info (.frndF32 y d a m)) y false d s fun c ln => roundIntegral .f32 (rmode m.toNat c.wv.fctrl) c.ftz (c.opnd false a ln 0).toNat

/-- R229. -/
def execFrndF64 (y : Bool) (d a : Field) (m : BitVec 3) (s : State) : Host.Outcome State Fault Refusal :=
  fop64 (info (.frndF64 y d a m)) y false d s fun c ln => roundIntegral .f64 (rmode m.toNat c.wv.fctrl) c.ftz (c.opnd64 false a ln).toNat

/-- R231. -/
def execPackF16 (y : Bool) (d a b : Field) (s : State) : Host.Outcome State Fault Refusal :=
  packCvt (info (.packF16 y d a b)) y d a b s .f16

/-- R231. -/
def execPackBf16 (y : Bool) (d a b : Field) (s : State) : Host.Outcome State Fault Refusal :=
  packCvt (info (.packBf16 y d a b)) y d a b s .bf16

/-- R231. -/
def execDot2F16 (y : Bool) (d a b : Field) (s : State) : Host.Outcome State Fault Refusal :=
  dotF (info (.dot2F16 y d a b)) y d a b s .f16 2 16

/-- R231. -/
def execDot2Bf16 (y : Bool) (d a b : Field) (s : State) : Host.Outcome State Fault Refusal :=
  dotF (info (.dot2Bf16 y d a b)) y d a b s .bf16 2 16

/-- R231. -/
def execDot4E4m3 (y : Bool) (d a b : Field) (s : State) : Host.Outcome State Fault Refusal :=
  dotF (info (.dot4E4m3 y d a b)) y d a b s .e4m3 4 8

/-- R231. -/
def execDot4E5m2 (y : Bool) (d a b : Field) (s : State) : Host.Outcome State Fault Refusal :=
  dotF (info (.dot4E5m2 y d a b)) y d a b s .e5m2 4 8

/-- R231. -/
def execDot4S8 (y : Bool) (d a b : Field) (s : State) : Host.Outcome State Fault Refusal :=
  dotI (info (.dot4S8 y d a b)) y d a b s fun x => if 128 ≤ x then (x : Int) - 256 else x

/-- R231. -/
def execDot4Z8 (y : Bool) (d a b : Field) (s : State) : Host.Outcome State Fault Refusal :=
  dotI (info (.dot4Z8 y d a b)) y d a b s fun x => x

/-- R235. -/
def execCvtbE4m3 (y : Bool) (d a : Field) (sat : BitVec 1) (m : BitVec 3) (s : State) : Host.Outcome State Fault Refusal :=
  cvtb (info (.cvtbE4m3 y d a sat m)) y d a sat m s .e4m3

/-- R235. -/
def execCvtbE5m2 (y : Bool) (d a : Field) (sat : BitVec 1) (m : BitVec 3) (s : State) : Host.Outcome State Fault Refusal :=
  cvtb (info (.cvtbE5m2 y d a sat m)) y d a sat m s .e5m2

/-- R235. -/
def execCvtbE2m3 (y : Bool) (d a : Field) (sat : BitVec 1) (m : BitVec 3) (s : State) : Host.Outcome State Fault Refusal :=
  cvtb (info (.cvtbE2m3 y d a sat m)) y d a sat m s .e2m3

/-- R235. -/
def execCvtbE3m2 (y : Bool) (d a : Field) (sat : BitVec 1) (m : BitVec 3) (s : State) : Host.Outcome State Fault Refusal :=
  cvtb (info (.cvtbE3m2 y d a sat m)) y d a sat m s .e3m2

/-- R235. -/
def execCvtbE2m1 (y : Bool) (d a : Field) (sat : BitVec 1) (m : BitVec 3) (s : State) : Host.Outcome State Fault Refusal :=
  cvtb (info (.cvtbE2m1 y d a sat m)) y d a sat m s .e2m1

/-- R235. -/
def execXcvtE4m3 (y : Bool) (d a : Field) (f : BitVec 2) (s : State) : Host.Outcome State Fault Refusal :=
  xcvt (info (.xcvtE4m3 y d a f)) y d a f s .e4m3

/-- R235. -/
def execXcvtE5m2 (y : Bool) (d a : Field) (f : BitVec 2) (s : State) : Host.Outcome State Fault Refusal :=
  xcvt (info (.xcvtE5m2 y d a f)) y d a f s .e5m2

/-- R235. -/
def execXcvtE2m1 (y : Bool) (d a : Field) (f : BitVec 2) (s : State) : Host.Outcome State Fault Refusal :=
  xcvt (info (.xcvtE2m1 y d a f)) y d a f s .e2m1

end Sys2Proof.Machine
end

