-- ==== Sys2Proof/Machine/Local.lean ====
section
/-! DEFINITION. Local accesses: the local address space (R151), the register window (R152), the cluster window
(R154), the debug window (R436–R438), the profiling control (R444), and LDL, STL and ATOML (R178, R179). -/

namespace Sys2Proof.Machine

open Sys2Proof

/-! ### The local address space (R151) -/

/-- What a local address names. -/
inductive LTgt where
  | own (off : Nat)
  /-- wave, register, lane, byte of the word -/
  | reg (w n ln byte : Nat)
  | cluster (rank off : Nat)
  | debug (off : Nat)
deriving DecidableEq, Repr, Inhabited

/-- The block that a block's attachment names (R437): its number, from its dispatch until it retires. -/
def State.target (s : State) (b : Nat) : Option Nat :=
  let a := (s.blk b).attach
  if !atHeld a then none
  else (List.range s.blocks.length).find? fun t =>
    (s.launchOf t).world == (s.launchOf b).world && (s.launchOf t).va.toNat == atLaunch a && (s.blk t).idx == atBlock a &&
      (s.blk t).endCode == 0 && (s.blk t).st != .discarded && (s.blk t).st != .retired

/-- The launch that an attachment names, if it holds: the latest that was accepted at its VA. -/
def State.attached (s : State) (b : Nat) : Option Nat :=
  let a := (s.blk b).attach
  if !atHeld a then none
  else (List.range s.launches.length).reverse.find? fun l =>
    let x := s.launches.getD l default
    x.world == (s.launchOf b).world && x.va.toNat == atLaunch a && (match x.st with | .refused _ => false | _ => true)

/-- Size of the view of the attached block: of the block as it stands, or of a block of its launch; nothing is in
view without an attachment (R436). -/
def State.viewSize (s : State) (b : Nat) : Nat :=
  match s.target b, s.attached b with
  | some t, _ => s.saveSize t
  | none, some l => (layoutOf (s.launches.getD l default).record).d
  | none, none => 0

/-- A debug-window offset is inside its ranges (R436). -/
def State.debugIn (s : State) (b off : Nat) : Bool :=
  if off < 0x4000000 then off < s.viewSize b
  else if off < 0x4010000 then off - 0x4000000 < 0x80 * 128 && off % 0x80 < 72
  else if off < 0x4020000 then off - 0x4010000 < 0x80 * 128 && off % 0x80 < 88
  else if off < 0x4040000 then
    let u := (off - 0x4020000) / 8
    u < 12 || (16 ≤ u && u ≤ 32)
  else if off < 0x8000000 then off < 0x4040040
  else off < 0x8000000 + 16 * 8388608

/-- Resolve a local address for an access of `n` bytes: `none` is RANGE (R151). -/
def Ctx.localAt (c : Ctx) (s : State) (la n : Nat) (atom : Bool) : Option LTgt :=
  if la < 0x100000 then (if la + n ≤ c.sb then some (.own la) else none)
  else if 0x10000000 ≤ la && la < 0x10080000 then
    let o := la - 0x10000000
    if atom || c.nw ≤ o / 2 ^ 14 || c.B + c.X ≤ o / 2 ^ 7 % 128 then none else some (.reg (o / 2 ^ 14) (o / 2 ^ 7 % 128) (o / 4 % 32) (o % 4))
  else if 0x40000000 ≤ la && la < 0x41000000 then
    let o := la - 0x40000000
    if recCluster c.lr ≤ o / 2 ^ 20 || c.sb < o % 2 ^ 20 + n then none else some (.cluster (o / 2 ^ 20) (o % 2 ^ 20))
  else if 0x60000000 ≤ la && la < 0x70000000 then
    if atom || !c.smode || !(List.range n).all (fun i => s.debugIn c.b (la - 0x60000000 + i)) then none else some (.debug (la - 0x60000000))
  else none

/-! ### The debug window (R436–R438) -/

/-- A tag entry as the debugger sees it (R298). -/
def tagBits (i : Nat) (t : Tag) : Nat :=
  let st := match t.st with | .inflight => 1 | .valid => 2 | .aborted => 3
  let _ := i
  fieldsNat [(0, t.pin % 4), (2, t.fmt), (3, t.slot), (27, t.share), (35, t.epoch), (51, t.age % 256), (59, st), (61, t.key / 2 ^ 21)]

/-- Word at an aligned offset of the debug window. -/
def State.debugWord (s : State) (b off : Nat) : Word :=
  let world := (s.launchOf b).world
  let half (x : Nat) : Word := wordAt x (off / 4 % 2)
  if off < 0x4000000 then
    (match s.target b with
     | some t => s.saveWord t off
     | none => 0)
  else if off < 0x4010000 then half (SMap.get 0 (s.world world).l2cnt ((off - 0x4000000) / 0x80 * 16 + off % 0x80 / 8))
  else if off < 0x4020000 then half (SMap.get 0 (s.world world).tagcnt ((off - 0x4010000) / 0x80 * 16 + off % 0x80 / 8))
  else if off < 0x4040000 then half (SMap.get 0 (s.world world).waitcnt ((off - 0x4020000) / 8))
  else if off < 0x4040020 then wordAt (s.blk b).attach.toNat ((off - 0x4040000) / 4)
  else if off < 0x4040040 then
    (match s.attached b with
     | some l => wordAt (s.launches.getD l default).profile.toNat ((off - 0x4040020) / 4)
     | none => 0)
  else
    let i := (off - 0x8000000) / 16
    match s.shade.tag i with
    | some t =>
      (match (s.object world (t.key % 2 ^ 24)).1 with
       | some o => if s.mayRead world o then wordAt (tagBits i t) (off % 16 / 4) else 0
       | none => 0)
    | none => 0

/-- Bytes of the debug window. -/
def State.debugBytes (s : State) (b off n : Nat) : List Byte :=
  (List.range n).map fun i => (s.debugWord b ((off + i) / 4 * 4)).extractLsb' (8 * ((off + i) % 4)) 8

/-- An attachment to a launch of its world at a VA would hold (R437). -/
def attachable (world va : Nat) (l : Launch) : Bool :=
  va ≠ 0 && l.world == world && l.va.toNat == va && (match l.st with | .pending | .ready => true | _ => false)

/-- An STL.128 to bytes 0–15 of the attachment record (R437). The reserved field takes nothing and reads as zero; a non-zero
value written there has no other effect (R5, notes/assumptions/67.md). -/
def State.attachTo (s : State) (b : Nat) (data : Nat) : State :=
  let world := (s.launchOf b).world
  let va := data % 2 ^ 64
  let ok := s.launches.any (attachable world va)
  s.modBlk b fun k =>
    { k with attach := setFld (setFld (setFld (setFld (setFld k.attach 63 0 va) 95 64 0) 127 96 (data / 2 ^ 96)) 128 128 ok.toNat) 131 129 0 }

/-- Offset of the profiling control in the debug window. -/
def profOff : Nat := 0x4040020

/-- The profiling control with `bs` written at byte `o` of it. -/
def profPut (p : BitVec 256) (o : Nat) (bs : List Byte) : BitVec 256 :=
  bs.zipIdx.foldl (fun p e => setFld p (8 * (o + e.2) + 7) (8 * (o + e.2)) e.1.toNat) p

/-- A valid profiling control of a world (R444). -/
def profOk (world : Nat) (p : BitVec 256) : Bool :=
  let period := fld p 159 128
  let ring (x : Nat) : Bool := x == 0 || (x % 64 == 0 && x < 2 ^ 52 && iaRegion x == world)
  fld p 255 161 == 0 && (period == 0 || 1024 ≤ period) && ring (fld p 63 0) && ring (fld p 127 64)

/-- A store into the debug window: the attachment record and the profiling control as wholes, the block view word
by word; a write of a read-only word is ignored. -/
def State.debugStore (s : State) (b off : Nat) (bs : List Byte) : State :=
  if off < 0x4000000 then
    match s.target b with
    | none => s
    | some t =>
      ((List.range bs.length).map (fun i => (off + i) / 4 * 4)).dedup.foldl (fun s w =>
        let old := s.saveWord t w
        let x := (List.range 4).foldl (fun (x : Word) i =>
          if off ≤ w + i ∧ w + i < off + bs.length then
            setFld x (8 * i + 7) (8 * i) (bs.getD (w + i - off) 0).toNat
          else x) old
        s.saveWrite t w x) s
  else if off = 0x4040000 ∧ bs.length = 16 then s.attachTo b (leNat bs)
  else if profOff ≤ off ∧ off < profOff + 32 then
    match s.attached b with
    | some l => s.modLaunch l fun x => { x with profile := profPut x.profile (off - profOff) bs }
    | none => s
  else s

/-! ### Performing a lane -/

/-- Read the bytes at a local target. -/
def State.localRead (s : State) (b : Nat) (t : LTgt) (n : Nat) : List Byte :=
  let k := s.blk b
  let r := (s.launchOf b).record
  match t with
  | .own off => k.sRead off n
  | .cluster rank off => (s.blk ((s.clusters.getD k.cluster {}).members.getD rank 0)).sRead off n
  | .reg w reg ln byte =>
    if (k.waves.getD w default).st = .done then List.replicate n 0
    else (List.range n).map fun i =>
      (rowGet k.v (vRow (recNw r) (recB r) (recX r) w reg) (ln + (byte + i) / 4)).extractLsb' (8 * ((byte + i) % 4)) 8
  | .debug off => s.debugBytes b off n

/-- Write bytes at a local target. -/
def State.localWrite (s : State) (b : Nat) (t : LTgt) (bs : List Byte) : State :=
  let k := s.blk b
  let r := (s.launchOf b).record
  match t with
  | .own off => s.modBlk b fun k => k.sWrite off bs
  | .cluster rank off => s.modBlk ((s.clusters.getD k.cluster {}).members.getD rank 0) fun k => k.sWrite off bs
  | .reg w reg ln byte =>
    if (k.waves.getD w default).st = .done then s
    else
      let row := vRow (recNw r) (recB r) (recX r) w reg
      s.modBlk b fun k => { k with v := bs.zipIdx.foldl (fun v e =>
        let p := byte + e.2
        rowPut v row (· == ln + p / 4) (fun l => setFld (rowGet v row l) (8 * (p % 4) + 7) (8 * (p % 4)) e.1.toNat)) k.v }
  | .debug off => s.debugStore b off bs

/-- The lane is an STL of the attachment record, or of the profiling control: their own events perform it. -/
def LaneOp.attachLane (o : LaneOp) (k : OpKind) : Bool := k == .storeLocal 16 && o.va.toNat == 0x64040000
def LaneOp.profLane (o : LaneOp) (k : OpKind) : Bool :=
  match k with | .storeLocal _ => 0x64040020 ≤ o.va.toNat && o.va.toNat < 0x64040040 | _ => false

/-- A read of a same-world wait count finds the cycles counted until then, which are not defined (R414, R436). -/
def State.waitCount (s : State) (b : Nat) (t : Option LTgt) : State :=
  match t with
  | some (.debug off) =>
    if 0x4020000 ≤ off ∧ off < 0x4040000 then
      let u := (off - 0x4020000) / 8
      let (n, s) := s.freeNat (2 ^ 64)
      s.modWorld (s.launchOf b).world fun w => { w with waitcnt := SMap.put 0 w.waitcnt u ((SMap.get 0 w.waitcnt u + n) % 2 ^ 64) }
    else s
  | _ => s

/-- The block whose storage a local target lies in, and the words of it that an access of `n` bytes reaches (R151). -/
def State.localWords (s : State) (b : Nat) (t : LTgt) (n : Nat) : Nat × List Nat :=
  let words (a : Nat) : List Nat := ((List.range n).map fun i => (a + i) / 4).dedup
  match t with
  | .own off => (b, words off)
  | .reg w reg ln byte => (b, words (0x10000000 + w * 2 ^ 14 + reg * 2 ^ 7 + ln * 4 + byte))
  | .cluster rank off => ((s.clusters.getD (s.blk b).cluster {}).members.getD rank 0, words off)
  | .debug off => (if off < 0x4000000 then (s.target b).getD b else b, [])

/-- Every lane of one LDL reads the same bytes (R167): a byte that another of its lanes has read is taken from there. -/
def State.sameLocal (s : State) (a : Who) (la : Nat) (bs : List Byte) : List Byte × State :=
  match (s.wv a.b a.w).op? a.op with
  | none => (bs, s)
  | some o =>
    let bs := bs.zipIdx.map fun e => ((o.seen.find? fun x => x.1 == la + e.2).map Prod.snd).getD e.1
    if o.lanes.any fun l => l.lane ≠ a.lane && l.open_ && l.va.toNat / 16 == la / 16 then
      (bs, s.modOp a.b a.w a.op fun o => { o with seen := o.seen ++ bs.zipIdx.map fun e => (la + e.2, e.1) })
    else (bs, s)

/-- A block is being saved: its ridge is in SEAL (R403, R413). -/
def State.sealing (s : State) (b : Nat) : Bool :=
  (s.blk b).st == .resident && (s.ridges.getD ((s.blk b).core / 8) {}).phase == .seal

/-- An access to a wave that runs ahead, by its registers or through the debug window, waits for its checkpoint, except for
run-ahead's own (R77). -/
def State.ranAhead (s : State) (own : Bool) (home : Nat) (t : LTgt) : Bool :=
  !own && (match t with
    | .reg w _ _ _ => ((s.blk home).waves.getD w default).ra.isSome
    | .debug off => off < 0x4000000 && (s.blk home).waves.any fun v => v.ra.isSome
    | _ => false)

/-- Perform a lane of LDL, STL or ATOML, if it is its turn. An access to a block whose banks still wake parks (R160), and one
to a block that is being saved waits (R436); one that
meets an uncorrectable error receives DATA, with its local address and no IA (R168). -/
def State.performLocal (s : State) (b w id lane : Nat) : State :=
  let v := s.wv b w
  match v.op? id with
  | none => s
  | some op =>
    match op.lanes.find? fun o => o.lane == lane && o.st == .pending with
    | none => s
    | some o =>
      if !v.mayPerform op o then s
      else
        let a : Who := { b, w, op := id, lane, core := (s.blk b).core, world := (s.launchOf b).world }
        let c := s.ctxAt b w op.path
        let n := match op.kind with | .loadLocal n _ | .storeLocal n => n | _ => 4
        match c.localAt s o.va.toNat n (match op.kind with | .atomicLocal _ => true | _ => false) with
        | none => s.lanePerformed a (match op.kind with | .loadLocal n sg => loadWords n sg (List.replicate n 0) | .atomicLocal _ => [0] | _ => [])
        | some t =>
          let (home, words) := s.localWords b t n
          if (s.blk home).waking ≠ [] || s.sealing home || s.ranAhead (v.isRa id) home t then s
          else if words.any fun x => (s.blk home).badWords.contains x then
            (s.log 5 (some 0x14) (some a.core) a.world o.va.toNat).modLane b w id lane fun l => { l with st := .faulted 0x14 7 o.va 0 }
          else
            match op.kind with
            | .loadLocal n sg =>
              let s := s.waitCount b (some t)
              let (bs, s) := s.sameLocal a o.va.toNat (s.localRead b t n)
              s.lanePerformed a (loadWords n sg bs)
            | .storeLocal n => (s.localWrite b t (natBytes n o.data.toNat)).lanePerformed a []
            | .atomicLocal aop =>
              let old := leNat (s.localRead b t 4)
              (match atomNew aop false old o.data.toNat with
               | some x => s.localWrite b t (natBytes 4 x)
               | none => s).lanePerformed a [BitVec.ofNat 32 old]
            | _ => s

/-- Perform one lane of an STL through the debug window. -/
def State.performWindow (s : State) (b w id lane : Nat) (p : OpKind → LaneOp → Bool) : State :=
  match (s.wv b w).op? id with
  | none => s
  | some op => if op.lanes.any fun o => o.lane == lane && p op.kind o then s.performLocal b w id lane else s

/-- DEBUG_ATTACH (R437). -/
def execDebugAttach (b w op lane : Nat) (s : State) : Host.Outcome State Fault Refusal :=
  .next (s.performWindow b w op lane fun k o => o.attachLane k)

/-- PROFILING_CONTROL_WRITE (R444). -/
def execProfilingControlWrite (b w op lane : Nat) (s : State) : Host.Outcome State Fault Refusal :=
  .next (s.performWindow b w op lane fun k o => o.profLane k)

/-! ### Issue (R178, R179) -/

/-- Local address of a lane. -/
def Ctx.la (c : Ctx) (a : Field) (o : BitVec 7) (size ln : Nat) : Nat := ((c.src a ln 0).toNat + o.toNat * size) % 2 ^ 32

/-- A store to an attachment record or a profiling control has still to be performed in a world. -/
def State.windowBusy (s : State) (world : Nat) : Bool :=
  s.blocks.any fun k => (s.launches.getD k.launch default).world == world && k.waves.any fun v =>
    v.ops.any fun op => op.lanes.any fun o => o.st == .pending && (o.attachLane op.kind || o.profLane op.kind)

/-- The profiling controls that an STL may reach: the attached launch's, and that of a launch which the same STL attaches
(R437, R444). -/
def Ctx.profiles (c : Ctx) (s : State) (attach : Option Nat) : List (BitVec 256) :=
  ((s.attached c.b).toList.map fun l => (s.launches.getD l default).profile) ++
    match attach with
    | some d => (s.launches.filter (attachable c.world (d % 2 ^ 64))).map (·.profile)
    | none => []

/-- The checks of R179 and the operation they lead to; `store` for STL, whose profiling-control writes are checked too. They are
checked once earlier stores to the window have been performed (R444). -/
def Ctx.localOp (c : Ctx) (s : State) (i : Info) (d a : Field) (o : BitVec 7) (size nregs : Nat) (store atom : Bool)
    (ctr : Ctr) (kind : OpKind) : Act :=
  let lanes := ((List.range 32).filter c.active).filter fun ln => match c.wv.ra with | some r => !c.raBad r i ln | none => true
  let la := c.la a o size
  let va (ln : Nat) : DWord := BitVec.ofNat 64 (la ln)
  let data (ln : Nat) := c.runData false d (if kind = .atomicLocal .cas then 2 else nregs) ln
  let fail (code : Nat) (l : List Nat) : Option TrapInfo := c.laneTrap (l.map (·, code)) va
  match fail 0x13 (lanes.filter fun ln => la ln % size ≠ 0) with
  | some t => .trap t
  | none =>
  match fail 0x12 (lanes.filter fun ln => (c.localAt s (la ln) size atom).isNone) with
  | some t => .trap t
  | none =>
  let prof := lanes.filter fun ln => store && 0x64040020 ≤ la ln && la ln < 0x64040040
  if prof ≠ [] && s.windowBusy c.world && c.wv.ra.isNone then .hold .waitSt s
  else
  let attach := (lanes.find? fun ln => kind == .storeLocal 16 && la ln == 0x64040000).map fun ln => (data ln).toNat
  let badProf := (c.profiles s attach).any fun p =>
    !profOk c.world (prof.foldl (fun p ln => profPut p (la ln - 0x64040020) (natBytes size (data ln).toNat)) p)
  match fail 0x12 (if badProf then prof else []) with
  | some t => .trap t
  | none =>
  match fail 0x16 (lanes.filter fun ln => match c.localAt s (la ln) size atom with
      | some (.cluster rank _) => !c.ticketOk s || (s.clusters.getD c.blk.cluster {}).members.length ≤ rank
      | _ => false) with
  | some t => .trap t
  | none =>
    if lanes = [] || ((store || atom) && c.wv.ra.isSome) then .done s
    else
      c.async
        { ctr, nregs, kind
          lanes := lanes.map fun ln => { lane := ln, va := va ln, dst := if store then 0 else c.vreg ln d.toNat, data := data ln, addr := c.src a ln 0 |>.setWidth 64 } } s

def Ctx.ldl (c : Ctx) (s : State) (i : Info) (d a : Field) (o : BitVec 7) (size nregs : Nat) (signed : Bool) : Act :=
  c.localOp s i d a o size nregs false false .lc (.loadLocal size signed)
def Ctx.stl (c : Ctx) (s : State) (i : Info) (d a : Field) (o : BitVec 7) (size nregs : Nat) : Act :=
  c.localOp s i d a o size nregs true false .sc (.storeLocal size)
def Ctx.atoml (c : Ctx) (s : State) (i : Info) (d a : Field) (o : BitVec 7) (op : AtomOp) : Act :=
  c.localOp s i d a o 4 1 false true .lc (.atomicLocal op)

/-- R178, R179. -/
def execLdlS8 (y : Bool) (d a : Field) (o : BitVec 7) (s : State) : Host.Outcome State Fault Refusal :=
  let i := info (.ldlS8 y d a o)
  issue i y s fun c s => c.ldl s i d a o 1 1 true

/-- R178, R179. -/
def execLdlZ8 (y : Bool) (d a : Field) (o : BitVec 7) (s : State) : Host.Outcome State Fault Refusal :=
  let i := info (.ldlZ8 y d a o)
  issue i y s fun c s => c.ldl s i d a o 1 1 false

/-- R178, R179. -/
def execLdlS16 (y : Bool) (d a : Field) (o : BitVec 7) (s : State) : Host.Outcome State Fault Refusal :=
  let i := info (.ldlS16 y d a o)
  issue i y s fun c s => c.ldl s i d a o 2 1 true

/-- R178, R179. -/
def execLdlZ16 (y : Bool) (d a : Field) (o : BitVec 7) (s : State) : Host.Outcome State Fault Refusal :=
  let i := info (.ldlZ16 y d a o)
  issue i y s fun c s => c.ldl s i d a o 2 1 false

/-- R178, R179. -/
def execLdl32 (y : Bool) (d a : Field) (o : BitVec 7) (s : State) : Host.Outcome State Fault Refusal :=
  let i := info (.ldl32 y d a o)
  issue i y s fun c s => c.ldl s i d a o 4 1 false

/-- R178, R179. -/
def execLdl64 (y : Bool) (d a : Field) (o : BitVec 7) (s : State) : Host.Outcome State Fault Refusal :=
  let i := info (.ldl64 y d a o)
  issue i y s fun c s => c.ldl s i d a o 8 2 false

/-- R178, R179. -/
def execLdl128 (y : Bool) (d a : Field) (o : BitVec 7) (s : State) : Host.Outcome State Fault Refusal :=
  let i := info (.ldl128 y d a o)
  issue i y s fun c s => c.ldl s i d a o 16 4 false

/-- R178, R179. -/
def execStl8 (y : Bool) (d a : Field) (o : BitVec 7) (s : State) : Host.Outcome State Fault Refusal :=
  let i := info (.stl8 y d a o)
  issue i y s fun c s => c.stl s i d a o 1 1

/-- R178, R179. -/
def execStl16 (y : Bool) (d a : Field) (o : BitVec 7) (s : State) : Host.Outcome State Fault Refusal :=
  let i := info (.stl16 y d a o)
  issue i y s fun c s => c.stl s i d a o 2 1

/-- R178, R179. -/
def execStl32 (y : Bool) (d a : Field) (o : BitVec 7) (s : State) : Host.Outcome State Fault Refusal :=
  let i := info (.stl32 y d a o)
  issue i y s fun c s => c.stl s i d a o 4 1

/-- R178, R179. -/
def execStl64 (y : Bool) (d a : Field) (o : BitVec 7) (s : State) : Host.Outcome State Fault Refusal :=
  let i := info (.stl64 y d a o)
  issue i y s fun c s => c.stl s i d a o 8 2

/-- R178, R179. -/
def execStl128 (y : Bool) (d a : Field) (o : BitVec 7) (s : State) : Host.Outcome State Fault Refusal :=
  let i := info (.stl128 y d a o)
  issue i y s fun c s => c.stl s i d a o 16 4

/-- R178, R179. -/
def execAtomlAdd (y : Bool) (d a : Field) (o : BitVec 7) (s : State) : Host.Outcome State Fault Refusal :=
  let i := info (.atomlAdd y d a o)
  issue i y s fun c s => c.atoml s i d a o .add

/-- R178, R179. -/
def execAtomlMinS (y : Bool) (d a : Field) (o : BitVec 7) (s : State) : Host.Outcome State Fault Refusal :=
  let i := info (.atomlMinS y d a o)
  issue i y s fun c s => c.atoml s i d a o .minS

/-- R178, R179. -/
def execAtomlMaxS (y : Bool) (d a : Field) (o : BitVec 7) (s : State) : Host.Outcome State Fault Refusal :=
  let i := info (.atomlMaxS y d a o)
  issue i y s fun c s => c.atoml s i d a o .maxS

/-- R178, R179. -/
def execAtomlAnd (y : Bool) (d a : Field) (o : BitVec 7) (s : State) : Host.Outcome State Fault Refusal :=
  let i := info (.atomlAnd y d a o)
  issue i y s fun c s => c.atoml s i d a o .and

/-- R178, R179. -/
def execAtomlOr (y : Bool) (d a : Field) (o : BitVec 7) (s : State) : Host.Outcome State Fault Refusal :=
  let i := info (.atomlOr y d a o)
  issue i y s fun c s => c.atoml s i d a o .or

/-- R178, R179. -/
def execAtomlExch (y : Bool) (d a : Field) (o : BitVec 7) (s : State) : Host.Outcome State Fault Refusal :=
  let i := info (.atomlExch y d a o)
  issue i y s fun c s => c.atoml s i d a o .exch

/-- R178, R179. -/
def execAtomlCas (y : Bool) (d a : Field) (o : BitVec 7) (s : State) : Host.Outcome State Fault Refusal :=
  let i := info (.atomlCas y d a o)
  issue i y s fun c s => c.atoml s i d a o .cas

/-- R178, R179. -/
def execAtomlFadd (y : Bool) (d a : Field) (o : BitVec 7) (s : State) : Host.Outcome State Fault Refusal :=
  let i := info (.atomlFadd y d a o)
  issue i y s fun c s => c.atoml s i d a o .fadd

end Sys2Proof.Machine
end

