-- ==== Sys2Proof/Machine/Tasks.lean ====
section
/-! DEFINITION. The command processor: counter objects and arrivals (R360–R363), launch records, their checks and
submission (R364–R368), completion and cancellation (R370, R371), and the TASK major (R385–R387). -/

namespace Sys2Proof.Machine

open Sys2Proof

/-! ### Counter objects (R360) -/

/-- A counter object. -/
structure Counter where
  parent : Nat
  pgen : Nat
  target : Nat
  count : Nat
  kind : Nat
  status : Nat
  gen : Nat
  reserved : Bool
deriving DecidableEq, Repr, Inhabited

def counterOf (r : BitVec 256) : Counter :=
  { parent := fld r 255 192, pgen := fld r 191 176, target := fld r 127 96, count := fld r 95 64, kind := fld r 25 24
    status := fld r 23 16, gen := fld r 15 0, reserved := fld r 175 128 ≠ 0 || fld r 63 26 ≠ 0 }

/-- The 32 bytes of an object. -/
def Counter.bytes (o : Counter) : List Byte :=
  natBytes 32 (o.gen % 2 ^ 16 + o.status % 256 * 2 ^ 16 + o.kind % 4 * 2 ^ 24 + o.count % 2 ^ 32 * 2 ^ 64 +
    o.target % 2 ^ 32 * 2 ^ 96 + o.pgen % 2 ^ 16 * 2 ^ 176 + o.parent % 2 ^ 64 * 2 ^ 192)

/-- Malformed (R360), at the VA at which the object lies. -/
def Counter.malformed (o : Counter) (va : Nat) : Bool :=
  o.reserved || o.kind == 3 || 4 ≤ o.status || va % 32 ≠ 0 || o.parent % 32 ≠ 0 || !canonical (BitVec.ofNat 64 o.parent) ||
    (if o.kind = 1 then o.parent ≠ 0 || o.target == 0 else o.target ≠ 0) || (o.kind == 2 && va % 256 ≠ 224)

/-- KindFits of R361. -/
def kindFits (kind : Nat) : ArrSrc → Bool
  | .gbar _ _ => kind == 1
  | .tdec _ _ _ => true
  | .cp | .parent => kind == 0 || kind == 2

/-- Read an object for the CP (R363). -/
def State.readCounter (s : State) (asid va : Nat) : Except WalkFault Counter × State :=
  match s.cpRead asid [.atomic true] va 32 with
  | (.ok bs, s) => (.ok (counterOf (BitVec.ofNat 256 (leNat bs))), s)
  | (.error f, s) => (.error f, s)

/-- Write an object, with release order at system scope. -/
def State.writeCounter (s : State) (asid va : Nat) (o : Counter) : Option WalkFault × State :=
  s.cpWrite asid [.atomic true] va o.bytes

/-- Divert of R361. -/
def State.divert (s : State) (l va gen fgen : Nat) : State :=
  s.errRecord l fun r =>
    let n := fld r 159 128
    let r := setFld r 159 128 (min (n + 1) (2 ^ 32 - 1))
    if n = 0 then setFld (setFld (setFld r 255 192 va) 191 176 gen) 175 160 fgen else r

/-- ReleaseGrid of R361 and R380: every wave of the world whose latch holds this VA and generation goes on. -/
def State.releaseGrid (s : State) (world va gen : Nat) : State :=
  { s with blocks := s.blocks.map fun k =>
      if (s.launches.getD k.launch default).world ≠ world then k
      else
        { k with waves := k.waves.map fun v =>
            if v.glatch ≠ .empty ∧ v.glatchVA.toNat = va ∧ v.glatchGen = gen then
              { v with greleased := true, paths := v.paths.map fun p => { p with again := true } }
            else v } }

/-- An arrival sets out. -/
def State.addArrival (s : State) (a : Arrival) : State := { s with arrivals := s.arrivals ++ [a] }

/-! ### Launch records (R364–R366) -/

/-- The fields of a launch record: high and low bit of each. -/
def recFields : List (Nat × Nat) :=
  [(2047, 1792), (879, 768), (751, 744), (740, 736), (728, 728), (725, 720), (717, 712), (709, 704), (687, 672), (660, 640), (637, 632), (627, 624),
   (622, 616), (614, 608), (606, 600), (595, 592), (585, 576), (575, 0)]
def recMask : Nat := (recFields.map fun f => 2 ^ (f.1 + 1) - 2 ^ f.2).foldl (· + ·) 0

/-- Code 1, FORMAT, of R366, the record's DEP aside. -/
def recMalformed (va : DWord) (r : BitVec 2048) : Bool :=
  let blocks := recGridX r * recGridY r * recGridZ r
  let vas := [recEntry r, recArg r, recRecva r, recHandler r, BitVec.ofNat 64 (recCntva r), BitVec.ofNat 64 (recErrva r),
    BitVec.ofNat 64 (recSucc0 r), BitVec.ofNat 64 (recSucc1 r)]
  (r.toNat ||| recMask) ≠ recMask || va.toNat % 256 ≠ 0 || !vas.all canonical || (recEntry r).toNat % 4 ≠ 0 || (recRecva r).toNat % 64 ≠ 0 ||
    recCntva r % 32 ≠ 0 || recErrva r % 32 ≠ 0 || 1048576 < recScratch r || 3072 < recTrows r || recCount r == 0 || 64 < recX r ||
    recB r == 0 || 112 < recB r + recX r || 32 < recNF r || 32 < recNM r || 32 < recNV r ||
    (recRV r && recNF r + recNM r + recNV r ≠ recNw r) || (recShade r && !recSV r) ||
    (if recSV r then recGridX r ≠ 0 || recGridY r ≠ 0 || recGridZ r ≠ 0 || recCluster r ≠ 1 || recPipe r == 0 ||
        recSqia r % 64 ≠ 0 || iaRegion (recSqia r) ≠ recAsid r / 4096 || 2 ^ 52 ≤ recSqia r
     else blocks == 0 || 2 ^ 32 ≤ blocks || blocks % recCluster r ≠ 0 || recSqia r ≠ 0)

/-- What the DEP of a record makes it (R368): ready, pending, or refused with FORMAT. -/
inductive DepRes where
  | ready | pending | bad
deriving DecidableEq, Repr, Inhabited

def depOf (va : DWord) (r : BitVec 2048) : DepRes :=
  let o := counterOf (recDep r)
  if recDep r = 0 then .ready
  else if o.kind ≠ 2 || o.malformed (va.toNat + 224) then .bad
  else if o.count = 0 then .ready
  else .pending

/-- R366 for a record of a world, the DEP aside: the first code that applies, 0 for none; and HEAD of a stage queue. -/
def State.checkRecord (s : State) (world : Nat) (va : DWord) (r : BitVec 2048) : Nat × Nat × State :=
  if recMalformed va r then (1, 0, s)
  else if recAsid r / 4096 ≠ world then (2, 0, s)
  else if recOcc r = 0 || 8 * recOcc r < recCluster r then (3, 0, s)
  else if !recSV r then (0, 0, s)
  else
    match s.stageRead world (recSqia r) with
    | (.error _, s) => (4, 0, s)
    | (.ok q, s) =>
      let clash := s.launches.any fun l => l.world == world && l.st == .ready && recSV l.record && recPipe l.record == recPipe r &&
        recSidx l.record == recSidx r
      if clash || !q.ok then (5, 0, s) else (0, q.head, s)

/-- The counters of a launch's chain: at most three PARENT links above CNTVA (R362). -/
def State.chainOf (s : State) (asid va : Nat) : Nat → List Nat × State
  | 0 => ([va], s)
  | n + 1 =>
    match s.readCounter asid va with
    | (.ok o, s) =>
      if o.parent = 0 then ([va], s)
      else
        let (l, s) := State.chainOf s asid o.parent n
        (va :: l, s)
    | (.error _, s) => ([va], s)

/-- The arrivals of a launch on its counter and its successors (R366, R369, R370). -/
def State.launchArrivals (s : State) (l status : Nat) (own : Bool) : State :=
  let x := s.launches.getD l default
  let r := x.record
  let a (va gen : Nat) : Arrival := { world := x.world, asid := recAsid r, va, gen, status, launch := l, src := .cp }
  { s with arrivals := s.arrivals ++ (if own then [{ a (recCntva r) (fld r 847 832) with links := some 3 }] else []) ++
      (if recSucc0 r = 0 then [] else [a (recSucc0 r) (recSgen0 r)]) ++ (if recSucc1 r = 0 then [] else [a (recSucc1 r) (recSgen1 r)]) }

/-- A host-queue slot has been read for good: HEAD advances over the longest run of such slots (R368, R426). -/
def State.freeSlot (s : State) (slot : Option (Nat × Nat)) : State :=
  match slot with
  | none => s
  | some (q, n) =>
    let h := SMap.get {} s.hostq q
    let held := h.held.filter (· != n)
    { s with hostq := SMap.put {} s.hostq q { h with held, head := held.headD h.next } }

/-- A refused record (R366). -/
def State.refuse (s : State) (l code : Nat) (readFailed : Bool) : State :=
  let x := s.launches.getD l default
  let s := (s.modLaunch l fun y => { y with st := .refused code, slot := none }).freeSlot x.slot
  if readFailed || recAsid x.record / 4096 ≠ x.world then
    s.log 6 none none x.world (x.va.toNat + (match x.slot with | some (q, n) => (q * 65536 + n % 65536 + 2 ^ 32) * 2 ^ 64 | none => 0))
  else (s.errRecord l fun r => setFld r 7 0 code).launchArrivals l 3 true

/-- The launch enters its world's ready queue (R368). -/
def State.makeReady (s : State) (l head prio : Nat) : State :=
  let order := (s.launches.map Launch.order).foldl max 0 + 1
  s.modLaunch l fun x => { x with st := .ready, order, prio, closedAt := s.clk, nextBlock := if recSV x.record then head else 0 }

/-- Submit a record as from a world: the code of R366, 0 where it is accepted. `task` is the VA at which a pending task
is registered (R426). -/
def State.submit (s : State) (world : Nat) (va : DWord) (r : BitVec 2048) (cap : Nat) (task : Bool) (slot : Option (Nat × Nat)) : Nat × State :=
  let l := s.launches.length
  let dep := depOf va r
  let (code, head, s) := if dep = .bad ∨ (dep = .pending ∧ !task) then (1, 0, s) else s.checkRecord world va r
  let s := { s with launches := s.launches ++ [({ record := r, va, world, prio := cap, st := .pending, slot } : Launch)] }
  if code ≠ 0 then (code, s.refuse l code false)
  else
    let (chain, s) := s.chainOf (recAsid r) (recCntva r) 3
    let s := s.modLaunch l fun x => { x with chain }
    if dep = .pending then (0, s)
    else (0, ((s.makeReady l head (min (recPrio r) cap)).modLaunch l fun x => { x with slot := none }).freeSlot slot)

/-- TaskReady of R361 and R369; a task that TCANCEL has dropped is none (R371). -/
def State.taskReady (s : State) (asid va status : Nat) : State :=
  match (List.range s.launches.length).find? fun l =>
      let x := s.launches.getD l default
      x.st == .pending && !x.cancelled && recAsid x.record == asid && x.va.toNat == va with
  | none => s
  | some l =>
    let x := s.launches.getD l default
    match s.cpRead asid [.load] va 256 with
    | (.error _, s) => s.refuse l 4 true
    | (.ok bs, s) =>
      let r := BitVec.ofNat 2048 (leNat bs)
      if status ≠ 1 then
        (((s.modLaunch l fun y => { y with record := r, st := .done, slot := none }).freeSlot x.slot).launchArrivals l status true)
      else
        let (code, head, s) := s.checkRecord x.world x.va r
        let s := s.modLaunch l fun y => { y with record := r }
        if code ≠ 0 then s.refuse l code false
        else ((s.makeReady l head (min (recPrio r) x.prio)).modLaunch l fun y => { y with slot := none }).freeSlot x.slot

/-! ### Arrivals (R361, R363) -/

/-- The result of an operation that answers all 32 lanes. -/
def State.answer (s : State) (b w op : Nat) (x : Word) : State :=
  s.modOp b w op fun o => { o with lanes := o.lanes.map fun (l : LaneOp) => { l with st := .ready, res := [x] } }

/-- The answer of an arrival: 0 applied, 1 completed, 2 diverted (R387). -/
def State.replyArrival (s : State) (a : Arrival) (x : Nat) : State :=
  match a.src with
  | .gbar b w => s.modWv b w fun v => { v with greplies := v.greplies ++ [x == 2] }
  | .tdec b w op => s.answer b w op (BitVec.ofNat 32 x)
  | .cp | .parent => s

/-- Arrive of R361. The arrival that a completed object makes on its PARENT comes next in its world; from a launch counter at
most three PARENT links are followed (R362). -/
def State.arrive (s : State) (a : Arrival) : State :=
  let l := s.launches.getD a.launch default
  match s.readCounter a.asid a.va with
  | (.error f, s) =>
    ((s.logFault f none a.world (l.va.toNat + a.va * 2 ^ 64)).divert a.launch a.va a.gen 0).replyArrival a 2
  | (.ok o, s) =>
    if o.malformed a.va || o.gen ≠ a.gen || o.count = 0 || !kindFits o.kind a.src then (s.divert a.launch a.va a.gen o.gen).replyArrival a 2
    else
      let o := { o with status := max o.status a.status, count := o.count - 1 }
      let full := o.count = 0
      let o' := if !full then o
        else if o.kind = 1 then { o with gen := (o.gen + 1) % 2 ^ 16, count := o.target, status := 0 }
        else { o with status := max o.status 1 }
      match s.writeCounter a.asid a.va o' with
      | (some f, s) => ((s.logFault f none a.world (l.va.toNat + a.va * 2 ^ 64)).divert a.launch a.va a.gen 0).replyArrival a 2
      | (none, s) =>
        if !full then s.replyArrival a 0
        else if o.kind = 1 then (s.releaseGrid a.world a.va a.gen).replyArrival a 1
        else
          let s := if o.kind = 2 then s.taskReady a.asid (a.va - 224) o'.status else s
          let s := if o.parent ≠ 0 ∧ a.links ≠ some 0 then
              { s with arrivals := { a with va := o.parent, gen := o.pgen, status := o'.status, src := .parent, links := a.links.map (· - 1) } :: s.arrivals }
            else s
          s.replyArrival a 1

/-- COUNTER_ARRIVE (R361): the world's next arrival is applied. -/
def execCounterArrive (world : Nat) (s : State) : Host.Outcome State Fault Refusal :=
  match s.arrivals.find? fun a => a.world == world with
  | none => .next s
  | some a => .next ({ s with arrivals := s.arrivals.erase a }.arrive a)

/-! ### Completion (R370) -/

/-- The blocks of a launch. -/
def State.blocksOf (s : State) (l : Nat) : List Nat := (List.range s.blocks.length).filter fun b => (s.blk b).launch == l

/-- An operation on LC of a wave that has ended is over but for its result: it reads nothing any more. A TCANCEL is over when it
finishes (R371). -/
def AsyncOp.readDone (o : AsyncOp) : Bool :=
  o.ctr == .lc && (o.kind == .tcancel || o.lanes.all fun l => l.st == .ready || l.st == .returned)

/-- The work of a block is over: every wave has ended, every read of theirs has been made, and no store, batch, matrix or
co-processor operation is left. -/
def State.blockQuiet (s : State) (b : Nat) : Bool :=
  (s.blk b).endCode ≠ 0 && (s.blk b).waves.all (fun v => v.ops.all AsyncOp.readDone && v.openBatches == 0) && s.copiesOf b == []

/-- LAUNCH_COMPLETE (R370). -/
def execLaunchComplete (l : Nat) (s : State) : Host.Outcome State Fault Refusal :=
  let x := s.launches.getD l default
  if s.launches.length ≤ l || x.st ≠ .ready || x.cancelled || !(s.blocksOf l).all s.blockQuiet then .next s
  else
    let (finished, s) : Bool × State :=
      if recSV x.record then
        match s.stageRead x.world (recSqia x.record) with
        | (.ok q, s) => (x.closedSeen && q.tail == q.head && q.tail == x.nextBlock, s)
        | (.error f, s) => (false, s.logFault f none x.world (recSqia x.record))
      else (x.nextBlock == recGridX x.record * recGridY x.record * recGridZ x.record, s)
    if !finished then .next s
    else
      let status := if x.nerr ≠ 0 ∨ x.trapEnd ∨ x.overrun then 3 else 1
      .next (((s.systemLines x.world false).modLaunch l fun y => { y with st := .done }).launchArrivals l status true)

/-! ### Cancellation (R371) -/

/-- The queued jobs of a marked stage launch are discarded, and their tokens aborted. -/
def State.dropJobs (s : State) (l : Nat) : State :=
  let x := s.launches.getD l default
  let sqia := recSqia x.record
  match s.stageRead x.world sqia with
  | (.error f, s) => s.logFault f none x.world sqia
  | (.ok q, s) =>
    let s := if recShade x.record then
        (List.range ((q.tail + 2 ^ 32 - x.nextBlock) % 2 ^ 32)).foldl (fun s i =>
          match s.jobToken x ((x.nextBlock + i) % 2 ^ 32) with
          | (some t, s) => s.abortToken x.world t
          | (none, s) => s) s
      else s
    match s.engWrite x.world (sqia + 12) (natBytes 4 q.tail) with
    | (some f, s) => s.logFault f none x.world sqia
    | (none, s) => s.modLaunch l fun y => { y with nextBlock := q.tail }

/-- Steps 1–3 of R371 for a counter: mark, drop, stop. A launch that an earlier TCANCEL has marked is marked by this one too,
and has been stopped already. -/
def State.cancel (s : State) (b w op asid va : Nat) : State :=
  let marked := (List.range s.launches.length).filter fun l =>
    let x := s.launches.getD l default
    (x.st == .ready || x.st == .pending) && recAsid x.record == asid && x.chain.contains va
  let s := (marked.filter fun l => !(s.launches.getD l default).cancelled).foldl (fun s l =>
    let x := s.launches.getD l default
    let s := s.modLaunch l fun y => { y with cancelled := true }
    let s := if x.st = .pending then (s.modLaunch l fun y => { y with slot := none }).freeSlot x.slot
      else if recSV x.record then s.dropJobs l else s
    (s.blocksOf l).foldl (fun s k => if (s.blk k).endCode = 0 then s.discardBlock k 3 else s) s) s
  let new : Cancel := { block := b, wave := w, op, world := asid / 4096, asid, va, launches := marked }
  { s with cancels := s.cancels ++ [new] }

/-- Write a counter with COUNT 0 and STATUS 2; its object is returned. -/
def State.cancelCounter (s : State) (asid va : Nat) : Option Counter × State :=
  match s.readCounter asid va with
  | (.error f, s) => (none, s.logFault f none (asid / 4096) va)
  | (.ok o, s) =>
    match s.writeCounter asid va { o with count := 0, status := 2 } with
    | (some f, s) => (none, s.logFault f none (asid / 4096) va)
    | (none, s) => (some o, s)

/-- PARENT links that may still be followed from the counter of a TCANCEL: three from a launch counter below it, less those up
to it (R362). -/
def State.linksAbove (s : State) (x : Cancel) : Option Nat :=
  ((x.launches.map fun l => (s.launches.getD l default).chain.findIdx (· == x.va)).min?).map (3 - ·)

/-- CANCEL_FINISH (R371 step 4). The successors of a launch receive one arrival, whichever TCANCEL of it finishes first. -/
def execCancelFinish (c : Nat) (s : State) : Host.Outcome State Fault Refusal :=
  match s.cancels[c]? with
  | none => .next s
  | some x =>
    if !(x.launches.all fun l => (s.blocksOf l).all s.blockQuiet) then .next s
    else
      let below := (x.launches.flatMap fun l => (s.launches.getD l default).chain.takeWhile (· != x.va)).dedup
      let s := below.foldl (fun s va => (s.cancelCounter x.asid va).2) s
      let s := (x.launches.filter fun l => (s.launches.getD l default).st ≠ .done).foldl (fun s l => (s.launchArrivals l 2 false).modLaunch l fun y => { y with st := .done }) s
      let s := match s.cancelCounter x.asid x.va with
        | (some o, s) =>
          if o.parent ≠ 0 ∧ s.linksAbove x ≠ some 0 then
            s.addArrival { world := x.world, asid := x.asid, va := o.parent, gen := o.pgen, status := 2, launch := (s.blk x.block).launch, src := .parent
                           links := (s.linksAbove x).map (· - 1) }
          else s
        | (none, s) => s
      let s : State := { s with cancels := s.cancels.eraseIdx c }
      .next (s.answer x.block x.wave x.op 0)

/-! ### The TASK major (R385–R387) -/

/-- An operation that executes once and answers register `d` in all 32 lanes, counting on LC. -/
def Ctx.once (c : Ctx) (kind : OpKind) (d : Field) (va : DWord) (ia : Nat) (x : Word) (s : State) : Act :=
  c.async
    { ctr := .lc, kind, nregs := 1
      lanes := (List.range 32).map fun ln => { lane := ln, va, ia, addr := va, data := x.setWidth 512, dst := d.toNat } } s

/-- The checks of R385 on a VA, then the operation. -/
def Ctx.taskOp (c : Ctx) (kind : OpKind) (d : Field) (va : DWord) (align : Nat) (need : Need) (x : Word) (s : State) : Act :=
  if va.toNat % align ≠ 0 then .trap (c.trap 0x13 none va)
  else
    match c.map s need va with
    | .error code => .trap (c.trap code none va)
    | .ok ia => c.once kind d va ia x s

/-- TLAUNCH of either kind (R386). -/
def Ctx.tlaunch (c : Ctx) (d : Field) (a b : BitVec 4) (s : State) : Act :=
  let ctl := c.bc b
  if fld ctl 31 4 ≠ 0 then .trap (c.trap 0x12 none (ctl.setWidth 64))
  else if ctl.getLsbD 0 then c.taskOp (.tlaunchJob (fld ctl 3 1)) d (c.bc64 a) 32 .load ctl s
  else c.taskOp .tlaunch d (c.bc64 a) 256 .load ctl s

/-- R386: a launch record. -/
def execTlaunch (y : Bool) (d : Field) (a b : BitVec 4) (s : State) : Host.Outcome State Fault Refusal :=
  let i := info (.tlaunch y d a b)
  issue i y s fun c s => c.tlaunch d a b s

/-- R386: a job. -/
def execTlaunchJob (y : Bool) (d : Field) (a b : BitVec 4) (s : State) : Host.Outcome State Fault Refusal :=
  let i := info (.tlaunchJob y d a b)
  issue i y s fun c s => c.tlaunch d a b s

/-- R387. -/
def execTdec (y : Bool) (d : Field) (a b : BitVec 4) (s : State) : Host.Outcome State Fault Refusal :=
  let i := info (.tdec y d a b)
  issue i y s fun c s =>
    let gen := c.bc b
    if fld gen 31 16 ≠ 0 then .trap (c.trap 0x12 none (gen.setWidth 64))
    else c.taskOp (.tdec (fld gen 15 0)) d (c.bc64 a) 32 (.atomic true) gen s

/-- R387. -/
def execTcancel (y : Bool) (d : Field) (a : BitVec 4) (s : State) : Host.Outcome State Fault Refusal :=
  let i := info (.tcancel y d a)
  issue i y s fun c s => c.taskOp .tcancel d (c.bc64 a) 32 (.atomic true) 0 s

/-- R387. -/
def execTstat (y : Bool) (d : Field) (a : BitVec 4) (s : State) : Host.Outcome State Fault Refusal :=
  let i := info (.tstat y d a)
  issue i y s fun c s => c.taskOp .tstat d (c.bc64 a) 32 (.atomic true) 0 s

/-- STAGE_ENQUEUE (R372, R386): a TLAUNCH of a job is carried out; its stage's window keeps whether it returned 1 (R374). -/
def execStageEnqueue (b w op : Nat) (s : State) : Host.Outcome State Fault Refusal :=
  match (s.wv b w).op? op with
  | none => .next s
  | some o =>
    match o.kind, o.lanes.find? fun l => l.st == .pending with
    | .tlaunchJob stage, some l =>
      let me := s.launchOf b
      let mine := (s.blk b).launch
      let pipe := recPipe me.record
      let target := (List.range s.launches.length).find? fun t =>
        let x := s.launches.getD t default
        x.world == me.world && x.st == .ready && !x.cancelled && recSV x.record && recPipe x.record == pipe && recSidx x.record == stage
      let done (s : State) (x : Word) : Host.Outcome State Fault Refusal :=
        .next ((s.modLaunch mine fun y => { y with window1 := if x = 1 then some s.clk else none }).answer b w op x)
      match (if pipe = 0 then none else target) with
      | some t =>
        let x := s.launches.getD t default
        (match s.cpRead (recAsid me.record) [.load] l.va.toNat 32 with
         | (.error f, s) => done (s.logFault f none me.world l.va.toNat) (3 + 4 * 256)
         | (.ok job, s) =>
           match s.enqueueJob x.world (recSqia x.record) job with
           | (.ok true, s) => done s 0
           | (.ok false, s) => done s 1
           | (.error f, s) => done (s.logFault f none x.world (recSqia x.record)) (3 + 4 * 256))
      | none => done s 2
    | _, _ => .next s

/-- The CP carries out a TASK instruction that waits for it (R386, R387). -/
def State.performTask (s : State) (b w id : Nat) : State :=
  match (s.wv b w).op? id with
  | none => s
  | some op =>
    match op.lanes.find? fun l => l.st == .pending with
    | none => s
    | some l =>
      let me := s.launchOf b
      let asid := recAsid me.record
      let va := l.va.toNat
      if op.phase ≠ 0 then s
      else match op.kind with
      | .tlaunch =>
        (match s.cpRead asid [.load] va 256 with
         | (.error _, s) => (s.log 6 none none me.world va).answer b w id (3 + 4 * 256)
         | (.ok bs, s) =>
           let (code, s) := s.submit me.world l.va (BitVec.ofNat 2048 (leNat bs)) me.prio true none
           s.answer b w id (if code = 0 then 0 else BitVec.ofNat 32 (3 + code * 256)))
      | .tdec gen =>
        (s.addArrival { world := me.world, asid, va, gen, status := 0, launch := (s.blk b).launch, src := .tdec b w id }).modOp b w id
          fun o => { o with phase := 1 }
      | .tcancel =>
        (match s.engRead me.world l.ia 32 with
         | (.error f, s) => (s.logFault f none me.world va).answer b w id 2
         | (.ok bs, s) =>
           let o := counterOf (BitVec.ofNat 256 (leNat bs))
           if o.malformed va then s.answer b w id 2
           else if o.count = 0 then s.answer b w id 1
           else (s.modOp b w id fun o => { o with phase := 1 }).cancel b w id asid va)
      | .tstat =>
        let n := min 63 ((s.launches.filter fun x => (x.st == .ready || x.st == .pending) && recAsid x.record == asid && x.chain.contains va).length)
        (match s.engRead me.world l.ia 32 with
         | (.error f, s) => { s.logFault f none me.world va with free := s.free + 1 }.answer b w id (Config.freeMask s.free)
         | (.ok bs, s) =>
           let o := counterOf (BitVec.ofNat 256 (leNat bs))
           s.answer b w id (BitVec.ofNat 32 (o.gen + o.status * 2 ^ 16 + o.kind * 2 ^ 24 + n * 2 ^ 26)))
      | _ => s

end Sys2Proof.Machine
end

