-- ==== Sys2Proof/Machine/Priv.lean ====
section
/-! DEFINITION. The PRIV major (spec/03 R70, R71, R84–R89; spec/20 R439–R441): INVR, REPLAY, PIN, UNPIN, MIGR, FRPOP,
DBGHALT and DBGRES, and the steps of the translators, the migration engine and the debugged core that carry them out. -/

namespace Sys2Proof.Machine

open Sys2Proof

/-! ### Operand checks (R84) -/

/-- A trap on a control word. -/
def Ctx.ctlTrap (c : Ctx) (code : Nat) (ctl : Word) : Act := .trap (c.trap code none (ctl.setWidth 64))

/-- The ASID operand of a control word names the wave's own world (R84). -/
def Ctx.ownAsid (c : Ctx) (ctl : Word) : Bool := fld ctl 15 12 == c.world

/-- R84 for an IA operand: another region than the world's own is PERM; the direct window, or bits [63:52], RANGE. -/
def Ctx.iaCheck (c : Ctx) (ia : DWord) : Option TrapInfo :=
  if fld ia 51 48 ≠ c.world then some (c.trap 0x11 none ia)
  else if fld ia 47 44 = 15 ∨ fld ia 63 52 ≠ 0 then some (c.trap 0x12 none ia)
  else none

/-- `n` granules of `size` bytes from an IA stay below the direct window of their region (R85, R87). -/
def inWalked (ia n size : Nat) : Bool := ia % 2 ^ 48 + n * size ≤ 15 * 2 ^ 44

/-- An operation of the PRIV major that answers nothing and counts on SC. -/
def Ctx.silent (c : Ctx) (kind : OpKind) (addr : DWord) (phase : Nat) (s : State) : Act :=
  c.async { ctr := .sc, kind, phase, lanes := [{ lane := 0, va := addr, addr }] } s

/-! ### INVR (R85) -/

/-- Granule bytes of GRAN 0–2. -/
def invrGran (ctl : Word) : Nat := match fld ctl 19 18 with | 0 => 2 ^ 16 | 1 => 2 ^ 21 | _ => 2 ^ 30
/-- The IA range of an INVR of kind TRANS. -/
def invrRange (ctl : Word) (ia : Nat) : Nat × Nat :=
  if fld ctl 19 18 = 3 then (ia / 2 ^ 48 * 2 ^ 48, ia / 2 ^ 48 * 2 ^ 48 + 15 * 2 ^ 44)
  else (ia, ia + fld ctl 31 20 * invrGran ctl)

/-- The checks of R84 and R85, and the operation. -/
def Ctx.invr (c : Ctx) (a b : BitVec 4) (s : State) : Act :=
  let ctl := c.bc b
  let ia := c.bc64 a
  let kind := fld ctl 17 16
  if !c.ownAsid ctl then c.ctlTrap 0x11 ctl
  else if 2 ≤ kind then c.ctlTrap 0x12 ctl
  else if kind = 1 && fld ctl 19 18 ≠ 3 && fld ctl 31 20 = 0 then c.ctlTrap 0x12 ctl
  else if kind = 1 then c.silent (.invr ctl) ia 0 s
  else if fld ctl 19 18 = 3 then
    if fld ia 51 48 ≠ c.world then .trap (c.trap 0x11 none ia)
    else if fld ia 63 52 ≠ 0 then .trap (c.trap 0x12 none ia)
    else c.silent (.invr ctl) ia 0 s
  else
    match c.iaCheck ia with
    | some t => .trap t
    | none =>
      if fld ctl 31 20 = 0 then c.ctlTrap 0x12 ctl
      else if ia.toNat % invrGran ctl ≠ 0 || !inWalked ia.toNat (fld ctl 31 20) (invrGran ctl) then .trap (c.trap 0x12 none ia)
      else c.silent (.invr ctl) ia 0 s

/-- R85, kind TRANS. -/
def execInvr (y : Bool) (a b : BitVec 4) (s : State) : Host.Outcome State Fault Refusal :=
  let i := info (.invr y a b)
  issue i y s fun c s => c.invr a b s

/-- R85, kind RANGEDESC. -/
def execInvrRangedesc (y : Bool) (a b : BitVec 4) (s : State) : Host.Outcome State Fault Refusal :=
  let i := info (.invrRangedesc y a b)
  issue i y s fun c s => c.invr a b s

/-- A granule of the range [lo, hi) that is pinned (R71). -/
def State.pinnedIn (s : State) (lo hi : Nat) : Bool := s.pins.any fun e => lo ≤ e.1 * 65536 && e.1 * 65536 < hi

/-- Discard what a range of IAs has cached: translations but those of pinned granules, partial walks, lines of L1 and
L2, whose dirty bytes go back under their old translation (R71, R85). -/
def State.purgeRange (s : State) (world lo hi : Nat) : State :=
  let s : State :=
    { s with
      tlb := s.tlb.flatMap fun t => if t.world == world && t.base < hi && lo < t.base + t.size then s.pinnedPart t else [t]
      walks := s.walks.filter fun e => e.2.1 != world
      cores := s.cores.map fun e => (e.1, { e.2 with l1 := e.2.l1.filter fun l => !(lo ≤ l.1 * 128 && l.1 * 128 < hi) }) }
  ((s.l2.map Prod.fst).filter fun ln => lo ≤ ln * 128 && ln * 128 < hi).foldl (fun s ln => (s.unhold world (ln * 128)).l2Evict world ln) s

/-- The lanes at the host port whose access in the range has been translated (R85, R428), by number. -/
def State.atPort (s : State) (lo hi : Nat) : List Nat :=
  (List.range s.blocks.length).flatMap fun b => (List.range (s.blk b).waves.length).flatMap fun w =>
    (s.wv b w).ops.flatMap fun o =>
      ((o.lanes.filter fun l => l.st == .port && lo ≤ l.ia && l.ia < hi).map fun l => ((b * 64 + w) * 2 ^ 32 + o.id) * 32 + l.lane)

/-- Finish an operation that answers nothing. -/
def State.finishOp (s : State) (b w op : Nat) : State :=
  (s.modOp b w op fun o => { o with lanes := o.lanes.map fun l => { l with st := .returned } }).retire b w op

/-- INVR_ACKNOWLEDGE (R85): an INVR is carried out, and then acknowledged once no granule of its range is pinned and the
accesses translated before have completed. -/
def execInvrAcknowledge (b w op : Nat) (s : State) : Host.Outcome State Fault Refusal :=
  match (s.wv b w).op? op with
  | none => .next s
  | some o =>
    match o.kind, o.lanes.head? with
    | .invr ctl, some l =>
      let world := fld ctl 15 12
      if fld ctl 17 16 = 1 then
        let asid := fld ctl 15 0
        let holders := (s.cores.filter fun e => e.2.ranges.any fun r => r.1 == asid).map Prod.fst
        .next ((holders.foldl (fun s c => s.loadRanges c asid) s).finishOp b w op)
      else
        let (lo, hi) := invrRange ctl l.addr.toNat
        if o.phase = 0 then
          let port := s.atPort lo hi
          .next ((s.purgeRange world lo hi).modOp b w op fun o => { o with phase := 1, lanes := o.lanes.map fun l => { l with aux := port } })
        else if s.pinnedIn lo hi || l.aux.any (s.atPort lo hi).contains then .next s
        else .next ((s.purgeRange world lo hi).finishOp b w op)
    | _, _ => .next s

/-! ### REPLAY (R86) -/

/-- The cores a REPLAY reaches: the one a token names, or every core that holds waves or wait-table entries. -/
def State.replayCores (s : State) (ctl : Word) (addr : Nat) : List Nat :=
  if ctl.getLsbD 16 then [addr / 2 ^ 16 % 256]
  else (List.range 256).filter fun c => (s.core c).wait ≠ [] || s.wavesOn c ≠ []

/-- The checks of R84 and R86, and the operation, on its way to the cores. -/
def Ctx.replay (c : Ctx) (a b : BitVec 4) (s : State) : Act :=
  let ctl := c.bc b
  let ia := c.bc64 a
  let bad : Option TrapInfo := if ctl.getLsbD 16 then (if 2 ^ 24 ≤ ia.toNat then some (c.trap 0x12 none ia) else none) else c.iaCheck ia
  if !c.ownAsid ctl then c.ctlTrap 0x11 ctl
  else
    match bad with
    | some t => .trap t
    | none =>
      if fld ctl 31 18 ≠ 0 then c.ctlTrap 0x12 ctl
      else
        let cores := s.replayCores ctl ia.toNat
        match c.silent (.replay ctl) ia cores.length s with
        | .done s => .done (cores.foldl (fun s k => s.modCore k fun x => { x with replays := x.replays ++ [(c.b, c.w, c.wv.nextOp)] }) s)
        | x => x

/-- R86, by page. -/
def execReplayByPage (y : Bool) (a b : BitVec 4) (s : State) : Host.Outcome State Fault Refusal :=
  let i := info (.replayByPage y a b)
  issue i y s fun c s => c.replay a b s

/-- R86, by token. -/
def execReplayByToken (y : Bool) (a b : BitVec 4) (s : State) : Host.Outcome State Fault Refusal :=
  let i := info (.replayByToken y a b)
  issue i y s fun c s => c.replay a b s

/-! ### PIN and UNPIN (R71, R87) -/

/-- The checks of R84 and R87, and the operation. -/
def Ctx.pinOp (c : Ctx) (kind : Word → OpKind) (d : Field) (a b : BitVec 4) (s : State) : Act :=
  let ctl := c.bc b
  let ia := c.bc64 a
  if !c.ownAsid ctl then c.ctlTrap 0x11 ctl
  else
    match c.iaCheck ia with
    | some t => .trap t
    | none =>
      if fld ctl 31 16 = 0 then c.ctlTrap 0x12 ctl
      else if ia.toNat % 65536 ≠ 0 || !inWalked ia.toNat (fld ctl 31 16) 65536 then .trap (c.trap 0x12 none ia)
      else c.once (kind ctl) d ia ia.toNat ctl s

/-- R87. -/
def execPin (y : Bool) (d : Field) (a b : BitVec 4) (s : State) : Host.Outcome State Fault Refusal :=
  let i := info (.pin y d a b)
  issue i y s fun c s => c.pinOp .pin d a b s

/-- R87. -/
def execUnpin (y : Bool) (d : Field) (a b : BitVec 4) (s : State) : Host.Outcome State Fault Refusal :=
  let i := info (.unpin y d a b)
  issue i y s fun c s => c.pinOp .unpin d a b s

/-- Walk the granules of a world's PIN in ascending order: the first status other than 0. An uncorrectable error in a
walk is logged (R22). -/
def State.pinWalk (s : State) (world first i : Nat) : Nat → Nat × State
  | 0 => (0, s)
  | n + 1 =>
    match s.translate world ((first + i) * 65536) false with
    | (s, .pa _) => if s.pinCount (first + i) = 65535 then (0x80000000 + i, s) else State.pinWalk s world first (i + 1) n
    | (s, .fault f) => (0x40000000 + i, s.noteData f world ((first + i) * 65536))

/-- PIN: all its granules, or none; `none` where a pin table is full, and the instruction waits, holding nothing (R71). -/
def State.pinAll (s : State) (world first n : Nat) : Option Nat × State :=
  match s.pinWalk world first 0 n with
  | (0, s) =>
    let gs := (List.range n).map (first + ·)
    if s.pinRoom gs then (some 0, gs.foldl (fun s g => s.setPin g (s.pinCount g + 1)) s) else (none, s)
  | (x, s) => (some x, s)

/-- UNPIN: the number of granules whose count was already zero. -/
def State.unpinAll (s : State) (first n : Nat) : Nat × State :=
  (List.range n).foldl (fun (p : Nat × State) i =>
    let k := p.2.pinCount (first + i)
    if k = 0 then (p.1 + 1, p.2) else (p.1, p.2.setPin (first + i) (k - 1))) (0, s)

/-! ### FRPOP (R89) -/

/-- R89. -/
def execFrpop (y : Bool) (d : Field) (s : State) : Host.Outcome State Fault Refusal :=
  let i := info (.frpop y d)
  issue i y s fun c s => c.once .frpop d 0 0 0 s

/-- Take the record at HEAD of a world's fault ring: `none` where the ring is empty, malformed or unreadable (R457). -/
def State.popFault (s : State) (world : Nat) : Option (List Byte) × State :=
  let hia := wrFria (s.world world).record
  let bad (s : State) : Option (List Byte) × State := (none, s.log 1 none none world hia)
  match s.engRead world hia 64 with
  | (.error _, s) => bad s
  | (.ok bs, s) =>
    let h := ringHdr bs
    if !h.ok 64 65536 4096 then bad s
    else if h.tail = h.head then (none, s)
    else
      let ia := h.base + h.head % h.cap * 64
      if iaRegion ia ≠ world then bad s
      else
        match s.engRead world ia 64 with
        | (.error _, s) => bad s
        | (.ok r, s) =>
          match s.engWrite world (hia + 12) (natBytes 4 (h.head + 1)) with
          | (some _, s) => bad s
          | (none, s) => (some r, s)

/-- Lane results of an FRPOP. -/
def frpopWord (r : Option (List Byte)) (ln : Nat) : Word :=
  match r with
  | some bs => if ln < 16 then BitVec.ofNat 32 (leNat ((bs.drop (4 * ln)).take 4)) else if ln = 16 then 1 else 0
  | none => 0

/-! ### MIGR (R70, R88) -/

/-- Fields of a command. -/
def mgOp (r : BitVec 256) : Nat := fld r 7 0
def mgAsid (r : BitVec 256) : Nat := fld r 31 16
def mgCount (r : BitVec 256) : Nat := fld r 47 32
def mgSrc (r : BitVec 256) : Nat := fld r 127 64
def mgDst (r : BitVec 256) : Nat := fld r 191 128
def mgMap (r : BitVec 256) : Nat := fld r 246 192
def mgIsMap (r : BitVec 256) : Bool := mgOp r == 4 || mgOp r == 5

/-- BADCMD (R88). -/
def migrBad (r : BitVec 256) : Bool :=
  let limit := match mgOp r with | 1 => 4095 | 2 | 3 => 32768 | 4 | 5 => 1 | _ => 0
  fld r 255 247 ≠ 0 || fld r 63 48 ≠ 0 || fld r 15 8 ≠ 0 || mgCount r == 0 || limit < mgCount r ||
    (if mgIsMap r then mgSrc r ≠ 0 || mgDst r ≠ 0 else mgSrc r % 65536 ≠ 0 || mgDst r % 65536 ≠ 0)

/-- `n` bytes at a PA lie in a world's grant and in one tier. -/
def State.inTier (s : State) (world pa n : Nat) (foot : Bool) : Bool :=
  inGrant (s.grant world) pa n && (match paKind pa, paKind (pa + n - 1) with
    | .hbm, .hbm => !foot
    | .foothill, .foothill => foot
    | _, _ => false)

/-- The code that a command's checks give, 0 if none (R88). -/
def State.migrCheck (s : State) (world : Nat) (r : BitVec 256) : Nat :=
  let n := mgCount r * 65536
  if migrBad r then 2
  else if mgAsid r / 4096 ≠ world || (mgIsMap r && (iaRegion (mgMap r / 8) ≠ world || iaDirect (mgMap r / 8) || 2 ^ 52 ≤ mgMap r / 8)) then 3
  else if (match mgOp r with
      | 1 => !s.inTier world (mgSrc r) n false || !s.inTier world (mgDst r) 16 true
      | 2 => !s.inTier world (mgSrc r) 16 true || !s.inTier world (mgDst r) n false
      | 3 => !s.inTier world (mgSrc r) n false || !s.inTier world (mgDst r) n false
      | _ => false) then 4
  else 0

/-- R88. Commands of a world are taken in the order in which they issue (R70). -/
def execMigr (y : Bool) (d : Field) (a : BitVec 4) (s : State) : Host.Outcome State Fault Refusal :=
  let i := info (.migr y d a)
  issue i y s fun c s =>
    match c.taskOp .migr d (c.bc64 a) 32 .load 0 s with
    | .done s => .done (s.modWorld c.world fun x => { x with migrq := x.migrq ++ [(c.b, c.w, c.wv.nextOp)] })
    | x => x

/-- A command leaves its world's queue. -/
def State.migrDrop (s : State) (world : Nat) (k : Nat × Nat × Nat) : State :=
  s.modWorld world fun x => { x with migrq := x.migrq.filter (· != k), migrDone := if x.migrq.head? = some k then 0 else x.migrDone }

/-- Read a command and check it. One whose read faults leaves the queue, and comes back to it when it is re-issued. -/
def State.migrRead (s : State) (b w id : Nat) (l : LaneOp) : State :=
  let world := (s.launchOf b).world
  let drop (s : State) : State := s.migrDrop world (b, w, id)
  match s.engRead world l.ia 32 with
  | (.error f, s) =>
    drop ((s.noteData f world l.ia).modOp b w id fun o => { o with lanes := o.lanes.map fun x => { x with st := .faulted f.1 f.2 l.va l.ia } })
  | (.ok bs, s) =>
    let r := BitVec.ofNat 256 (leNat bs)
    let code := s.migrCheck world r
    if code ≠ 0 then drop (s.answer b w id (BitVec.ofNat 32 code))
    else
      (s.modOp b w id fun o => { o with phase := 1, lanes := o.lanes.map fun x => { x with data := r.setWidth 512 } }).modWorld world
        fun x => if x.migrq.contains (b, w, id) then x else { x with migrq := x.migrq ++ [(b, w, id)] }

/-- The command at the head of a world's queue, if it has been read and has this OP: its key, the command, its
progress. -/
def State.migrHead (s : State) (world op : Nat) : Option ((Nat × Nat × Nat) × BitVec 256 × Nat) :=
  match (s.world world).migrq.head? with
  | some k =>
    match (s.wv k.1 k.2.1).op? k.2.2 with
    | some o =>
      let r := ((o.lanes.headD {}).data).setWidth 256
      if o.phase = 1 && mgOp r = op then some (k, r, (s.world world).migrDone) else none
    | none => none
  | none => none

/-- A command ends with its status: DONE and CODE. -/
def State.migrEnd (s : State) (world : Nat) (k : Nat × Nat × Nat) (done code : Nat) : State :=
  (s.answer k.1 k.2.1 k.2.2 (BitVec.ofNat 32 (done * 256 + code))).migrDrop world k

/-- Progress of the command at the head. -/
def State.migrStep (s : State) (world done : Nat) : State := s.modWorld world fun x => { x with migrDone := done }

/-- The image at a PA that `world` wrote and nothing has touched since. -/
def State.image (s : State) (world pa : Nat) : Option Image :=
  s.images.find? fun m => m.pa == pa && m.world == world && !((List.range (m.len / 128 + 2)).any fun i => s.bad world (pa + 128 * i))

/-- Bytes of image payload `n` of a DEMOTE whose images are numbered from `use`. -/
def imageLen (use n : Nat) : Nat := 16 * (Config.imageLen (use + n) % 4097)
/-- Bytes that the first `n` images of a DEMOTE take. -/
def imageBytesTo (use n : Nat) : Nat := ((List.range n).map fun i => 16 + imageLen use i).sum
/-- The images from a PA on that a PROMOTE would read, up to one that fails, lie in the world's grant (R60, R88). -/
def State.imagesFit (s : State) (world pa : Nat) : Nat → Bool
  | 0 => true
  | n + 1 =>
    match s.image world pa with
    | none => true
    | some m => s.inTier world pa (16 + m.len) true && State.imagesFit s world (pa + 16 + m.len) n

/-- Bytes of an image: the length and RAW of its header, then what only the part knows (R88). -/
def imageBytes (pa use len : Nat) (raw : Bool) : List Byte :=
  natBytes 8 (len + raw.toNat * 2 ^ 32) ++ (List.range (len + 8)).map fun i => Config.imageByte pa i use

/-- MIGR_DEMOTE (R88): the next frame of a DEMOTE becomes an image. `done` counts the bytes of complete images. Before the
first, images that would run out of the grant end the command with CODE 4, and nothing moves. -/
def execMigrDemote (world : Nat) (s : State) : Host.Outcome State Fault Refusal :=
  match s.migrHead world 1 with
  | none => .next s
  | some (k, r, prog) =>
    let frames := prog % 65536
    let bytes := prog / 65536
    match ((((s.wv k.1 k.2.1).op? k.2.2).getD {}).lanes.headD {}).aux with
    | [] =>
      let s1 : State := { s with free := s.free + mgCount r }
      if !s.inTier world (mgDst r) (imageBytesTo s.free (mgCount r)) true then .next (s1.migrEnd world k 0 4)
      else .next (s1.modOp k.1 k.2.1 k.2.2 fun o => { o with lanes := o.lanes.map fun x => { x with aux := [s.free] } })
    | use :: _ =>
      if frames = mgCount r then .next (s.migrEnd world k (bytes / 16) 0)
      else
        let src := mgSrc r + 65536 * frames
        let pa := mgDst r + bytes
        match s.engRead world (directIA world src) 65536 with
        | (.error f, s) => .next ((s.logFault f none world src).migrEnd world k (bytes / 16) 1)
        | (.ok bs, s) =>
          let len := imageLen use frames
          let img : Image := { pa, world, frame := memPut [] 0 bs, len }
          let s : State :=
            { s with
              mem := memPut s.mem pa (imageBytes pa (use + frames) len (len = 65536))
              images := img :: s.images.filter fun m => m.pa + 16 + m.len ≤ pa || pa + 16 + len ≤ m.pa }
          .next (s.migrStep world ((bytes + 16 + len) * 65536 + frames + 1))

/-- MIGR_PROMOTE (R88): the next image of a PROMOTE becomes a frame. Before the first, images that run out of the grant
end the command with CODE 4, and nothing moves. -/
def execMigrPromote (world : Nat) (s : State) : Host.Outcome State Fault Refusal :=
  match s.migrHead world 2 with
  | none => .next s
  | some (k, r, prog) =>
    let frames := prog % 65536
    let bytes := prog / 65536
    if frames = mgCount r then .next (s.migrEnd world k frames 0)
    else if frames = 0 ∧ !s.imagesFit world (mgSrc r) (mgCount r) then .next (s.migrEnd world k 0 4)
    else
      let pa := mgSrc r + bytes
      match s.image world pa with
      | none => .next ((s.log 5 (some 0x14) none world pa).migrEnd world k frames 1)
      | some m =>
        match s.engWrite world (directIA world (mgDst r + 65536 * frames)) (memBytes m.frame 0 65536) with
        | (some f, s) => .next ((s.logFault f none world pa).migrEnd world k frames 1)
        | (none, s) => .next (s.migrStep world ((bytes + 16 + m.len) * 65536 + frames + 1))

/-- The frames of a COPYF from its first, up to one that cannot be read. -/
def State.readFrames (s : State) (world src : Nat) : Nat → List (List Byte) × Option WalkFault × State
  | 0 => ([], none, s)
  | n + 1 =>
    match s.engRead world (directIA world src) 65536 with
    | (.error f, s) => ([], some f, s)
    | (.ok bs, s) =>
      let (l, f, s) := State.readFrames s world (src + 65536) n
      (bs :: l, f, s)

/-- MIGR_COPYF (R88): every frame is read before any is written where the ranges overlap, one frame at a time where they
do not. -/
def execMigrCopyf (world : Nat) (s : State) : Host.Outcome State Fault Refusal :=
  match s.migrHead world 3 with
  | none => .next s
  | some (k, r, done) =>
    let n := mgCount r
    let overlap := mgSrc r < mgDst r + n * 65536 && mgDst r < mgSrc r + n * 65536
    let take := if overlap then n - done else min 1 (n - done)
    if take = 0 then .next (s.migrEnd world k done 0)
    else
      let (fs, err, s) := s.readFrames world (mgSrc r + 65536 * done) take
      let s := fs.zipIdx.foldl (fun s e => (s.engWrite world (directIA world (mgDst r + 65536 * (done + e.2))) e.1).2) s
      let done := done + fs.length
      match err with
      | some f => .next ((s.logFault f none world (mgSrc r + 65536 * done)).migrEnd world k done 1)
      | none => .next (s.migrStep world done)

/-- The atomic of a MAPSET or MAPCLR, and what it invalidates (R275, R276, R88): the code. -/
def State.mapBit (s : State) (world bit : Nat) (set : Bool) : Nat × State :=
  let ia := bit / 8
  let bad (f : WalkFault) (s : State) : Nat × State := (if f.1 = 0x14 then 1 else 5, s.logFault f none world ia)
  match s.engRead world ia 1 with
  | (.error f, s) => bad f s
  | (.ok bs, s) =>
    let m : Byte := 1#8 <<< (bit % 8)
    let b := bs.headD 0
    match s.engWrite world ia [if set then b ||| m else b &&& ~~~m] with
    | (some f, s) => bad f s
    | (none, s) =>
      (0, { s with
            cores := s.cores.map fun e =>
              (e.1, { e.2 with
                      resid := e.2.resid.filter fun x => x.1 != world * 2 ^ 52 + ia / 4 * 4
                      filter := e.2.filter.filter fun x => x != (world, bit) }) })

/-- MIGR_MAPSET (R88). -/
def execMigrMapset (world : Nat) (s : State) : Host.Outcome State Fault Refusal :=
  match s.migrHead world 4 with
  | none => .next s
  | some (k, r, _) =>
    let (code, s) := s.mapBit world (mgMap r) true
    .next (s.migrEnd world k (if code = 0 then 1 else 0) code)

/-- A lookup of the world has consulted residency bits and has not returned (R88). -/
def State.lookupsOut (s : State) (world : Nat) : Bool :=
  (List.range s.blocks.length).any fun b => (s.launchOf b).world == world && (s.blk b).waves.any fun v =>
    v.ops.any fun o => (match o.kind with | .tex _ _ => true | _ => false) &&
      o.lanes.any fun l => l.st == .ready || (l.st == .pending && l.aux ≠ [])

/-- MIGR_MAPCLR (R88): the bit is cleared, and the command completes once every lookup that consulted it has returned. -/
def execMigrMapclr (world : Nat) (s : State) : Host.Outcome State Fault Refusal :=
  match s.migrHead world 5 with
  | none => .next s
  | some (k, r, done) =>
    if done = 0 then
      let (code, s) := s.mapBit world (mgMap r) false
      .next (if code = 0 then s.migrStep world 1 else s.migrEnd world k 0 code)
    else if s.lookupsOut world then .next s
    else .next (s.migrEnd world k 1 0)

/-! ### Carrying out -/

/-- Carry out a PRIV operation that waits for its unit. -/
def State.performPriv (s : State) (b w id : Nat) : State :=
  match (s.wv b w).op? id with
  | none => s
  | some op =>
    match op.lanes.find? fun l => l.st == .pending with
    | none => s
    | some l =>
      match op.kind with
      | .pin ctl =>
        (match s.pinAll (s.launchOf b).world (l.ia / 65536) (fld ctl 31 16) with
         | (some x, s) => s.answer b w id (BitVec.ofNat 32 x)
         | (none, s) => s)
      | .unpin ctl => let (x, s) := s.unpinAll (l.ia / 65536) (fld ctl 31 16); s.answer b w id (BitVec.ofNat 32 x)
      | .frpop =>
        let (r, s) := s.popFault (s.launchOf b).world
        s.modOp b w id fun o => { o with lanes := o.lanes.map fun (l : LaneOp) => { l with st := .ready, res := [frpopWord r l.lane] } }
      | .migr => if op.phase = 0 then s.migrRead b w id l else s
      | _ => s

/-! ### DBGHALT and DBGRES (R439–R441) -/

/-- The core to which a debug request goes: the target's, or the requester's where there is none. -/
def State.debugCore (s : State) (b : Nat) : Nat := match s.target b with | some t => (s.blk t).core | none => (s.blk b).core

/-- The check of R439, and the operation. -/
def Ctx.debugOp (c : Ctx) (halt : Bool) (d : Field) (a : BitVec 4) (s : State) : Act :=
  let t := c.bc a
  if fld t 31 10 ≠ 0 || fld t 9 8 = 1 || (!halt && fld t 9 8 ≠ 0) then c.ctlTrap 0x12 t
  else
    match c.once (if halt then .dbghalt t else .dbgres t) d 0 0 t s with
    | .done s => .done (s.modCore (s.debugCore c.b) fun k => { k with dbg := k.dbg ++ [(c.b, c.w, c.wv.nextOp)] })
    | x => x

/-- R439. -/
def execDbghalt (y : Bool) (d : Field) (a : BitVec 4) (s : State) : Host.Outcome State Fault Refusal :=
  let i := info (.dbghalt y d a)
  issue i y s fun c s => c.debugOp true d a s

/-- R439. -/
def execDbgres (y : Bool) (d : Field) (a : BitVec 4) (s : State) : Host.Outcome State Fault Refusal :=
  let i := info (.dbgres y d a)
  issue i y s fun c s => c.debugOp false d a s

/-- Hold a path: HSTATE takes its state (R343). -/
def Path.hold (p : Path) : Path := { p with st := .held, hst := p.st }

/-- A path as DBGRES leaves it: one held between two words goes on with its next; one at the saddle latch stays there. -/
def Path.unhold (p : Path) (latched : Bool) : Path :=
  { p with
    st := p.hst, hst := .free, broken := false
    blocked := if p.hst = .run ∧ p.blocked.isNone then some .fetch else p.blocked
    again := if latched then p.again else true }

/-- A path of a wave leaves its hold: what reached it meanwhile takes effect, the break of a quorum that it waited for
among it (R343). -/
def State.unholdPath (s : State) (b w p : Nat) : State :=
  let v := s.wv b w
  let x := v.path p
  let s := s.modWv b w fun v => { v with paths := resolveJoins (v.paths.modify p fun x => x.unhold (v.saddlePath == some p)) }
  let s : State :=
    if x.broken then
      let t := s.takeTrap b w p ((s.ctxAt b w p).trap 0x21)
      if fld x.word 29 24 = 0x25 ∨ (t.wv b w).st = .done then t.quorumBreak b 64 [w] else t
    else s
  (s.takePending b w |>.checkBars b).checkCbars b

/-- R359 with no faulting lanes, for a halt of one side of melded path `p`. Of a FAULT path each half whose lanes have a
deferred access, and each half of an access made once for the path, stays FAULT where it was parked; the other one is RUN,
and the accesses go with their lanes. The halves of a path that RETRY has released stay FAULT until the accesses of their
lanes have returned (R81). -/
def Wave.sideSplit (v : Wave) (p : Nat) : Wave :=
  let x := v.path p
  let ps := (meldSplit v.paths p 0).1
  if x.st != .fault then { v with paths := ps }
  else
    let mine := v.deferred.filter fun d => d.path == p
    let due (m : Word) : Bool := mine.any fun d => d.op.once || d.op.lanes.any fun l => bitAt m l.lane
    let half (i : Nat) : Bool := (v.path i).live == false && (ps.getD i default).live
    let owner (ln : Nat) : Nat := ((List.range 8).find? fun i => half i && bitAt (ps.getD i default).full ln).getD p
    let parts (d : Deferred) : List Deferred :=
      if d.path ≠ p || d.op.once then [d]
      else ((p :: (List.range 8).filter half).map fun i =>
        { d with path := i, op := { d.op with lanes := d.op.lanes.filter fun l => owner l.lane == i } }).filter fun d => d.op.lanes ≠ []
    { v with
      deferred := v.deferred.flatMap parts
      paths := ps.mapIdx fun i y =>
        if (i ≠ p && !half i) || x.retrying then y
        else if due y.full then { y with st := .fault, parkedAt := x.parkedAt, parked := x.parked, wtFull := x.wtFull, retrying := x.retrying }
        else { y with st := .run, parkedAt := [], parked := false, wtFull := false, retrying := false } }

/-- Halt a path (R440): the status, and the wave. -/
def Wave.haltPath (v : Wave) (p side : Nat) : Nat × Wave :=
  let x := v.path p
  let whole (k : Nat) : Nat × Wave := (k, v.modPath p Path.hold)
  if side = 0 || x.mode ≠ .melded then whole 0
  else
    let rb := x.full &&& x.side
    let ra := x.full &&& ~~~x.side
    if ra ≠ 0 && rb ≠ 0 && freeEntries v.paths = [] then whole 3
    else
      let v := v.sideSplit p
      let named := (List.range 8).find? fun i =>
        let y := v.path i
        y.live && y.mode == (if side = 2 then .sideA else .sideB) && y.full == (if side = 2 then ra else rb) &&
          (i == p || y.parent == some p)
      (0, match named with
          | some i => v.modPath i Path.hold
          | none => v)

/-- R440 on the wave of a target block: the status. -/
def State.debugApply (s : State) (t w p side : Nat) (halt : Bool) : Nat × State :=
  let v := s.wv t w
  let x := v.path p
  let shut := (s.blk t).st == .resident && s.closing (s.blk t).core
  if !x.live then (1, s)
  else if halt && shut then (5, s.modWv t w fun v => { v with pendDebug := setBit8 v.pendDebug p true })
  else if !halt && (shut || v.st == .saved) then (5, s.modWv t w fun v => { v with pendRes := setBit8 v.pendRes p true })
  else if halt == (x.st == .held) then (2, s)
  else if halt then
    let (k, v) := v.haltPath p side
    (k, s.modWv t w fun _ => v)
  else (0, s.unholdPath t w p)

/-- The wave that a request names runs ahead: the request waits until its checkpoint is back (R77, R438), except where it
would only be recorded (R421). -/
def State.debugWaits (s : State) (k w : Nat) : Bool :=
  (s.blk k).st == .resident && (s.wv k w).ra.isSome && !s.closing (s.blk k).core

/-- DBGHALT_APPLY (R440): the oldest request at a core is applied. -/
def execDbghaltApply (core : Nat) (s : State) : Host.Outcome State Fault Refusal :=
  match (s.core core).dbg with
  | [] => .next s
  | (b, w, op) :: rest =>
    let s0 := s
    let s := s.modCore core fun k => { k with dbg := rest }
    match (s.wv b w).op? op with
    | none => .next s
    | some o =>
      let (halt, t) : Bool × Word := match o.kind with | .dbghalt t => (true, t) | .dbgres t => (false, t) | _ => (false, 0)
      let wave := fld t 4 0
      if (match s.target b with | some k => s.debugWaits k wave | none => false) then .next s0
      else
      let (x, s) : Nat × State := match s.target b, s.attached b with
        | some k, _ => if (s.blk k).waves.length ≤ wave then (4, s) else s.debugApply k wave (fld t 7 5) (fld t 9 8) halt
        | none, some l =>
          let y := s.launches.getD l default
          if recNw y.record ≤ wave || atBlock (s.blk b).attach < y.nextBlock then (4, s) else (1, s)
        | none, none => (4, s)
      .next (s.answer b w op (BitVec.ofNat 32 x))

end Sys2Proof.Machine
end

