-- ==== Sys2Proof/Machine/Preempt.lean ====
section
/-! DEFINITION. Pre-emption and restore (spec/17 R403, R404), overrun records (spec/18 R415–R418), displacement (spec/16
R383) and wait-cycle probes (spec/16 R384, spec/20 R447). -/

namespace Sys2Proof.Machine

open Sys2Proof

/-! ### Stopping (R403 steps 1, 2) -/

/-- The blocks of a block's cluster. -/
def State.mates (s : State) (b : Nat) : List Nat := (s.clusters.getD (s.blk b).cluster {}).members

/-- No wave of a block issues after its current slot; a run-ahead in progress goes no further (R83), and a sleep ends
(R329). -/
def State.stopBlock (s : State) (b : Nat) : State :=
  s.modBlk b fun k =>
    { k with stopping := true
             waves := k.waves.map fun v => { v with sleepUntil := none, ra := v.ra.map fun r => { r with ended := true } } }

/-- A wave has nothing outstanding. -/
def Wave.drained (v : Wave) : Bool :=
  v.ops == [] && v.lc == 0 && v.sc == 0 && v.cc == 0 && v.mc == 0 && v.ra.isNone

/-- A copy holds pins and ownership for a segment. -/
def Copy.inSegment (c : Copy) : Bool := c.st == .pinned || c.st == .moved

/-- A measurement-extension request of the block has not been answered (R393). -/
def State.mextPending (s : State) (b : Nat) : Bool := (s.world (s.launchOf b).world).mextq.any fun e => e.1 == b

/-- A block is ready to be saved (R403 step 2). -/
def State.drained (s : State) (b : Nat) : Bool :=
  (s.blk b).waves.all Wave.drained && !s.mextPending b && !(s.copies.any fun c => c.wave / 32 == b && c.inSegment)

/-! ### The save (R403 step 3) -/

/-- A wave's context as it is saved: it holds no entry of the core's wait table, saddle latch or arbiter, and no word that
it has fetched. What RETRY has released and not re-issued is released again at the restore (R83). -/
def Wave.toSaved (v : Wave) : Wave :=
  if v.st ≠ .live then { v with freed := true }
  else
    let scPath := if v.scwait ≠ [] ∨ v.scKeys ≠ [] then v.excl else none
    { v with
      st := .saved, saddle := none, scwait := [], scKeys := [], ypark := false, slotEnd := 0, lastCls := none
      deferred := v.deferred.map fun d => { d with keys := [], again := false }
      paths := v.paths.mapIdx fun i p =>
        { p with
          words := [], retrying := false, parkedAt := [], parked := false, wtFull := false
          phase := if some i = scPath then 0 else p.phase } }

/-- The wave comes back only to its core (R265). -/
def State.pins? (s : State) (b : Nat) : Bool :=
  (s.blk b).waves.any fun v => v.frags.any (fun f => f.places ≠ 0) ||
    (match v.rjob with
     | some va => (s.core (s.blk b).core).rjobs.any (isJob (recAsid (s.launchOf b).record) va)
     | none => false)

/-- Bytes of the shadow store that a world's saved contexts hold. -/
def State.shadowUsed (s : State) (world : Nat) : Nat :=
  ((List.range s.blocks.length).map fun b =>
    match (s.blk b).st, (s.blk b).spill with
    | .saved _, none => if (s.launchOf b).world = world then s.saveSize b else 0
    | _, _ => 0).foldl (· + ·) 0

/-- The first place of `n` bytes in a world's spill region that no saved context holds. -/
def State.spillRoom (s : State) (world n : Nat) : Option Nat :=
  let lo := wrSpillpa (s.world world).record
  let held := (List.range s.blocks.length).filterMap fun b =>
    match (s.blk b).st, (s.blk b).spill with
    | .saved _, some a => if (s.launchOf b).world = world then some (a, roundUp (s.saveSize b) 128) else none
    | _, _ => none
  (sortBy (fun a b => a ≤ b) (lo :: held.map fun e => e.1 + e.2)).find? fun a =>
    a + n ≤ lo + wrSpillsize (s.world world).record && held.all fun e => e.1 + e.2 ≤ a || a + n ≤ e.1

/-- Where the context of a block goes (R412): `none` without room, `some none` in the shadow store, within the world's share
and the store's 3 GiB (R17). -/
def State.saveRoom (s : State) (b : Nat) : Option (Option Nat) :=
  let world := (s.launchOf b).world
  let size := (layoutOf (s.launchOf b).record).d + 1024 * (s.blk b).deferredList.length + 128 * (s.copiesOf b).length
  if s.shadowUsed world + size ≤ Config.shadowShare world ∧ (((List.range 12).map s.shadowUsed).foldl (· + ·) size) ≤ 3 * 2 ^ 30 then
    some none
  else (s.spillRoom world (roundUp size 128)).map some

/-- Save a drained block in the place found for it (R83, R131, R403, R405). -/
def State.saveBlock (s : State) (b : Nat) (place : Option Nat) : State :=
  let world := (s.launchOf b).world
  let s := (List.range (s.blk b).waves.length).foldl (fun s w =>
    if (s.wv b w).st == .live then s.recordsAtSave b w else s) s
  let pinned := s.pins? b
  let order := (s.world world).saves
  let s := (s.modBlk b fun k =>
    { k with st := .saved order, stopping := false, pinned, spill := place, waking := [], waves := k.waves.map Wave.toSaved }).modWorld world
    fun x => { x with saves := x.saves + 1 }
  match place with
  | none => s
  | some pa =>
    let bytes := (List.range (s.saveSize b / 4)).flatMap fun i => natBytes 4 (s.saveWord b (4 * i)).toNat
    (s.engWrite world (directIA world pa) bytes).2

/-- Save a cluster, block by block, where there is room; the blocks that find none are returned. Without a spill region the
first that finds the share full leaves none for those after it (R412). -/
def State.saveAll (s : State) (bs : List Nat) : List Nat × State :=
  bs.foldl (fun (r : List Nat × State) b =>
    let shut := r.1 ≠ [] && wrSpillsize (s.world (s.launchOf b).world).record == 0
    match if shut then none else r.2.saveRoom b with
    | some place => (r.1, r.2.saveBlock b place)
    | none => (r.1 ++ [b], r.2)) ([], s)

/-! ### Overrun records (R416–R418) -/

/-- What an overrun record reports of one instruction or copy. -/
structure Over where
  block : Nat := 0
  wave : Nat := 0
  kind : Nat := 6
  pc : DWord := 0
  va : Nat := 0
  written : Word := 0
  cancelled : Word := 0
  segdone : Nat := 0
  batch : Nat := 0
deriving DecidableEq, Repr, Inhabited

/-- KIND of R417 for an operation. -/
def OpKind.overKind : OpKind → Nat
  | .store _ _ | .storeE _ | .storeLocal _ => 0
  | .atomic _ _ _ _ _ | .atomicLocal _ => 1
  | .remStore _ _ => 2
  | .remLoad _ _ | .remAtomic _ => 3
  | .tstg _ _ _ _ => 5
  | _ => 6

/-- An operation that changes memory (R416). -/
def OpKind.changes (k : OpKind) : Bool := k.overKind < 3 || k.overKind == 5 || (match k with | .remAtomic _ => true | _ => false)

/-- The operation has a result that is still to reach registers: a reduction has none (R176). -/
def OpKind.result (k : OpKind) : Bool :=
  k.hasDst && k.overKind ≠ 5 && (match k with | .atomic _ _ _ ret _ => ret | _ => true)

/-- What R416 makes of an operation of a wave. A lane that has faulted is no lane in flight; one that has taken effect and
whose old value is still due is both written and discarded. -/
def overOf (b w : Nat) (v : Wave) (o : AsyncOp) : Over :=
  let kind := o.kind.overKind
  let gone (l : LaneOp) : Bool := v.deferred.any fun d => d.op.id == o.id && d.op.lanes.any fun x => x.lane == l.lane
  let lanes := o.lanes.filter fun l => !gone l
  let effect := o.kind.changes
  let result := o.kind.result
  let out (l : LaneOp) : Bool := l.st == .ready || l.st == .returned
  let written := lanes.filter fun l => effect && out l
  let lost := lanes.filter fun l => l.st != .returned && !(effect && l.st == .ready && !result)
  let mask (l : List LaneOp) : Word := maskOf fun i => l.any fun x => x.lane == i
  { block := b, wave := w, kind, pc := o.pc, va := ((lost.head?.map LaneOp.va).getD 0).toNat, written := mask written, cancelled := mask lost }

/-- Write overrun records of a shutter for one ridge, after the `base` that it has written, of `total` (R417). A full log
drops them. -/
def State.writeOvers (s : State) (ridge base total : Nat) (os : List Over) : State :=
  let r := s.ridges.getD ridge {}
  os.zipIdx.foldl (fun s e =>
    let o := e.1
    let l := s.launchOf o.block
    let hia := wrOvria (s.world l.world).record
    let bits (tail : Nat) : Nat :=
      fieldsNat
        [(448, o.va % 2 ^ 64), (384, o.pc.toNat), (352, o.written.toNat), (320, o.cancelled.toNat), (288, o.segdone % 2 ^ 32),
         (256, o.batch % 2 ^ 32), (224, (s.blk o.block).idx % 2 ^ 32), (192, tail % 2 ^ 32), (128, l.va.toNat), (64, r.edge % 2 ^ 64),
         (48, recAsid l.record), (40, (s.blk o.block).core % 256), (32, (s.wv o.block o.wave).slot % 256), (24, o.kind), (16, r.entry % 256),
         (8, (base + e.2) % 256), (0, min total 255)]
    match s.ringAppend l.world hia 64 65536 4096 64 (fun a => if iaRegion a = l.world then some a else none)
        fun tail => natBytes 64 (bits tail) with
    | (.full, s) => s.ringDrop l.world hia
    | (_, s) => s) s

/-- A block is discarded, its context lost: nothing of it runs any more, what it waits for is withdrawn, its copies stop, and
its exit record has this END (R416, R446). -/
def State.loseBlock (s : State) (b code : Nat) : State :=
  let c := s.ctxAt b 0 0
  -- a run-ahead's registers are not the wave's
  let s := s.modBlk b fun k => k.waves.zipIdx.foldl (fun (k : Block) e =>
    match e.1.ra with
    | some r => { k with v := r.savedV.foldl (fun v x => SMap.ins x.1 x.2 v) (k.v.filter fun x => !k.waveRows c.nw c.B c.X e.2 x.1) }
    | none => k) k
  let s := s.modBlk b fun k =>
    { k with stopping := false, waves := k.waves.map fun v => { v with ops := [], lc := 0, sc := 0, cc := 0, mc := 0, ra := none, armed := none } }
  let s : State :=
    { s with
      ownWait := s.ownWait.filter fun e => e.2.1 ≠ b
      wakeWait := s.wakeWait.filter fun e => e.2.1 ≠ b
      casTries := s.casTries.filter fun e => e.1 ≠ b
      cores := s.cores.map fun e => (e.1, { e.2 with matq := e.2.matq.filter fun m => m.block ≠ b, reports := e.2.reports.filter fun x => x.1 ≠ b }) }
  let s := (s.copiesOf b).foldl (fun s x => s.copyStop x.id (if code = 4 then 4 else 3) 0 0 0) s
  let s := s.discardBlock b code
  let s := (List.range (s.blk b).waves.length).foldl (fun s w =>
    (List.range (s.wv b w).openBatches).foldl (fun s _ => s.finishBatch b w ((s.wv b w).openBatch - (s.wv b w).openBatches)) s) s
  s.modBlk b fun k => { k with st := .discarded, waves := k.waves.map fun v => { v with freed := true } }

/-- The blocks of some clusters are discarded, and the launch completes with STATUS 3 (R416, R418). -/
def State.overrunBlocks (s : State) (bs : List Nat) : State :=
  bs.foldl (fun s b =>
    let s := (s.loseBlock b 4).modLaunch (s.blk b).launch fun l => { l with overrun := true }
    (s.log 2 (some 0x32) (some (s.blk b).core) (s.launchOf b).world ((s.launchOf b).va.toNat + (s.blk b).idx * 2 ^ 64))) s

/-! ### Restore (R404) -/

/-- Raster jobs saved at a SCRUB come back with the waves that have them open (R265, R420). -/
def State.jobsBack (s : State) (b : Nat) : State :=
  let asid := recAsid (s.launchOf b).record
  let mine (j : RJob) : Bool := (s.blk b).waves.any fun v => match v.rjob with | some va => isJob asid va j | none => false
  s.modCore (s.blk b).core fun k => { k with rjobs := k.rjobs ++ k.heldJobs.filter mine, heldJobs := k.heldJobs.filter fun j => !mine j }

/-- Resumptions that the debug window has held for a wave: each is applied once the pending DEBUG event of its path has been
taken (R421). -/
def State.takeRes (s : State) (b w : Nat) : State :=
  (List.range 8).foldl (fun s p =>
    if (s.wv b w).pendRes.getLsbD p && !(s.wv b w).pendDebug.getLsbD p then
      let s := s.modWv b w fun v => { v with pendRes := setBit8 v.pendRes p false }
      if ((s.wv b w).path p).st == .held then s.unholdPath b w p else s
    else s) s

/-- A restored wave before its first issue: FAULT paths as if replayed with RETRY (R83), then the pending events: DEBUG,
DELIVER, and the resumptions (R394, R404, R421). -/
def State.wakeWave (s : State) (b w : Nat) : State :=
  if (s.wv b w).st ≠ .saved then s
  else
    let s := s.modWv b w fun v =>
      { v with
        st := .live, waitSince := s.clk, readySince := s.clk, followSince := s.clk, probedAt := s.clk
        paths := v.paths.map fun p => { p with again := true } }
    let s := (List.range 8).foldl (fun s p =>
      let v := s.wv b w
      if (v.path p).isFault && !(v.path p).retrying && !v.pendDeliver.getLsbD p then s.release b w p else s) s
    (s.takePending b w).takeRes b w

/-- A block's copies are issued again in their order, after those that the core's unit holds (R131): of a copy, its operands,
record, next segment and batch have been kept. -/
def State.reissueCopies (s : State) (b : Nat) : State :=
  let top := (s.copies.map Copy.id).foldl max 0
  let mine := s.copiesOf b
  { s with copies := (s.copies.filter fun c => !mine.contains c) ++ mine.zipIdx.map fun e =>
      { e.1.idle .queued with id := top + 1 + e.2, lines := [] } }

/-- Restore a saved block to a core. -/
def State.restoreBlock (s : State) (b core : Nat) : State :=
  let s := (s.prepareCore core (s.blk b).launch).l1Clear core
  let s := s.modBlk b fun k => { k with st := .resident, core, displaced := false, pinned := false, spill := none }
  let s := (((s.wakeBanks b).bind b).jobsBack b).reissueCopies b
  (List.range (s.blk b).waves.length).foldl (fun s w => s.wakeWave b w) s

/-- The save order of a saved block. -/
def Block.saveOrder (k : Block) : Option Nat := match k.st with | .saved n => some n | _ => none

/-- A core for each saved block of a cluster on one ridge, starting from a core chosen for one of them. -/
def State.restorePlaces (s : State) (bs : List Nat) (first core : Nat) : Option (List (Nat × Nat)) × State :=
  let cores := (List.range 8).map (core / 8 * 8 + ·)
  let room (l : List (Nat × Nat)) (b c : Nat) : Bool :=
    let n := (l.filter fun e => e.2 == c).length
    s.restorable b c && s.fits c (s.launchOf b).world (s.launchOf b).record (n + 1) && (s.launchOf b |>.coresOf (core / 8)).contains c
  let start := (bs.filter (· == first)).map (·, core)
  if !(start.all fun e => room [] e.1 e.2) then (none, s)
  else
    (bs.filter (· != first)).foldl (fun (r : Option (List (Nat × Nat)) × State) b =>
      match r.1 with
      | none => r
      | some l =>
        match cores.filter (room l b) with
        | [] => (none, r.2)
        | cs => let (c, s) := r.2.pick cs; (some (l ++ [(b, c)]), s)) (some start, s)

/-- The saved blocks of a cluster. -/
def State.savedMates (s : State) (b : Nat) : List Nat := (s.mates b).filter fun m => (s.blk m).saveOrder.isSome

/-- The context of a saved block fails its check (R415). -/
def State.contextBad (s : State) (b : Nat) : Bool :=
  match (s.blk b).spill with
  | some pa => (List.range (s.saveSize b / 128 + 1)).any fun i => s.bad (s.launchOf b).world (pa + 128 * i)
  | none => false

/-- Restore a cluster to a ridge, or discard it where a context fails its check. -/
def State.restoreCluster (s : State) (b core : Nat) : State :=
  let bs := s.savedMates b
  match s.restorePlaces bs b core with
  | (none, s) => s
  | (some places, s) =>
    match bs.find? s.contextBad with
    | some x =>
      let os := bs.flatMap fun m => (List.range (s.blk m).waves.length).map fun w => ({ block := m, wave := w, kind := 7 } : Over)
      let s := s.log 5 (some 0x14) none (s.launchOf b).world ((s.blk x).spill.getD 0)
      (s.writeOvers (core / 8) 0 os.length os).overrunBlocks bs
    | none => places.foldl (fun s e => s.restoreBlock e.1 e.2) s

/-- A wave is parked: no path of it can issue (R335). -/
def Wave.parkedNow (v : Wave) : Bool := v.st != .done && !v.ypark && v.ra.isNone && v.stateNum == 1

/-- A wave is parked on a grid latch that has not been released (R383). -/
def Wave.onLatch (v : Wave) : Bool := v.parkedNow && (v.glatch == .pending || (v.glatch == .applied && !v.greleased)) &&
  v.paths.any fun p => p.st == .run && p.word &&& 0x7FFFFFFF#32 == 0x2EE00000#32 && p.blocked.isSome

/-- It is the turn of a saved block: no block that a shutter saved before it waits for a ridge it could use; a displaced
block waits for the undispatched blocks of its launch, and for those displaced before it (R383, R413 OPEN). -/
def State.restoreTurn (s : State) (b core : Nat) : Bool :=
  let world := (s.launchOf b).world
  let l := (s.blk b).launch
  let earlier (m : Nat) : Bool := match (s.blk m).saveOrder, (s.blk b).saveOrder with | some x, some y => x < y | _, _ => false
  let others := (List.range s.blocks.length).filter fun m => earlier m && !(s.mates b).contains m
  if (s.blk b).displaced then
    !s.restorePending world && !s.roomOn (s.launches.getD l default) (core / 8) &&
      !others.any fun m => (s.blk m).launch == l && (s.blk m).displaced && s.restorable m core && !((s.blk m).waves.any Wave.onLatch)
  else !others.any fun m => (s.launchOf m).world == world && !(s.blk m).displaced && s.restorable m core

/-- BLOCK_RESTORE (R404): a saved block, with the rest of its cluster, comes back to a core. -/
def execBlockRestore (b core : Nat) (s : State) : Host.Outcome State Fault Refusal :=
  if (s.blk b).saveOrder.isSome && s.ridgeOpen (s.launchOf b).world (core / 8) && s.restoreTurn b core then .next (s.restoreCluster b core)
  else .next s

/-! ### Readiness and stall reasons (R335, R338, R443) -/

/-- A copy of the wave, issued again at a restore, has found its core's unit full (R124, R131). -/
def State.copyShort (s : State) (b w : Nat) : Bool := s.copies.any fun c => c.wave == b * 32 + w && c.st != .done && !s.inUnit c

/-- No wait of the wave as a whole holds it (R35, R76, R131, R160, R329, R403). -/
def State.waveOpen (s : State) (b w : Nat) : Bool :=
  let k := s.blk b
  let v := s.wv b w
  k.st == .resident && !k.stopping && k.waking == [] && v.st == .live && !v.ypark && v.sleepUntil.isNone && !s.copyShort b w &&
    (match v.yieldUntil with | some t => t ≤ s.clk | none => true) &&
    (match v.ra with | some r => !r.ended | none => !v.delivering)

/-- The path can issue its next word (`State.retrial`): in run-ahead only its own path does (R77). -/
def Wave.qualifies (v : Wave) (p : Nat) : Bool :=
  match v.ra with
  | some r => p == r.path && (v.path p).st == .run
  | none => v.mayIssue p

/-- Some path of the wave can issue, once its slot is over. -/
def State.ready (s : State) (b w : Nat) : Bool :=
  s.waveOpen b w && (List.range 8).any (s.wv b w).qualifies

def Stall.num : Stall → Nat
  | .park => 0 | .waitLd => 1 | .waitSt => 2 | .waitCo => 3 | .waitMx => 4 | .batch => 5 | .barrier => 6 | .cbarrier => 7
  | .ring => 8 | .quorum => 9 | .xreg => 10 | .token => 11 | .ordered => 12 | .pair => 13 | .fetch => 14 | .slot => 15

/-- The reasons for which a wave's paths do not issue. -/
def State.stallReasons (s : State) (b w : Nat) : List Stall :=
  let v := s.wv b w
  let live := v.paths.filter Path.live
  let h := v.tinfo.getLsbD 31
  (if v.ypark || v.sleepUntil.isSome || (h && 1 < live.length) || live.all (fun p => p.st == .held) then [Stall.park] else []) ++
  (if live.any fun p => p.acq.isSome then [Stall.waitLd] else []) ++
  (if s.copyShort b w then [Stall.batch] else []) ++
  live.filterMap (fun p => if p.st = .run ∧ !p.again then p.blocked else none) ++
  (if live.any fun p => p.st == .wait && (match p.waitOn with | .bar _ _ => true | _ => false) then [Stall.barrier] else []) ++
  (if s.ready b w || v.yieldUntil.isSome then [Stall.pair] else [])

/-- The one reason that counts (R443). -/
def State.stallReason (s : State) (b w : Nat) : Stall :=
  let v := s.wv b w
  let rs := s.stallReasons b w
  if s.closing (s.blk b).core then .slot
  else if rs.contains .fetch then .fetch
  else if rs.contains .token || v.paths.any (fun p => p.isFault && p.parked) then .token
  else rs.foldl (fun m r => if r.num < m.num then r else m)
    (rs.headD (if v.paths.any fun p => p.isFault then .token else .park))

/-! ### Displacement (R383) -/

/-- Parked on waits that no counter or batch ends; a wave whose live paths are all HELD counts as parked on one (R383, R441). -/
def State.parkedOther (s : State) (b w : Nat) : Bool :=
  let v := s.wv b w
  (v.parkedNow || (v.st != .done && v.stateNum == 2)) && !s.copyShort b w && (v.paths.filter fun p => p.st == .run).all fun p =>
    p.acq.isNone && !([Stall.waitLd, .waitSt, .waitCo, .waitMx, .batch].any fun r => p.blocked == some r)

/-- So parked for 1 ms (R383). -/
def State.parkedLong (s : State) (b w : Nat) : Bool :=
  s.parkedOther b w && s.clk ≥ (s.wv b w).waitSince + 1000 * cyclesPerUs

/-- Every live wave of the block is parked in GBAR.WAIT, or every one has been parked for long. -/
def State.displaceable (s : State) (b : Nat) : Bool :=
  let k := s.blk b
  let ws := (List.range k.waves.length).filter fun w => (s.wv b w).st != .done
  k.st == .resident && !k.stopping && ws ≠ [] && ((ws.all fun w => (s.wv b w).onLatch) || ws.all (s.parkedLong b))

/-- The blocks of a launch that could take the place of a displaced one: undispatched ones, or saved ones that are not
parked on an unreleased latch. -/
def State.hasHeir (s : State) (l : Nat) : Bool :=
  s.hasNext (s.launches.getD l default) ||
    (s.blocksOf l).any fun b => (s.blk b).saveOrder.isSome && !((s.savedMates b).any fun m => (s.blk m).waves.any Wave.onLatch)

/-- DISPLACE_BLOCK (R383): a displaceable block's cluster stops, to make room for a block of its launch. -/
def execDisplaceBlock (b : Nat) (s : State) : Host.Outcome State Fault Refusal :=
  let ms := (s.mates b).filter fun m => (s.blk m).st == .resident
  if s.blocks.length ≤ b || !(ms.all fun m => s.displaceable m || (s.blk m).waves.all fun v => v.st == .done) || !s.displaceable b ||
      !s.hasHeir (s.blk b).launch || !s.ridgeOpen (s.launchOf b).world ((s.blk b).core / 8) ||
      (s.launchOf b).cancelled then .next s
  else .next (ms.foldl (fun s m => (s.stopBlock m).modBlk m fun k => { k with displaced := true }) s)

/-- The heir of a displaced cluster takes its place: undispatched blocks first, then saved ones in the order of their
saves. -/
def State.fillPlace (s : State) (l : Nat) (gone cores : List Nat) : State :=
  let x := s.launches.getD l default
  if s.hasNext x && s.placement x cores then s.dispatch l cores
  else
    let heirs := (s.blocksOf l).filter fun b => (s.blk b).saveOrder.isSome && !gone.contains b && (s.savedMates b).headD b == b &&
      !((s.savedMates b).any fun m => (s.blk m).waves.any Wave.onLatch)
    match sortBy (fun a b => ((s.blk a).saveOrder.getD 0) ≤ ((s.blk b).saveOrder.getD 0)) heirs with
    | [] => s
    | b :: _ => s.restoreCluster b (cores.headD 0)

/-- PREEMPT_SAVE (R403): once a stopped cluster has drained it is saved, and for a displaced one its heir comes in. One
that finds no room for its context runs on. -/
def execPreemptSave (b : Nat) (s : State) : Host.Outcome State Fault Refusal :=
  let ms := (s.mates b).filter fun m => (s.blk m).st == .resident
  let k := s.blk b
  if s.blocks.length ≤ b || !k.stopping || s.closing k.core || !ms.all s.drained then .next s
  else
    let cores := ms.map fun m => (s.blk m).core
    match s.saveAll ms with
    | ([], s) => .next (if k.displaced then s.fillPlace k.launch ms cores else s)
    | _ => .next (ms.foldl (fun s m => s.modBlk m fun k => { k with stopping := false, displaced := false }) s)

/-! ### Wait-cycle probes (R384, R447) -/

/-- What a path waits for, as R384 follows it. -/
inductive Follow where
  /-- nothing that R384 follows -/
  | no
  /-- nothing of its own: a join, or an end -/
  | idle
  /-- these waves -/
  | on (ws : List (Nat × Nat))
deriving DecidableEq, Repr, Inhabited

/-- The word a path is held at, without its park bit. -/
def Path.heldWord (p : Path) : Nat := p.word.toNat % 2 ^ 31

/-- The waves that path `p` of a wave awaits. -/
def State.follows (s : State) (b w p : Nat) : Follow :=
  let v := s.wv b w
  let pa := v.path p
  let k := s.blk b
  let c := s.ctxAt b w p
  let block (f : Nat → Bool) : List (Nat × Nat) := ((List.range k.waves.length).filter fun x => (s.wv b x).st != .done && f x).map (b, ·)
  match pa.st with
  | .free | .done => .idle
  | .held => .no
  | .fault => .no
  | .wait =>
    (match pa.waitOn with
     | .bar n gen => .on (block fun x => !(k.bars.getD n {}).arrived.contains x && !waveArrived Path.barArr (s.wv b x) n gen)
     | _ => .idle)
  | .run =>
    if pa.acq.isSome then .no
    else
      match pa.blocked with
      | some .xreg => .on (match SMap.get none k.xlock (w / 2) with | some h => [(b, h)] | none => [])
      | some .quorum =>
        let ms := qrMembers v.quorum
        if v.saddlePath == some p then .on ((ms.filter fun x => !(s.wv b x).atLatch).map (b, ·))
        else .on ((ms.filter fun x => (s.wv b x).qarr < v.qarr).map (b, ·))
      | some .cbarrier =>
        let word := pa.heldWord
        if word / 8 = 0x2E600000 / 8 ∨ word / 8 = 0x2EA00000 / 8 then
          let n := word % 8
          let cl := s.clusters.getD k.cluster {}
          let there := clusterWaves s cl n (cl.bars.getD n {})
          .on ((List.range cl.members.length).flatMap fun r =>
            let m := cl.members.getD r 0
            ((List.range (s.blk m).waves.length).filter fun x => (s.wv m x).st != .done && !there.contains (r, x)).map (m, ·))
        else .no
      | some .barrier =>
        -- the wave's earlier arrival is still counted in the open generation
        if pa.heldWord / 16 = 0x2E000000 / 16 then
          let br := k.bars.getD (pa.heldWord % 16) {}
          .on (block fun x => !br.arrived.contains x && !waveArrived Path.barArr (s.wv b x) (pa.heldWord % 16) br.gen)
        else .no
      | some .ordered =>
        let mine := v.frags.filter fun f => bitAt pa.exm f.lane
        let smp := pa.heldWord = 0x29200000
        .on ((s.placeWaves k.core).filter fun bw =>
          recAsid (s.launchOf bw.1).record == c.asid && (s.wv bw.1 bw.2).frags.any fun e =>
            mine.any fun f => e.job == f.job && e.pixel == f.pixel && e.tri < f.tri && (if smp then e.places &&& f.mask ≠ 0 else e.places ≠ 0))
      | some .ring => .on (block (· != w))
      | some .pair => .on [(b, w)]
      | _ => .no

/-- The path entries of a wave are short, and no other path of it can free one (R346). -/
def Wave.shortOfPaths (v : Wave) : Bool :=
  let live := v.paths.filter Path.live
  live.any (fun p => p.st == .run && p.blocked == some .pair) &&
    live.all fun p => p.st == .wait || p.st == .held || p.st == .fault || (p.st == .run && p.blocked == some .pair && !p.again)

/-- The waves that a wave awaits, while it is parked on followed waits; `none`: it answers "free". -/
def State.awaited (s : State) (b w : Nat) : Option (List (Nat × Nat)) :=
  let v := s.wv b w
  let k := s.blk b
  if v.st != .live || k.st != .resident || k.stopping || v.ypark || v.ra.isSome || v.delivering || v.sleepUntil.isSome then none
  else if v.shortOfPaths then some [(b, w)]
  else
    let live := (List.range 8).filter fun p => (v.path p).live && (!v.tinfo.getLsbD 31 || v.tinfo.toNat % 8 == p) && (v.excl.isNone || v.excl == some p)
    let ps := live.map fun p => if (v.path p).st == .run && (v.path p).again then Follow.no else s.follows b w p
    if ps.any (· == .no) then none
    else
      let ws := ps.flatMap fun f => match f with | .on l => l | _ => []
      if ps.all (· == .idle) then none else some ws.dedup

/-- WAITCYCLE_PROBE_SEND (R384). -/
def execWaitcycleProbeSend (b w : Nat) (s : State) : Host.Outcome State Fault Refusal :=
  let v := s.wv b w
  let ms := 1000 * cyclesPerUs
  match s.awaited b w with
  | some ws =>
    if s.clk < v.followSince + ms || s.clk < v.probedAt + ms then .next s
    else .next { s.modWv b w (fun v => { v with probedAt := s.clk }) with
                 probes := s.probes ++ [{ sender := (b, w), todo := ws, reached := [(b, w)] }] }
  | none => .next s

/-- The path of a wave at which WAITCYCLE is raised. -/
def State.blockedPath (s : State) (b w : Nat) : Option Nat :=
  let v := s.wv b w
  (List.range 8).find? fun p => (v.path p).st == .run && (v.path p).blocked == some .pair && v.shortOfPaths ||
    (match s.follows b w p with | .on _ => true | _ => false)

/-- A trace or sample record (R445) about path `p`, whose entry is `x`. -/
def State.traceRecord (s : State) (b w p : Nat) (x : Path) (type reason : Nat) : State :=
  let l := s.launchOf b
  s.profAppend l.world (fld l.profile 63 0) 32
    (natBytes 32 (fieldsNat
      [(192, x.pc.toNat), (128, s.clk % 2 ^ 64), (96, (s.blk b).idx % 2 ^ 32), (64, x.exm.toNat), (56, type), (48, reason),
       (40, (s.blk b).core % 256), (32, (s.wv b w).slot % 256), (27, w % 32), (24, p % 8), (22, x.mode.num)]))

/-- A member of a wait cycle as it stood when the cycle was found (R384, R447): the blocked path, its trap, and the wave's
stall reason. -/
structure Blocked where
  b : Nat := 0
  w : Nat := 0
  p : Nat := 0
  path : Path := {}
  latched : Bool := false
  reason : Nat := 0
deriving DecidableEq, Repr, Inhabited

/-- The members of a cycle, at their blocked paths. -/
def State.cycleMembers (s : State) (ws : List (Nat × Nat)) : List Blocked :=
  ws.filterMap fun x => (s.blockedPath x.1 x.2).map fun p =>
    { b := x.1, w := x.2, p, path := (s.wv x.1 x.2).path p, latched := (s.wv x.1 x.2).saddlePath == some p, reason := (s.stallReason x.1 x.2).num }

/-- The trap of a member at its blocked instruction; a path that waits at a block barrier stands past its word. -/
def Blocked.trap (m : Blocked) (tva : Nat) : TrapInfo :=
  let pa := m.path
  let (pc, cpos) := if pa.st == .wait then (pa.join, if pa.cpos = 0 then fld pa.hdr 26 23 else pa.cpos - 1) else (pa.pc, pa.cpos)
  { code := 0x24, pc, cpos, hdr := if cpos = 0 then 0 else pa.hdr, mask := some pa.exm, va := BitVec.ofNat 64 tva }

/-- A member's blocked instruction is withdrawn: its barrier arrival, latch hold or lock request (R384). Only the arrival
that this instruction itself has made goes. -/
def State.withdraw (s : State) (m : Blocked) : State :=
  let pa := m.path
  let waiting := pa.st == .wait
  let bar := if waiting ∧ pa.heldWord / 16 = 0x2E000000 / 16 then some (pa.heldWord % 16) else none
  let cbar := if !waiting && pa.blocked == some .cbarrier && pa.heldWord / 8 == 0x2E600000 / 8 && pa.phase == 1 then some (pa.heldWord % 8) else none
  let s := (s.modWv m.b m.w fun v =>
    { v with
      saddle := none, excl := none
      paths := v.paths.modify m.p fun x =>
        { x with
          barArr := x.barArr.filter fun e => some e.1 != bar
          cbarArr := x.cbarArr.filter fun e => some e.1 != cbar } }).modBlk m.b fun k =>
    { k with
      xwait := k.xwait.filter fun e => e.2 != m.w
      bars := k.bars.mapIdx fun i br => if some i = bar then { br with arrived := br.arrived.filter (· != m.w) } else br }
  let rank := (s.blk m.b).rank
  s.modCluster (s.blk m.b).cluster fun cl =>
    { cl with bars := cl.bars.mapIdx fun i br =>
        if some i = cbar then { br with arrived := br.arrived.filter (· != rank), waves := br.waves.filter (· != (rank, m.w)) } else br }

/-- WAITCYCLE in every wave of a cycle, each at the path that was blocked when the cycle was found (R384, R447): all are
recorded and withdrawn before any of them traps. A member that is taken from the saddle latch leaves its quorum broken
(R241). -/
def State.cycleTraps (s : State) (ws : List (Nat × Nat)) (tva : Nat) : State :=
  let ms := s.cycleMembers ws
  let s := ms.foldl (fun s m => if (s.launchOf m.b).profile.getLsbD 160 then s.traceRecord m.b m.w m.p m.path 6 m.reason else s) s
  let s := ms.foldl State.withdraw s
  let s := ms.foldl (fun s m => if (s.wv m.b m.w).st == .live then s.takeTrap m.b m.w m.p (m.trap tva) else s) s
  (ms.filter Blocked.latched).foldl (fun s m => s.quorumBreak m.b 64 [m.w]) s

/-- WAITCYCLE_PROBE_RECEIVE (R384): the oldest probe reaches one more wave, or has returned. A cycle is taken only if
its waves still await one another. -/
def execWaitcycleProbeReceive (s : State) : Host.Outcome State Fault Refusal :=
  match s.probes with
  | [] => .next s
  | p :: rest =>
    let s := { s with probes := rest }
    match p.todo with
    | x :: todo =>
      if p.reached.contains x then .next { s with probes := { p with todo } :: rest }
      else
        match s.awaited x.1 x.2 with
        | none => .next s
        | some ws => .next { s with probes := { p with todo := todo ++ ws, reached := p.reached ++ [x] } :: rest }
    | [] =>
      let closed := p.reached.all fun x => match s.awaited x.1 x.2 with
        | some ws => ws.all p.reached.contains
        | none => false
      if !closed then .next s
      else
        let snd := p.sender
        let tva := (s.blk snd.1).core * 256 + (s.wv snd.1 snd.2).slot + min p.reached.length 255 * 65536
        .next (s.cycleTraps p.reached tva)

end Sys2Proof.Machine
end

