-- ==== Sys2Proof/Machine/Shethar.lean ====
section
/-! DEFINITION. Shethar's commands (spec/19 R431), the world record and the slot table (spec/18 R410, R411), evidence
(R423, R424), boot (spec/19 R432, R433), the last-events record as the host reads it (R434). -/

namespace Sys2Proof.Machine

open Sys2Proof

/-- The world number under which Shethar itself acts: none (R434 WORLD). -/
def noWorld : Nat := 15

/-- A command of R431: answered only once the boot is complete (R433), and then done in full (`true`) or refused. -/
def State.command (s : State) (f : State → Bool × State) : Host.Outcome State Fault Refusal :=
  if s.bootStep ≠ 0 || !s.powered then .next s
  else
    let (ok, s) := f s
    .next { s with reply := some (ok, []) }

/-! ### Worlds (R410, R431) -/

/-- Two lists of ranges have an address in common. -/
def rangesMeet (a b : List (Nat × Nat)) : Bool := a.any fun x => b.any fun y => x.1 < y.1 + y.2 && y.1 < x.1 + x.2
/-- An address lies in one of some ranges. -/
def inRanges (a : List (Nat × Nat)) (x : Nat) : Bool := a.any fun e => e.1 ≤ x && x < e.1 + e.2
/-- Unit of grants and of the spill region. -/
def grantUnit : Nat := 2 ^ 21

/-- The rules of R410 that a record meets on its own. -/
def recordForm (w : Nat) (r : BitVec 4096) : Bool :=
  let priv (ia : Nat) : Bool := ia / 2 ^ 48 == w
  let g := wrGrants r
  w < 12 && wrWorld r == w && fld r 2047 1280 == 0 && fld r 399 390 == 0 && fld r 383 10 == 0 && wrShareset r % 2 == 0 &&
    priv (wrWspace r) && priv (wrFria r) && priv (wrFbia r) && priv (wrOvria r) &&
    wrNgrant r ≤ 16 && 4 ≤ wrDrain r && wrDrain r ≤ 40 &&
    (List.range (wrNgrant r)).all (fun i => fld r (2048 + 128 * i + 63) (2048 + 128 * i + 50) == 0) &&
    g.all (fun e => e.1 % grantUnit == 0 && e.2 % grantUnit == 0 && grantUnit ≤ e.2) &&
    wrRoot r % 4096 == 0 && inGrant g (wrRoot r) 4096 &&
    wrSpillsize r % grantUnit == 0 && (wrSpillsize r == 0 || (wrSpillpa r % grantUnit == 0 && inGrant g (wrSpillpa r) (wrSpillsize r))) &&
    ((List.range 96).filter (wrVfs r).testBit).length ≤ 8

/-- A record breaks no rule of R410, R60 and R95 beside the worlds that exist. -/
def State.recordOk (s : State) (w : Nat) (r : BitVec 4096) : Bool :=
  let others := (List.range 12).filter fun x => x ≠ w && wrV (s.world x).record
  recordForm w r && !rangesMeet (wrGrants r) s.sharedGrant && wrWays r &&& s.sharedWays == 0 &&
    others.all fun x =>
      let o := (s.world x).record
      !rangesMeet (wrGrants r) (wrGrants o) && wrWays r &&& wrWays o == 0 && wrVfs r &&& wrVfs o == 0

/-- Before a grant takes effect every new frame of it is written whole under the world's key (R69): no line of it fails
its check, and no byte or image of an earlier owner is left in it. -/
def State.scrubGrant (s : State) (w : Nat) (new old : List (Nat × Nat)) : State :=
  let fresh (a : Nat) : Bool := inRanges new a && !inRanges old a
  { s with
    mem := s.mem.filter fun (c : Host.Cell) => !fresh c.1
    badLines := s.badLines.filter fun l => !fresh (l * 128)
    keys := new.map (fun e => (e.1, e.2, w)) ++ s.keys
    images := s.images.filter fun (i : Image) => !fresh i.pa }

/-- The lines that L2 holds of a world are written back and invalidated before another grant or mask takes effect (R96); its
cached translations give way, but for those of pinned granules, which stay (R67, R71). -/
def State.dropWorld (s : State) (w : Nat) : State :=
  let s := (s.l2.map Prod.fst).foldl (fun s ln => if iaRegion (ln * 128) = w then s.l2Evict w ln else s) s
  { s with tlb := s.tlb.flatMap fun (e : TlbEntry) => if e.world = w then s.pinnedPart e else [e], walks := s.walks.filter fun e => e.2.1 ≠ w }

/-- A block of a world is resident or saved. -/
def State.worldBusy (s : State) (w : Nat) : Bool :=
  (List.range s.blocks.length).any fun b =>
    (s.launchOf b).world == w && (match (s.blk b).st with | .resident | .saved _ => true | _ => false)

/-- A VF of a world is in CONFIG_LOCKED or RUN (R422). -/
def State.vfLocked (s : State) (w : Nat) : Bool :=
  (List.range 96).any fun v => (wrVfs (s.world w).record).testBit v &&
    (match SMap.get .configUnlocked s.tdi v with | .configLocked | .run => true | _ => false)

/-- A measurement register is extended (R423). -/
def State.measure (s : State) (i : Nat) (bs : List Byte) : State :=
  { s with meas := SMap.put 0 s.meas i (extend (SMap.get 0 s.meas i) bs) }

/-- A record with V = 1 (R431). -/
def withV (r : BitVec 4096) : BitVec 4096 := setFld r 4 4 1

/-- WCREATE (R410, R423, R431, R436): the record, a ticket counter and counts of zero, measurement 16 + w. -/
def execWcreate (w : Nat) (rec : BitVec 4096) (s : State) : Host.Outcome State Fault Refusal :=
  s.command fun s =>
    if w ≥ 12 || wrV (s.world w).record || !s.recordOk w rec then (false, s)
    else
      let s := (s.dropWorld w).scrubGrant w (wrGrants rec) []
      (true, (s.modWorld w fun _ => { record := withV rec }).measure (16 + w) (natBytes 512 rec.toNat))

/-- WSET (R431). -/
def execWset (w : Nat) (rec : BitVec 4096) (s : State) : Host.Outcome State Fault Refusal :=
  s.command fun s =>
    let old := (s.world w).record
    if w ≥ 12 || !wrV old || !s.recordOk w rec || s.worldBusy w || s.vfLocked w then (false, s)
    else
      let s := (s.dropWorld w).scrubGrant w (wrGrants rec) (wrGrants old)
      (true, s.modWorld w fun x => { x with record := withV rec })

/-- Worlds that a slot-table entry names (R411). -/
def slNames (e : BitVec 512) : List Nat := (List.range 32).map (slRidge e) ++ (List.range 16).map (slLink e)

/-- The jobs that wait in a world's stage queues are discarded with their stages, and their tokens aborted (R304). -/
def State.endStages (s : State) (w : Nat) : State :=
  ((List.range s.launches.length).filter fun l =>
    let x := s.launches.getD l default
    x.world == w && x.st == .ready && recSV x.record).foldl State.dropJobs s

/-- WDESTROY (R153, R304, R422, R431, R446): keys, sealed set and record go; what was saved under the keys can never run again. -/
def execWdestroy (w : Nat) (s : State) : Host.Outcome State Fault Refusal :=
  s.command fun s =>
    let named := s.slots.any fun e => (slNames e).contains w || (List.range 12).any fun x => slDonee e x == w
    if w ≥ 12 || named || s.vfLocked w then (false, s)
    else
      let mine (b : Nat) : Bool := (s.launchOf b).world == w && (match (s.blk b).st with | .resident | .saved _ => true | _ => false)
      let bs := (List.range s.blocks.length).filter mine
      let s := (bs.foldl (fun s b => s.loseBlock b 3) (s.endStages w)).dropWorld w
      let s : State :=
        { s with
          launches := s.launches.map fun (l : Launch) => if l.world = w ∧ (l.st = .ready ∨ l.st = .pending) then { l with st := .done, cancelled := true } else l
          clusters := s.clusters.map fun (c : Cluster) => if c.world = w then { c with live := false } else c
          keys := s.keys.filter fun e => e.2.2 ≠ w
          arrivals := s.arrivals.filter fun (a : Arrival) => a.world ≠ w
          cancels := s.cancels.filter fun (c : Cancel) => c.world ≠ w
          copies := s.copies.filter fun (c : Copy) => !bs.contains (c.wave / 32) }
      (true, s.modWorld w fun _ => {})

/-! ### The slot table (R411) -/

/-- An entry breaks a rule of R411. -/
def State.entryBad (s : State) (e : BitVec 512) : Bool :=
  fld e 511 448 ≠ 0 || fld e 111 17 ≠ 0 || slDur e < 25 ||
    (slNames e).any (fun w => w ≠ 15 && !(w < 12 && wrV (s.world w).record)) ||
    256 < ((List.range 12).map (slBw e)).foldl (· + ·) 0 ||
    (List.range 12).any fun w => slDonee e w == w || (12 ≤ slDonee e w && slDonee e w ≤ 14)

/-- The entries of a table that run: from entry 0 to the first with LAST, among 64. -/
def tableRun (t : List (BitVec 512)) : Option (List (BitVec 512)) := (t.take 64).findIdx? slLast |>.map fun i => t.take (i + 1)

/-- The world that an entry gives a ridge. -/
def slWorld (e : BitVec 512) (r : Nat) : Option Nat := if slRidge e r = 15 then none else some (slRidge e r)

/-- A ridge opens for a world (R413 OPEN, R419). -/
def State.openFor (s : State) (ridge : Nat) (w : Option Nat) : State :=
  ({ s with ridges := s.ridges.modify ridge fun x => { x with world := w, phase := .open_, incoming := none, lent := false } }).donate ridge

/-- A table comes into force at its entry 0, at CLK `clk`, while no world runs (R411). -/
def State.beginTable (s : State) (t : List (BitVec 512)) (clk : Nat) : State :=
  let e := t.headD 0
  (List.range 32).foldl (fun (s : State) r =>
    let x := s.ridges.getD r {}
    -- a ridge that is still shuttering opens when it has been scrubbed
    if x.phase = .open_ then s.openFor r (slWorld e r) else { s with ridges := s.ridges.modify r fun y => { y with incoming := slWorld e r } })
    { s with slots := t, slotEntry := 0, slotStart := clk, slotsNext := none }

/-- SLOTS (R411, R423). -/
def execSlots (table : List (BitVec 512)) (s : State) : Host.Outcome State Fault Refusal :=
  s.command fun s =>
    match tableRun table with
    | none => (false, s)
    | some t =>
      if t.any s.entryBad then (false, s)
      else
        let s := s.measure 4 (table.flatMap fun e => natBytes 64 e.toNat)
        (true, if s.slots = [] ∧ !s.thermal then s.beginTable t s.clk else { s with slotsNext := some t })

/-! ### The shading heap and its objects (R294, R295, R431) -/

/-- HEAP (R294, R320, R431). -/
def execHeap (hslots heapia otia objcount clockw : Nat) (s : State) : Host.Outcome State Fault Refusal :=
  s.command fun s =>
    let named := (List.range 12).any fun w => wrV (s.world w).record && wrHeapva (s.world w).record ≠ 0
    if named || 8388608 < hslots || heapia % grantUnit ≠ 0 || heapia / 2 ^ 48 ≠ 12 || otia / 2 ^ 48 ≠ 12 || 11 < clockw then (false, s)
    else (true, { s with shade := { hslots, heapia, otia, objcount, clockw } })

/-- A record that OBJSET may write (R295). -/
def objectForm (r : BitVec 256) : Bool :=
  fld r 255 192 == 0 && fld r 63 38 == 0 && fld r 35 32 == 0 && fld r 23 20 == 0 && obOwner r ≤ 11 && obSqia r / 2 ^ 48 == obOwner r

/-- Read the record of handle `h` as Shethar: a failure is logged (R295). -/
def State.readObject (s : State) (h : Nat) : Option (BitVec 256) × State :=
  match s.engRead noWorld (s.shade.otia + 32 * h) 32 with
  | (.ok bs, s) => (some (BitVec.ofNat 256 (leNat bs)), s)
  | (.error f, s) => (none, s.logFault f none noWorld (s.shade.otia + 32 * h))

/-- Write it. -/
def State.writeObject (s : State) (h : Nat) (r : BitVec 256) : Bool × State :=
  match s.engWrite noWorld (s.shade.otia + 32 * h) (natBytes 32 r.toNat) with
  | (none, s) => (true, s)
  | (some f, s) => (false, s.logFault f none noWorld (s.shade.otia + 32 * h))

/-- OBJSET (R295, R431). -/
def execObjset (h : Nat) (rec : BitVec 256) (s : State) : Host.Outcome State Fault Refusal :=
  s.command fun s =>
    if s.shade.objcount ≤ h || !objectForm rec then (false, s)
    else
      match s.readObject h with
      | (none, s) => (false, s)
      | (some old, s) =>
        let new := setFld rec 37 37 1
        if obValid old then
          if obOwner rec ≠ obOwner old ∨ obTfmt rec ≠ obTfmt old then (false, s)
          else s.writeObject h (setFld new 15 0 (obEpoch old))
        else s.writeObject h new

/-- OBJCLR (R306, R308, R431). -/
def execObjclr (h : Nat) (s : State) : Host.Outcome State Fault Refusal :=
  s.command fun s =>
    if s.shade.objcount ≤ h then (false, s)
    else
      match s.readObject h with
      | (none, s) => (false, s)
      | (some old, s) =>
        match s.writeObject h (setFld old 37 37 0) with
        | (false, s) => (false, s)
        | (true, s) =>
          let live := s.shade.tags.filterMap fun e => match e.2 with
            | some t => if t.key % 2 ^ 24 = h ∧ t.st = .inflight then some (s.shade.token t) else none
            | none => none
          (true, live.foldl (fun s t => s.abortToken (obOwner old) t) (s.modShade fun x => x.dropHandle h))

/-! ### Routes and gates (R427, R110, R159) -/

/-- ROUTE (R427, R431). -/
def execRoute (p : Nat) (ports : List Nat) (s : State) : Host.Outcome State Fault Refusal :=
  s.command fun s =>
    if ports.any (16 ≤ ·) then (false, s)
    else (true, { s with routes := (p, ports) :: s.routes.filter fun e => e.1 ≠ p })

/-- Gate or wake a way of a slice (R110, R111). -/
def State.gateWay (s : State) (slice way : Nat) (on : Bool) : State :=
  if on then
    let inWay (s : State) (ln : Nat) : Bool := match s.l2line ln with | some l => l.slice == slice && l.way == way | none => false
    let s := (s.l2.map Prod.fst).foldl (fun s ln => if inWay s ln then s.l2Evict (countWorld noWorld (ln * 128)) ln else s) s
    { s with gatedWays := (slice, way) :: s.gatedWays.filter (· ≠ (slice, way)), wakingWays := s.wakingWays.filter (· ≠ (slice, way)) }
  else if s.gatedWays.contains (slice, way) then
    { s with gatedWays := s.gatedWays.filter (· ≠ (slice, way)), wakingWays := (slice, way) :: s.wakingWays }
  else s

/-- The other ungated banks of a region cannot hold what its blocks have there. -/
def State.bankNeeded (s : State) (core lo size bank bytes : Nat) : Bool :=
  (((List.range size).map (lo + ·)).filter fun x => x ≠ bank && !(s.core core).gated.contains x).length * bankSize < bytes

/-- Gate or wake a lane-store bank of a core (R159, R160). Which banks hold a resident block's storage is not defined, but
they hold all of it, and a bank that wakes for a block is one of them. -/
def State.gateBank (s : State) (core bank : Nat) (on : Bool) : Bool × State :=
  let k := s.core core
  let set (f : Core → Core) : State := s.modCore core f
  if !on then
    (true, if k.gated.contains bank then set fun k => { k with gated := k.gated.filter (· ≠ bank), waking := bank :: k.waking } else s)
  else
    let down (k : Core) : Core := { k with gated := bank :: k.gated.filter (· ≠ bank), waking := k.waking.filter (· ≠ bank) }
    if k.splitR + k.splitS ≤ bank then
      let left := (List.range 96).filter fun x => k.splitR + k.splitS ≤ x && x ≠ bank && !k.gated.contains x && !k.waking.contains x
      if left.length < 8 then (false, s)
      else
        -- which lines the bank holds is not defined, but no more than the others hold stay
        let s := set down
        (true, (s.core core).l1.foldl (fun s e =>
          let (gone, s) := s.freeBit
          if gone || (s.core core).l1Lines < (s.core core).l1.length then s.l1Drop core (e.1 * 128) else s) s)
    else if s.blocksOn core = [] then (true, set down)
    else
      let (held, s) := s.freeBit
      let awaited := (s.blocksOn core).any fun b => (s.blk b).waking.contains bank
      if held || awaited || (bank < k.splitR && s.bankNeeded core 0 k.splitR bank (s.sumOn core s.regBytes)) ||
          (k.splitR ≤ bank && s.bankNeeded core k.splitR k.splitS bank (s.sumOn core s.scratchBytes)) then (false, s) else (true, s.modCore core down)

/-- GATE (R110, R159, R431). -/
def execGate (bank : Bool) (unit sub : Nat) (on : Bool) (s : State) : Host.Outcome State Fault Refusal :=
  s.command fun s =>
    if bank then if 256 ≤ unit ∨ 96 ≤ sub then (false, s) else s.gateBank unit sub on
    else if 128 ≤ unit ∨ 16 ≤ sub then (false, s) else (true, s.gateWay unit sub on)

/-! ### The last-events record (R434) -/

/-- An entry in 32 bytes. -/
def Event.bytes (e : Event) : List Byte :=
  natBytes 32 (fieldsNat [(128, e.data.toNat), (64, e.clk.toNat), (32, e.seq.toNat), (24, e.unit % 256), (16, e.world % 16), (8, e.cls), (0, e.code % 256)])

/-- Entry `n` (mod 8,192) of the ring: zero where nothing has been logged since power-on. -/
def State.eventEntry (s : State) (n : Nat) : List Byte :=
  let k := (s.eventSeq + 8192 * 8192 - 1 - n) % 8192
  match s.events[k]? with
  | some e => e.bytes
  | none => List.replicate 32 0

/-- Unfreeze the record. -/
def State.unfreeze (s : State) : State := { s with frozen := false, reply := some (true, []) }

/-- EVENTS (R431, R433, R434): 4 KiB of the record from a byte offset, whatever STEP of the boot holds. -/
def execEvents (offset : BitVec 32) (s : State) : Host.Outcome State Fault Refusal :=
  if !s.powered then .next s
  else if offset = 0xFFFFFFFF#32 then .next s.unfreeze
  else
    let bytes := (List.range 129).flatMap fun i => s.eventEntry ((offset.toNat / 32 + i) % 8192)
    .next { s with reply := some (true, (bytes.drop (offset.toNat % 32)).take 4096) }

/-- EVENTS with offset 0xFFFF_FFFF (R434). -/
def execEventsUnfreeze (s : State) : Host.Outcome State Fault Refusal := if s.powered then .next s.unfreeze else .next s

/-! ### Evidence (R423, R424) -/

/-- The world of a measurement index: of a world register, or of the VF of a VF register. -/
def State.measWorld (s : State) (i : Nat) : Option Nat :=
  if 16 ≤ i ∧ i < 28 then some (i - 16)
  else if 32 ≤ i ∧ i < 128 then (List.range 12).find? fun w => wrV (s.world w).record && (wrVfs (s.world w).record).testBit (i - 32)
  else none

/-- A measurement register exists (R423). -/
def measIndex (i : Nat) : Bool := (1 ≤ i && i ≤ 4) || (16 ≤ i && i < 28) || (32 ≤ i && i < 128)

/-- Every ridge that the table in force gives a world in some entry is power-gated: its cores hold no ungated bank that
R159 lets be gated. -/
def State.powerGated (s : State) (w : Nat) : Bool :=
  let rs := (List.range 32).filter fun r => s.slots.any fun e => slRidge e r == w
  rs ≠ [] && rs.all fun r => (List.range 8).all fun c => 88 ≤ (s.core (r * 8 + c)).gated.length

/-- The response to a request for register `i`: the register, then the block of R424. -/
def State.evidence (s : State) (i : Nat) : List Byte × State :=
  let live := SMap.get 0 s.meas i
  let bytes (reg : BitVec 512) (clk world state : Nat) : List Byte :=
    natBytes 64 reg.toNat ++ natBytes 16 (clk % 2 ^ 64 * 2 ^ 64 + world * 256 + state)
  match s.measWorld i with
  | none => (bytes live 0 0xFF 0, s)
  | some w =>
    let on (ph : RPhase → Bool) : Option Ridge := s.ridges.find? fun r => r.world == some w && ph r.phase
    if (on fun p => p == .open_ || p == .stop || p == .drain).isSome then (bytes live 0 w 0, s)
    else
      match on fun p => p == .overrun || p == .seal with
      -- its last SEAL: the set that the SEAL will make
      | some r => (bytes live r.edge w 1, s)
      | none =>
        let state := if s.powerGated w then 2 else 1
        match (s.world w).isSealed, (s.world w).sealedSet.find? fun e => e.1 == i with
        | true, some e => (bytes e.2 (s.world w).sealedClk w state, s)
        | _, _ =>
          -- the world has not run: no set exists, and no rule says what is answered
          let (reg, s) := s.freeNat (2 ^ 512)
          let (clk, s) := s.freeNat (2 ^ 64)
          (bytes (BitVec.ofNat 512 reg) clk w state, s)

/-- MEASUREMENT_REQUEST (R424): after a boot that has failed, nothing but EVENTS is answered (R432). -/
def execMeasurementRequest (index : Nat) (s : State) : Host.Outcome State Fault Refusal :=
  if s.bootStep ≠ 0 || !s.powered then .next s
  else if !measIndex index then .next { s with reply := some (false, []) }
  else
    let (bs, s) := s.evidence index
    .next { s with reply := some (true, bs) }

/-! ### Boot (R432, R433) -/

/-- The grant of region 12, of the form that R60 gives it. -/
def sharedRanges (x : SharedRegion) : List (Nat × Nat) :=
  (x.grant.filter fun e => e.1 % grantUnit == 0 && e.2 % grantUnit == 0 && grantUnit ≤ e.2).take 16

/-- Shethar, loaded, gives region 12 its tables, its mask and its grant, every frame of which it has written whole under the
shared-region key (R60, R64, R69, R95). -/
def State.setShared (s : State) (x : SharedRegion) : State :=
  { s.scrubGrant 12 (sharedRanges x) s.sharedGrant with sharedRoot := x.root, sharedGrant := sharedRanges x, sharedWays := x.ways.toNat }

/-- The boot sequence on a machine that a reset has cleared: its measurements, what Shethar holds for region 12, and where it
stopped. -/
def State.boot (s : State) (how : BootEnd) (fw cfg shethar : List Byte) : State :=
  let s := s.measure 1 fw
  match how with
  | .up shared => { ((s.measure 2 cfg).measure 3 shethar).setShared shared with bootStep := 0, bootCode := 0, bootRecord := 0 }
  | .failed (.signature r) => { s with bootStep := 2, bootCode := 1, bootRecord := r.toNat }
  | .failed (.unreadable r) => { s with bootStep := 2, bootCode := 2, bootRecord := r.toNat }
  | .failed .image => { s.measure 2 cfg with bootStep := 4, bootCode := 3, bootRecord := 0 }
  | .failed .mismatch => { s.measure 2 cfg with bootStep := 4, bootCode := 4, bootRecord := 0 }

/-- What a reset leaves of the machine: nothing, but for the model's own counter of free values and its agenda. -/
def State.cleared (s : State) : State := { State.reset with free := s.free, agenda := s.agenda }

/-- POWER_ON (R432, R434, R69): the last-events record is cleared and HBM holds nothing. -/
def execPowerOn (how : BootEnd) (fw cfg shethar : List (BitVec 8)) (s : State) : Host.Outcome State Fault Refusal :=
  .next (s.cleared.boot how fw cfg shethar)

/-- WARM_RESET (R432, R434): the last-events record and what the memories hold survive. -/
def execWarmReset (how : BootEnd) (fw cfg shethar : List (BitVec 8)) (s : State) : Host.Outcome State Fault Refusal :=
  if !s.powered then .next s
  else
    let kept : State :=
      { s.cleared with
        mem := s.mem, badLines := s.badLines, keys := s.keys, images := s.images, meas := s.meas
        events := s.events, eventSeq := s.eventSeq, frozen := s.frozen }
    .next (kept.boot how fw cfg shethar)

end Sys2Proof.Machine
end

