-- ==== Sys2Proof/Machine/HostIf.lean ====
section
/-! DEFINITION. The host queues (spec/19 R425, R426), the TDIs (spec/18 R422, R423), and inbound accesses (R429). -/

namespace Sys2Proof.Machine

open Sys2Proof

/-- The VFs are open (R432). -/
def State.hostUp (s : State) : Bool := s.powered && s.bootStep == 0
/-- The world whose VFS holds a VF (R410). -/
def State.vfWorld (s : State) (v : Nat) : Option Nat := s.measWorld (32 + v)
def State.tdiOf (s : State) (v : Nat) : Tdi := SMap.get .configUnlocked s.tdi v
def State.setTdi (s : State) (v : Nat) (x : Tdi) : State := { s with tdi := SMap.put .configUnlocked s.tdi v x }
def State.queue (s : State) (v q : Nat) : HostQ := SMap.get {} s.hostq (v * 4 + q)
def State.setQueue (s : State) (v q : Nat) (h : HostQ) : State := { s with hostq := SMap.put {} s.hostq (v * 4 + q) h }
/-- The slots of a queue are no longer held for anyone. -/
def State.forgetSlots (s : State) (v q : Nat) : State :=
  { s with launches := s.launches.map fun (l : Launch) =>
      match l.slot with
      | some (k, _) => if k = v * 4 + q then { l with slot := none } else l
      | none => l }

/-! ### Queues -/

/-- QUEUE_DOORBELL (R425, R426). -/
def execQueueDoorbell (vf q : Nat) (tail : BitVec 32) (s : State) : Host.Outcome State Fault Refusal :=
  if !s.hostUp || 96 ≤ vf || 4 ≤ q then .next s
  else
    let h := s.queue vf q
    let t := tail.toNat
    let off := if s.tdiOf vf = .run then 0 else 2
    if h.err ≠ 0 ∧ h.err ≠ 2 ∧ t = h.head then
      -- every slot from HEAD on is dropped
      .next ((s.setQueue vf q { h with tail := t, next := t, held := [], err := off }).forgetSlots vf q)
    else if h.cap < (t + 2 ^ 32 - h.head) % 2 ^ 32 then .next (s.setQueue vf q { h with err := 4 })
    else if off ≠ 0 then .next (s.setQueue vf q { h with tail := t, err := off })
    else .next (s.setQueue vf q { h with tail := t, err := if h.err = 1 ∧ t = h.tail then 0 else h.err })

/-- QUEUE_CONFIG_WRITE (R426): a write of CAP, or of BASE. -/
def execQueueConfigWrite (vf q : Nat) (cap : Bool) (value : BitVec 64) (s : State) : Host.Outcome State Fault Refusal :=
  if !s.hostUp || 96 ≤ vf || 4 ≤ q then .next s
  else
    let h := s.queue vf q
    .next (s.setQueue vf q
      (if h.tail ≠ h.head then { h with err := 3 }
       else if cap then { h with cap := value.toNat % 2 ^ 32 }
       else { h with base := value }))

/-- REGISTER_WRITE (R6, R425): TASKVA is the one writable register without a behaviour of its own; a write to a
read-only field is ignored. -/
def execRegisterWrite (vf off : Nat) (value : BitVec 32) (s : State) : Host.Outcome State Fault Refusal :=
  if !s.hostUp || 96 ≤ vf || 256 ≤ off then .next s
  else
    let q := off / 64
    let h := s.queue vf q
    match off % 64 with
    | 8 => .next (s.setQueue vf q { h with taskva := setHalf h.taskva 0 value })
    | 12 => .next (s.setQueue vf q { h with taskva := setHalf h.taskva 1 value })
    | _ => .next s

/-- Where a slot of a queue lies in host memory, if it does: bus address `a` at PA 2^44 + `a` (R59;
notes/assumptions/69.md). -/
def HostQ.slotPa (h : HostQ) (n : Nat) : Option Nat :=
  let a := h.base.toNat / 256 * 256 + 256 * (n % h.cap)
  if a + 256 ≤ 2 ^ 44 then some (2 ^ 44 + a) else none

/-- The CP reads slot `n` of a queue: `none` where the read fails. What lies at a bus address outside host memory's window is
a free value. -/
def State.readSlot (s : State) (w : Nat) (h : HostQ) (n : Nat) (r : SlotRead) : Option (BitVec 2048) × State :=
  match r, h.slotPa n with
  | .failed, _ => (none, s)
  | .written x, some pa => (some x, { s with mem := memPut s.mem pa (natBytes 256 x.toNat) })
  | .written x, none => (some x, s)
  | .held, some pa =>
    if s.bad w pa || s.bad w (pa + 128) then (none, s.log 5 (some 0x14) none w pa)
    else (some (BitVec.ofNat 2048 (leNat (memBytes s.mem pa 256))), s)
  | .held, none => let (x, s) := s.freeNat (2 ^ 2048); (some (BitVec.ofNat 2048 x), s)

/-- CP_SLOT_READ (R426): the CP reads the next slot, at BASE + 256 × (n mod CAP), and submits the record it holds. -/
def execCpSlotRead (vf q : Nat) (slot : SlotRead) (s : State) : Host.Outcome State Fault Refusal :=
  let h := s.queue vf q
  if !s.hostUp || 96 ≤ vf || 4 ≤ q || h.err ≠ 0 || h.next == h.tail || h.cap = 0 then .next s
  else if s.tdiOf vf ≠ .run then .next (s.setQueue vf q { h with err := 2 })
  else
    match s.vfWorld vf with
    | none => .next s
    | some w =>
    let n := h.next
    match s.readSlot w h n slot with
    | (none, s) => .next (s.setQueue vf q { h with err := 1 })
    | (some r, s) =>
      let base := h.taskva.toNat / 256 * 256
      let task := h.taskva.toNat ≠ 0 && h.taskva.toNat % 256 = 0
      let s := s.setQueue vf q { h with next := (n + 1) % 2 ^ 32, held := h.held ++ [n] }
      .next (s.submit w (BitVec.ofNat 64 (base + 256 * (n % h.cap))) r 7 task (some (vf * 4 + q, n))).2

/-! ### TDIs (R422, R426) -/

/-- TDISP_STOP (R426): the queues of the TDI go back to their reset values, and it to CONFIG_UNLOCKED. -/
def execTdispStop (vf : Nat) (s : State) : Host.Outcome State Fault Refusal :=
  if !s.hostUp || 96 ≤ vf then .next s
  else .next (((List.range 4).foldl (fun s q => (s.setQueue vf q {}).forgetSlots vf q) s).setTdi vf .configUnlocked)

/-- TDI_RUN_RESUME (R422, R426): a locked TDI goes to RUN, and ERR 2 of its queues is cleared. -/
def execTdiRunResume (vf : Nat) (s : State) : Host.Outcome State Fault Refusal :=
  if !s.hostUp || 96 ≤ vf || s.tdiOf vf ≠ .configLocked then .next s
  else
    .next (((List.range 4).foldl (fun s q =>
      let h := s.queue vf q
      if h.err = 2 then s.setQueue vf q { h with err := 0 } else s) s).setTdi vf .run)

/-- TDISP_LOCK (R422, R423): an unlocked TDI of a world is bound, and measurement 32 + v extended. -/
def execTdispLock (vf : Nat) (config : List (BitVec 8)) (s : State) : Host.Outcome State Fault Refusal :=
  if !s.hostUp || 96 ≤ vf || s.tdiOf vf ≠ .configUnlocked || (s.vfWorld vf).isNone then .next s
  else .next ((s.setTdi vf .configLocked).measure (32 + vf) config)

/-- An event whose class no rule names beyond its being logged: CLASS 4 or 6. -/
def State.logOpen (s : State) (world data : Nat) : State :=
  let (link, s) := s.freeBit
  s.log (if link then 4 else 6) none none world data

/-- IDE_INTEGRITY_FAILURE (R422): the TDI goes to ERROR; what DATA holds is not stated. -/
def execIdeIntegrityFailure (vf : Nat) (s : State) : Host.Outcome State Fault Refusal :=
  if !s.hostUp || 96 ≤ vf then .next s
  else
    let (data, s) := s.freeNat (2 ^ 128)
    .next ((s.setTdi vf .error).logOpen ((s.vfWorld vf).getD noWorld) data)

/-! ### Inbound accesses (R429, R106) -/

/-- The atomic operations of R175 by number, as a flit names them. -/
def inboundOp (n : Nat) : AtomOp :=
  [AtomOp.add, .minS, .maxS, .minN, .maxN, .and, .or, .exch, .cas, .xor, .fadd, .fmin, .fmax, .incw].getD n .add

/-- The world that an inbound access acts for, where it may act: a VF's world, or the flit's world on a port that carries
it. -/
def State.inboundWorld (s : State) (peer : Bool) (unit world : Nat) : Option Nat :=
  if !peer then s.vfWorld unit
  else
    match s.slot with
    | some e => if slLink e unit = world ∨ (slLink e unit = 15 ∧ s.paired.contains (unit, world)) then (if world < 12 then some world else none) else none
    | none => none

/-- Bytes that an access touches. -/
def inSize : InAct → Nat
  | .read n => n
  | .write bs => bs.length
  | .atomic _ wide _ _ => if wide then 8 else 4

/-- An inbound access that fails is completed with an error, and logged. -/
def State.inboundFail (s : State) (world pa : Nat) : State := { s.logOpen world pa with reply := some (false, []) }

/-- Serve an inbound access at the world's direct window: `none` while it waits for a line that is owned or for a way
that is waking (R105, R111). -/
def State.serve (s : State) (w pa : Nat) (act : InAct) : Option State :=
  let ia := directIA w pa
  let lines := (List.range (inSize act / 128 + 2)).map (ia / 128 + ·)
  let hit := lines.filter fun l => l * 128 < ia + inSize act
  if hit.any s.isOwned then none
  else
    let s := hit.foldl (fun s l => s.unhold w (l * 128)) s
    match act with
    | .read n =>
      (match s.engRead w ia n with
       | (.ok bs, s) => some { s with reply := some (true, bs) }
       | (.error f, s) => some { s.logFault f none w pa with reply := some (false, []) })
    | .write bs =>
      (match s.engWrite w ia bs with
       | (none, s) => some { s with reply := some (true, []) }
       | (some f, s) => some { s.logFault f none w pa with reply := some (false, []) })
    | .atomic op wide operand compare =>
      let wide := wide && (op == 0 || op == 8)
      let data := if op = 8 then compare.toNat % 2 ^ (if wide then 64 else 32) + operand.toNat * 2 ^ (if wide then 64 else 32) else operand.toNat
      let r : L2Req := { world := w, ia, pa }
      if pa % (if wide then 8 else 4) ≠ 0 then some (s.inboundFail w pa)
      else
        match s.translate w ia true with
        | (s, .fault _) => some (s.inboundFail w pa)
        | (s, .pa _) =>
          match ((s.recall w (ia / 128)).l2Lookup r).l2Atomic r (if wide then 8 else 4) false (atomBytes (inboundOp op) wide data) with
          | .ok (old, s) => some { s.noteAtom (ia / 128) with reply := some (true, natBytes (if wide then 8 else 4) (leNat old)) }
          | .error (.park, _) | .error (.train, _) => none
          | .error (.bad, s) => some { s.logFault (fData 7) none w pa with reply := some (false, []) }
          | .error (.noPort, s) => some (s.inboundFail w pa)

/-- INBOUND_ACCESS (R429): by a VF (`unit`) of the host, or by a peer through a port. It reaches what the world's direct
window, of 2^44 bytes, reaches. -/
def execInboundAccess (peer : Bool) (unit world pa : Nat) (act : InAct) (s : State) : Host.Outcome State Fault Refusal :=
  if !s.hostUp then .next s
  else
    match s.inboundWorld peer unit world with
    | none => .next (s.inboundFail (if peer then world % 16 else noWorld) pa)
    | some w =>
      if 2 ^ 44 < pa + inSize act || !inGrant (s.grant w) pa (inSize act) then .next (s.inboundFail w pa)
      else
        match s.serve w pa act with
        | some s => .next s
        | none => .next { s with agenda := s.agenda ++ [.inboundAccess peer unit world pa act] }

end Sys2Proof.Machine
end

