-- ==== Sys2Proof/Machine/Integer.lean ====
section
/-! DEFINITION. Integer, mask, predicate and lane instructions: the rules of
spec/09_integer_and_lane_instructions.md (R203–R222). LIT stands in Machine/Fetch.lean. -/

namespace Sys2Proof.Machine

open Sys2Proof

/-! ### Functions on values -/

/-- Floor of a signed value divided by 2^s, within the width (R210). -/
def shlV {n : Nat} (x : BitVec n) (s : Nat) : BitVec n := x <<< s
def shrV {n : Nat} (x : BitVec n) (s : Nat) : BitVec n := x >>> s
def sarV {n : Nat} (x : BitVec n) (s : Nat) : BitVec n := x.sshiftRight s
def rolV (x : Word) (s : Nat) : Word := x.rotateLeft (s % 32)
def rorV (x : Word) (s : Nat) : Word := x.rotateRight (s % 32)
/-- The shift amount b[5:0] (R210). -/
def amount (b : Word) : Nat := b.toNat % 64

/-- |a − b| of signed values, exact (R209). -/
def absdV (a b : Word) : Word := BitVec.ofNat 32 (a.toInt - b.toInt).natAbs
/-- Bits 63:32 of an exact product (R211). -/
def mulhS (a b : Word) : Word := BitVec.ofInt 32 ((a.toInt * b.toInt) / 2 ^ 32)
def mulhN (a b : Word) : Word := BitVec.ofNat 32 (a.toNat * b.toNat / 2 ^ 32)
def mulwS (a b : Word) : DWord := BitVec.ofInt 64 (a.toInt * b.toInt)
def mulwN (a b : Word) : DWord := BitVec.ofNat 64 (a.toNat * b.toNat)

/-- Number of 1 bits (R212, R221). -/
def popcV (a : Word) : Word := BitVec.ofNat 32 ((List.range 32).countP (bitAt a))
/-- Index of the lowest 1 bit, 32 for 0 (R212, R221). -/
def ctzV (a : Word) : Word := BitVec.ofNat 32 (((List.range 32).find? (bitAt a)).getD 32)
/-- Index of the highest 1 bit, 32 for 0 (R221). -/
def flsV (a : Word) : Word := BitVec.ofNat 32 (((List.range 32).reverse.find? (bitAt a)).getD 32)
/-- Number of leading 0 bits, 32 for 0 (R212). -/
def clzV (a : Word) : Word :=
  BitVec.ofNat 32 (((List.range 32).find? fun i => bitAt a (31 - i)).getD 32)
/-- Bit i of the result is bit 31 − i of a (R212). -/
def brevV (a : Word) : Word := maskOf fun i => bitAt a (31 - i)

/-- Position of a bit field, and its length within the word (R213). -/
def bfPos (c : Word) : Nat := c.toNat % 32
def bfLen (c : Word) : Nat := min (bfPos c + min (c.toNat / 256 % 64) 32) 32 - bfPos c
/-- BFE.Z, BFE.S and BFI (R213). -/
def bfeZV (a c : Word) : Word := BitVec.ofNat 32 (a.toNat / 2 ^ bfPos c % 2 ^ bfLen c)
def bfeSV (a c : Word) : Word :=
  let x : Int := a.toNat / 2 ^ bfPos c % 2 ^ bfLen c
  BitVec.ofInt 32 (if 0 < bfLen c ∧ 2 ^ (bfLen c - 1) ≤ x then x - 2 ^ bfLen c else x)
def bfiV (a c d : Word) : Word :=
  let m : Word := BitVec.ofNat 32 ((2 ^ bfLen c - 1) * 2 ^ bfPos c)
  (d &&& ~~~m) ||| ((a <<< bfPos c) &&& m)

/-- Byte `i` of a word. -/
def byteOf (w : Word) (i : Nat) : Byte := w.extractLsb' (8 * i) 8

/-- PRMT (R214): the byte that selector nibble `t` takes from a (bytes 0–3) and b (bytes 4–7). -/
def prmtByte (a b : Word) (t : Nat) : Byte :=
  let x := if t % 8 < 4 then byteOf a (t % 8) else byteOf b (t % 8 - 4)
  if t < 8 then x else if x.getLsbD 7 then 0xFF else 0x00
def prmtV (a b d : Word) : Word :=
  prmtByte a b (d.toNat / 4096 % 16) ++ (prmtByte a b (d.toNat / 256 % 16) ++
    (prmtByte a b (d.toNat / 16 % 16) ++ prmtByte a b (d.toNat % 16)))

/-- a + n × b with b an unsigned index (R216). -/
def leaV (n : Nat) (a : DWord) (b : Word) : DWord := a + BitVec.ofNat 64 (n * b.toNat)

/-- The lowest active lane (R220). -/
def Ctx.lowest (c : Ctx) : Option Nat := (List.range 32).find? c.active

/-- A shuffle: lane `ln` reads a of lane `from ln k` (R220). -/
def shuffle (i : Info) (y : Bool) (d a b : Field) (s : State) (source : Nat → Nat → Nat) :
    Host.Outcome State Fault Refusal :=
  alu i y false d s fun c ln => c.src a (source ln ((c.src b ln 0).toNat % 32)) 0

/-- A 64-bit shift by the amount in b, or by an immediate (R210). -/
def shift64 (i : Info) (y g : Bool) (d a b : Field) (s : State) (f : DWord → Nat → DWord) :
    Host.Outcome State Fault Refusal :=
  alu64 i y g d s fun c ln => f (c.opnd64 g a ln) (amount (c.opnd g b ln 0))

/-- A result in one g-register (R220, R221). -/
def gres (i : Info) (y : Bool) (d : Field) (s : State) (f : Ctx → Word) : Host.Outcome State Fault Refusal :=
  issue i y s fun c s => .done (c.writeG d.toNat (f c) s)

/-- A result in one predicate (R221, R222). -/
def qres (i : Info) (y : Bool) (d : BitVec 3) (s : State) (f : Ctx → Bool) : Host.Outcome State Fault Refusal :=
  issue i y s fun c s => .done (c.writeQ d.toNat (f c) s)

/-! ### Meanings -/

/-- R209. -/
def execAdd (y g : Bool) (d a b : Field) (s : State) : Host.Outcome State Fault Refusal :=
  alu2 (info (.add y g d a b)) y g d a b s fun a b => a + b

/-- R209. -/
def execSub (y g : Bool) (d a b : Field) (s : State) : Host.Outcome State Fault Refusal :=
  alu2 (info (.sub y g d a b)) y g d a b s fun a b => a - b

/-- R209. -/
def execMinS (y g : Bool) (d a b : Field) (s : State) : Host.Outcome State Fault Refusal :=
  alu2 (info (.minS y g d a b)) y g d a b s fun a b => if a.toInt ≤ b.toInt then a else b

/-- R209. -/
def execMinN (y g : Bool) (d a b : Field) (s : State) : Host.Outcome State Fault Refusal :=
  alu2 (info (.minN y g d a b)) y g d a b s fun a b => if a.toNat ≤ b.toNat then a else b

/-- R209. -/
def execMaxS (y g : Bool) (d a b : Field) (s : State) : Host.Outcome State Fault Refusal :=
  alu2 (info (.maxS y g d a b)) y g d a b s fun a b => if a.toInt ≤ b.toInt then b else a

/-- R209. -/
def execMaxN (y g : Bool) (d a b : Field) (s : State) : Host.Outcome State Fault Refusal :=
  alu2 (info (.maxN y g d a b)) y g d a b s fun a b => if a.toNat ≤ b.toNat then b else a

/-- R209. -/
def execAbsdS (y g : Bool) (d a b : Field) (s : State) : Host.Outcome State Fault Refusal :=
  alu2 (info (.absdS y g d a b)) y g d a b s absdV

/-- R209. -/
def execNeg (y g : Bool) (d a : Field) (s : State) : Host.Outcome State Fault Refusal :=
  alu1 (info (.neg y g d a)) y g d a s fun a => -a

/-- R209. -/
def execAnd (y g : Bool) (d a b : Field) (s : State) : Host.Outcome State Fault Refusal :=
  alu2 (info (.and_ y g d a b)) y g d a b s fun a b => a &&& b

/-- R209. -/
def execOr (y g : Bool) (d a b : Field) (s : State) : Host.Outcome State Fault Refusal :=
  alu2 (info (.or_ y g d a b)) y g d a b s fun a b => a ||| b

/-- R209. -/
def execXor (y g : Bool) (d a b : Field) (s : State) : Host.Outcome State Fault Refusal :=
  alu2 (info (.xor y g d a b)) y g d a b s fun a b => a ^^^ b

/-- R209. -/
def execAndn (y g : Bool) (d a b : Field) (s : State) : Host.Outcome State Fault Refusal :=
  alu2 (info (.andn y g d a b)) y g d a b s fun a b => a &&& ~~~b

/-- R209. -/
def execOrn (y g : Bool) (d a b : Field) (s : State) : Host.Outcome State Fault Refusal :=
  alu2 (info (.orn y g d a b)) y g d a b s fun a b => a ||| ~~~b

/-- R209. -/
def execXnor (y g : Bool) (d a b : Field) (s : State) : Host.Outcome State Fault Refusal :=
  alu2 (info (.xnor y g d a b)) y g d a b s fun a b => ~~~(a ^^^ b)

/-- R209. -/
def execNot (y g : Bool) (d a : Field) (s : State) : Host.Outcome State Fault Refusal :=
  alu1 (info (.not_ y g d a)) y g d a s fun a => ~~~a

/-- R210. -/
def execShl (y g : Bool) (d a b : Field) (s : State) : Host.Outcome State Fault Refusal :=
  alu2 (info (.shl y g d a b)) y g d a b s fun a b => shlV a (amount b)

/-- R210. -/
def execShr (y g : Bool) (d a b : Field) (s : State) : Host.Outcome State Fault Refusal :=
  alu2 (info (.shr y g d a b)) y g d a b s fun a b => shrV a (amount b)

/-- R210. -/
def execSar (y g : Bool) (d a b : Field) (s : State) : Host.Outcome State Fault Refusal :=
  alu2 (info (.sar y g d a b)) y g d a b s fun a b => sarV a (amount b)

/-- R210. -/
def execRol (y g : Bool) (d a b : Field) (s : State) : Host.Outcome State Fault Refusal :=
  alu2 (info (.rol y g d a b)) y g d a b s fun a b => rolV a (amount b)

/-- R210. -/
def execRor (y g : Bool) (d a b : Field) (s : State) : Host.Outcome State Fault Refusal :=
  alu2 (info (.ror y g d a b)) y g d a b s fun a b => rorV a (amount b)

/-- R210. -/
def execShlW (y g : Bool) (d a b : Field) (s : State) : Host.Outcome State Fault Refusal :=
  shift64 (info (.shlW y g d a b)) y g d a b s shlV

/-- R210. -/
def execShrW (y g : Bool) (d a b : Field) (s : State) : Host.Outcome State Fault Refusal :=
  shift64 (info (.shrW y g d a b)) y g d a b s shrV

/-- R210. -/
def execSarW (y g : Bool) (d a b : Field) (s : State) : Host.Outcome State Fault Refusal :=
  shift64 (info (.sarW y g d a b)) y g d a b s sarV

/-- R211. -/
def execMul (y g : Bool) (d a b : Field) (s : State) : Host.Outcome State Fault Refusal :=
  alu2 (info (.mul y g d a b)) y g d a b s fun a b => a * b

/-- R211. -/
def execMulhS (y g : Bool) (d a b : Field) (s : State) : Host.Outcome State Fault Refusal :=
  alu2 (info (.mulhS y g d a b)) y g d a b s mulhS

/-- R211. -/
def execMulhN (y g : Bool) (d a b : Field) (s : State) : Host.Outcome State Fault Refusal :=
  alu2 (info (.mulhN y g d a b)) y g d a b s mulhN

/-- R211. -/
def execMad (y g : Bool) (d a b : Field) (s : State) : Host.Outcome State Fault Refusal :=
  alu3 (info (.mad y g d a b)) y g d a b s fun a b d => a * b + d

/-- R211. -/
def execMulwS (y g : Bool) (d a b : Field) (s : State) : Host.Outcome State Fault Refusal :=
  alu64 (info (.mulwS y g d a b)) y g d s fun c ln => mulwS (c.opnd g a ln 0) (c.opnd g b ln 0)

/-- R211. -/
def execMulwN (y g : Bool) (d a b : Field) (s : State) : Host.Outcome State Fault Refusal :=
  alu64 (info (.mulwN y g d a b)) y g d s fun c ln => mulwN (c.opnd g a ln 0) (c.opnd g b ln 0)

/-- R211. -/
def execMadwS (y g : Bool) (d a b : Field) (s : State) : Host.Outcome State Fault Refusal :=
  alu64 (info (.madwS y g d a b)) y g d s fun c ln => mulwS (c.opnd g a ln 0) (c.opnd g b ln 0) + c.opnd64 g d ln

/-- R211. -/
def execMadwN (y g : Bool) (d a b : Field) (s : State) : Host.Outcome State Fault Refusal :=
  alu64 (info (.madwN y g d a b)) y g d s fun c ln => mulwN (c.opnd g a ln 0) (c.opnd g b ln 0) + c.opnd64 g d ln

/-- R212. -/
def execPopc (y g : Bool) (d a : Field) (s : State) : Host.Outcome State Fault Refusal :=
  alu1 (info (.popc y g d a)) y g d a s popcV

/-- R212. -/
def execClz (y g : Bool) (d a : Field) (s : State) : Host.Outcome State Fault Refusal :=
  alu1 (info (.clz y g d a)) y g d a s clzV

/-- R212. -/
def execCtz (y g : Bool) (d a : Field) (s : State) : Host.Outcome State Fault Refusal :=
  alu1 (info (.ctz y g d a)) y g d a s ctzV

/-- R212. -/
def execBrev (y g : Bool) (d a : Field) (s : State) : Host.Outcome State Fault Refusal :=
  alu1 (info (.brev y g d a)) y g d a s brevV

/-- R213. -/
def execBfeS (y g : Bool) (d a b : Field) (s : State) : Host.Outcome State Fault Refusal :=
  alu2 (info (.bfeS y g d a b)) y g d a b s bfeSV

/-- R213. -/
def execBfeZ (y g : Bool) (d a b : Field) (s : State) : Host.Outcome State Fault Refusal :=
  alu2 (info (.bfeZ y g d a b)) y g d a b s bfeZV

/-- R213. -/
def execBfi (y g : Bool) (d a b : Field) (s : State) : Host.Outcome State Fault Refusal :=
  alu3 (info (.bfi y g d a b)) y g d a b s bfiV

/-- R214. -/
def execPrmt (y g : Bool) (d a b : Field) (s : State) : Host.Outcome State Fault Refusal :=
  alu3 (info (.prmt y g d a b)) y g d a b s prmtV

/-- R215. -/
def execIcmpEq (y g : Bool) (d a b : Field) (s : State) : Host.Outcome State Fault Refusal :=
  compare (info (.icmpEq y g d a b)) y g d a b s fun a b => a == b

/-- R215. -/
def execIcmpNe (y g : Bool) (d a b : Field) (s : State) : Host.Outcome State Fault Refusal :=
  compare (info (.icmpNe y g d a b)) y g d a b s fun a b => a != b

/-- R215. -/
def execIcmpLtS (y g : Bool) (d a b : Field) (s : State) : Host.Outcome State Fault Refusal :=
  compare (info (.icmpLtS y g d a b)) y g d a b s fun a b => decide (a.toInt < b.toInt)

/-- R215. -/
def execIcmpLeS (y g : Bool) (d a b : Field) (s : State) : Host.Outcome State Fault Refusal :=
  compare (info (.icmpLeS y g d a b)) y g d a b s fun a b => decide (a.toInt ≤ b.toInt)

/-- R215. -/
def execIcmpLtN (y g : Bool) (d a b : Field) (s : State) : Host.Outcome State Fault Refusal :=
  compare (info (.icmpLtN y g d a b)) y g d a b s fun a b => decide (a.toNat < b.toNat)

/-- R215. -/
def execIcmpLeN (y g : Bool) (d a b : Field) (s : State) : Host.Outcome State Fault Refusal :=
  compare (info (.icmpLeN y g d a b)) y g d a b s fun a b => decide (a.toNat ≤ b.toNat)

/-- R215. -/
def execIcmpTest (y g : Bool) (d a b : Field) (s : State) : Host.Outcome State Fault Refusal :=
  compare (info (.icmpTest y g d a b)) y g d a b s fun a b => a &&& b != 0

/-- R216. -/
def execAdd64 (y g : Bool) (d a b : Field) (s : State) : Host.Outcome State Fault Refusal :=
  alu64 (info (.add64 y g d a b)) y g d s fun c ln => c.opnd64 g a ln + c.opnd64 g b ln

/-- R216. -/
def execSub64 (y g : Bool) (d a b : Field) (s : State) : Host.Outcome State Fault Refusal :=
  alu64 (info (.sub64 y g d a b)) y g d s fun c ln => c.opnd64 g a ln - c.opnd64 g b ln

/-- R216. -/
def execLea2 (y g : Bool) (d a b : Field) (s : State) : Host.Outcome State Fault Refusal :=
  alu64 (info (.lea2 y g d a b)) y g d s fun c ln => leaV 2 (c.opnd64 g a ln) (c.opnd g b ln 0)

/-- R216. -/
def execLea4 (y g : Bool) (d a b : Field) (s : State) : Host.Outcome State Fault Refusal :=
  alu64 (info (.lea4 y g d a b)) y g d s fun c ln => leaV 4 (c.opnd64 g a ln) (c.opnd g b ln 0)

/-- R216. -/
def execLea8 (y g : Bool) (d a b : Field) (s : State) : Host.Outcome State Fault Refusal :=
  alu64 (info (.lea8 y g d a b)) y g d s fun c ln => leaV 8 (c.opnd64 g a ln) (c.opnd g b ln 0)

/-- R216. -/
def execLea16 (y g : Bool) (d a b : Field) (s : State) : Host.Outcome State Fault Refusal :=
  alu64 (info (.lea16 y g d a b)) y g d s fun c ln => leaV 16 (c.opnd64 g a ln) (c.opnd g b ln 0)

/-- R217. -/
def execSext8 (y g : Bool) (d a : Field) (s : State) : Host.Outcome State Fault Refusal :=
  alu1 (info (.sext8 y g d a)) y g d a s fun a => (a.setWidth 8).signExtend 32

/-- R217. -/
def execSext16 (y g : Bool) (d a : Field) (s : State) : Host.Outcome State Fault Refusal :=
  alu1 (info (.sext16 y g d a)) y g d a s fun a => (a.setWidth 16).signExtend 32

/-- R217. -/
def execZext8 (y g : Bool) (d a : Field) (s : State) : Host.Outcome State Fault Refusal :=
  alu1 (info (.zext8 y g d a)) y g d a s fun a => (a.setWidth 8).setWidth 32

/-- R217. -/
def execZext16 (y g : Bool) (d a : Field) (s : State) : Host.Outcome State Fault Refusal :=
  alu1 (info (.zext16 y g d a)) y g d a s fun a => (a.setWidth 16).setWidth 32

/-- R217. -/
def execSext32 (y g : Bool) (d a : Field) (s : State) : Host.Outcome State Fault Refusal :=
  alu64 (info (.sext32 y g d a)) y g d s fun c ln => (c.opnd g a ln 0).signExtend 64

/-- R217. -/
def execZext32 (y g : Bool) (d a : Field) (s : State) : Host.Outcome State Fault Refusal :=
  alu64 (info (.zext32 y g d a)) y g d s fun c ln => (c.opnd g a ln 0).setWidth 64

/-- R217. -/
def execTrunc64 (y g : Bool) (d a : Field) (s : State) : Host.Outcome State Fault Refusal :=
  alu1 (info (.trunc64 y g d a)) y g d a s fun a => a

/-- R218. -/
def execAddi (y g : Bool) (d a : Field) (i : BitVec 10) (s : State) : Host.Outcome State Fault Refusal :=
  alu1 (info (.addi y g d a i)) y g d a s fun a => a + sext10 i

/-- R218. -/
def execAndi (y g : Bool) (d a : Field) (i : BitVec 10) (s : State) : Host.Outcome State Fault Refusal :=
  alu1 (info (.andi y g d a i)) y g d a s fun a => a &&& sext10 i

/-- R218. -/
def execOri (y g : Bool) (d a : Field) (i : BitVec 10) (s : State) : Host.Outcome State Fault Refusal :=
  alu1 (info (.ori y g d a i)) y g d a s fun a => a ||| zext10 i

/-- R218. -/
def execMovi (y g : Bool) (d : Field) (i : BitVec 17) (s : State) : Host.Outcome State Fault Refusal :=
  alu (info (.movi y g d i)) y g d s fun _ _ => sext17 i

/-- R210. -/
def execShli (y g : Bool) (d a : Field) (k : BitVec 6) (s : State) : Host.Outcome State Fault Refusal :=
  alu1 (info (.shli y g d a k)) y g d a s fun a => shlV a k.toNat

/-- R210. -/
def execShri (y g : Bool) (d a : Field) (k : BitVec 6) (s : State) : Host.Outcome State Fault Refusal :=
  alu1 (info (.shri y g d a k)) y g d a s fun a => shrV a k.toNat

/-- R210. -/
def execSari (y g : Bool) (d a : Field) (k : BitVec 6) (s : State) : Host.Outcome State Fault Refusal :=
  alu1 (info (.sari y g d a k)) y g d a s fun a => sarV a k.toNat

/-- R210. -/
def execRoli (y g : Bool) (d a : Field) (k : BitVec 6) (s : State) : Host.Outcome State Fault Refusal :=
  alu1 (info (.roli y g d a k)) y g d a s fun a => rolV a k.toNat

/-- R210. -/
def execRori (y g : Bool) (d a : Field) (k : BitVec 6) (s : State) : Host.Outcome State Fault Refusal :=
  alu1 (info (.rori y g d a k)) y g d a s fun a => rorV a k.toNat

/-- R210. -/
def execShlWi (y g : Bool) (d a : Field) (k : BitVec 6) (s : State) : Host.Outcome State Fault Refusal :=
  alu64 (info (.shlWi y g d a k)) y g d s fun c ln => shlV (c.opnd64 g a ln) k.toNat

/-- R210. -/
def execShrWi (y g : Bool) (d a : Field) (k : BitVec 6) (s : State) : Host.Outcome State Fault Refusal :=
  alu64 (info (.shrWi y g d a k)) y g d s fun c ln => shrV (c.opnd64 g a ln) k.toNat

/-- R210. -/
def execSarWi (y g : Bool) (d a : Field) (k : BitVec 6) (s : State) : Host.Outcome State Fault Refusal :=
  alu64 (info (.sarWi y g d a k)) y g d s fun c ln => sarV (c.opnd64 g a ln) k.toNat

/-- R220. -/
def execShflIdx (y : Bool) (d a b : Field) (s : State) : Host.Outcome State Fault Refusal :=
  shuffle (info (.shflIdx y d a b)) y d a b s fun _ k => k

/-- R220. -/
def execShflUp (y : Bool) (d a b : Field) (s : State) : Host.Outcome State Fault Refusal :=
  shuffle (info (.shflUp y d a b)) y d a b s fun ln k => if ln < k then ln else ln - k

/-- R220. -/
def execShflDn (y : Bool) (d a b : Field) (s : State) : Host.Outcome State Fault Refusal :=
  shuffle (info (.shflDn y d a b)) y d a b s fun ln k => if 31 < ln + k then ln else ln + k

/-- R220. -/
def execShflXor (y : Bool) (d a b : Field) (s : State) : Host.Outcome State Fault Refusal :=
  shuffle (info (.shflXor y d a b)) y d a b s fun ln k => ln ^^^ k

/-- R220. -/
def execBcast (y : Bool) (d a : Field) (s : State) : Host.Outcome State Fault Refusal :=
  issue (info (.bcast y d a)) y s fun c s =>
    .done (match c.lowest with | some ln => c.writeG d.toNat (c.src a ln 0) s | none => s)

/-- R220. -/
def execVset (y : Bool) (d : Field) (a : BitVec 4) (s : State) : Host.Outcome State Fault Refusal :=
  alu (info (.vset y d a)) y false d s fun c ln => if bitAt (c.bc a) ln then 0xFFFFFFFF else 0

/-- R220. -/
def execRedadd (y : Bool) (d a : Field) (s : State) : Host.Outcome State Fault Refusal :=
  gres (info (.redadd y d a)) y d s fun c =>
    ((List.range 32).filter c.active).foldl (fun x ln => x + c.src a ln 0) 0

/-- R220. -/
def execRedmaxS (y : Bool) (d a : Field) (s : State) : Host.Outcome State Fault Refusal :=
  gres (info (.redmaxS y d a)) y d s fun c =>
    ((List.range 32).filter c.active).foldl (fun x ln => if x.toInt ≤ (c.src a ln 0).toInt then c.src a ln 0 else x) 0x80000000

/-- R221. -/
def execMpopc (y : Bool) (d a : Field) (s : State) : Host.Outcome State Fault Refusal :=
  gres (info (.mpopc y d a)) y d s fun c => popcV (c.g a.toNat)

/-- R221. -/
def execMffs (y : Bool) (d a : Field) (s : State) : Host.Outcome State Fault Refusal :=
  gres (info (.mffs y d a)) y d s fun c => ctzV (c.g a.toNat)

/-- R221. -/
def execMfls (y : Bool) (d a : Field) (s : State) : Host.Outcome State Fault Refusal :=
  gres (info (.mfls y d a)) y d s fun c => flsV (c.g a.toNat)

/-- R221. -/
def execMtest (y : Bool) (d : BitVec 3) (a b : Field) (s : State) : Host.Outcome State Fault Refusal :=
  qres (info (.mtest y d a b)) y d s fun c => c.g a.toNat &&& c.g b.toNat != 0

/-- R221. -/
def execQand (y : Bool) (d a b : BitVec 3) (s : State) : Host.Outcome State Fault Refusal :=
  qres (info (.qand y d a b)) y d s fun c => c.q a.toNat && c.q b.toNat

/-- R221. -/
def execQor (y : Bool) (d a b : BitVec 3) (s : State) : Host.Outcome State Fault Refusal :=
  qres (info (.qor y d a b)) y d s fun c => c.q a.toNat || c.q b.toNat

/-- R221. -/
def execQxor (y : Bool) (d a b : BitVec 3) (s : State) : Host.Outcome State Fault Refusal :=
  qres (info (.qxor y d a b)) y d s fun c => c.q a.toNat != c.q b.toNat

/-- R221. -/
def execQnot (y : Bool) (d a : BitVec 3) (s : State) : Host.Outcome State Fault Refusal :=
  qres (info (.qnot y d a)) y d s fun c => !c.q a.toNat

/-- R222. -/
def execMov (y : Bool) (d a : Field) (s : State) : Host.Outcome State Fault Refusal :=
  alu (info (.mov y d a)) y false d s fun c ln => c.src a ln 0

/-- R222. -/
def execMovg (y : Bool) (d a : Field) (s : State) : Host.Outcome State Fault Refusal :=
  gres (info (.movg y d a)) y d s fun c => c.g a.toNat

/-- R222. -/
def execMovv (y : Bool) (d a : Field) (s : State) : Host.Outcome State Fault Refusal :=
  alu64 (info (.movv y d a)) y false d s fun c ln => c.opnd64 false a ln

/-- R222. -/
def execMovq (y : Bool) (d : BitVec 3) (a : Field) (s : State) : Host.Outcome State Fault Refusal :=
  qres (info (.movq y d a)) y d s fun c => c.g a.toNat != 0

/-- R222. -/
def execQmov (y : Bool) (d : Field) (a : BitVec 3) (s : State) : Host.Outcome State Fault Refusal :=
  gres (info (.qmov y d a)) y d s fun c => if c.q a.toNat then 1 else 0

end Sys2Proof.Machine
end

