-- ==== Sys2Proof/Machine/LoadStore.lean ====
section
/-! DEFINITION. The instructions of LD, ST, ATOM, ATOMX, RED, CACHE and REMOTE (R170–R183). -/

namespace Sys2Proof.Machine

open Sys2Proof

/-- RATOM's op, vd+1, must be 0–7 (R182). -/
def Ctx.ratomOp (c : Ctx) (d : Field) (ln : Nat) : Option Word :=
  if 8 ≤ (c.src d ln 1).toNat then some (c.src d ln 1) else none

/-- A remote operation waits to be acknowledged (R183). -/
def Wave.remotePending (v : Wave) : Bool :=
  v.ops.any fun o => match o.kind with | .remStore _ _ | .remLoad _ _ | .remAtomic _ => true | _ => false

/-- R171. -/
def execLdS8 (y g : Bool) (d a : Field) (r : BitVec 7) (s : State) : Host.Outcome State Fault Refusal :=
  let i := info (.ldS8 y g d a r)
  issue i y s fun c s => c.load s i g d a r.toNat (.fixed 1) 1 true

/-- R171. -/
def execLdZ8 (y g : Bool) (d a : Field) (r : BitVec 7) (s : State) : Host.Outcome State Fault Refusal :=
  let i := info (.ldZ8 y g d a r)
  issue i y s fun c s => c.load s i g d a r.toNat (.fixed 1) 1 false

/-- R171. -/
def execLdS16 (y g : Bool) (d a : Field) (r : BitVec 7) (s : State) : Host.Outcome State Fault Refusal :=
  let i := info (.ldS16 y g d a r)
  issue i y s fun c s => c.load s i g d a r.toNat (.fixed 2) 1 true

/-- R171. -/
def execLdZ16 (y g : Bool) (d a : Field) (r : BitVec 7) (s : State) : Host.Outcome State Fault Refusal :=
  let i := info (.ldZ16 y g d a r)
  issue i y s fun c s => c.load s i g d a r.toNat (.fixed 2) 1 false

/-- R171. -/
def execLd32 (y g : Bool) (d a : Field) (r : BitVec 7) (s : State) : Host.Outcome State Fault Refusal :=
  let i := info (.ld32 y g d a r)
  issue i y s fun c s => c.load s i g d a r.toNat (.fixed 4) 1 false

/-- R171. -/
def execLd64 (y g : Bool) (d a : Field) (r : BitVec 7) (s : State) : Host.Outcome State Fault Refusal :=
  let i := info (.ld64 y g d a r)
  issue i y s fun c s => c.load s i g d a r.toNat (.fixed 8) 2 false

/-- R171. -/
def execLd128 (y g : Bool) (d a : Field) (r : BitVec 7) (s : State) : Host.Outcome State Fault Refusal :=
  let i := info (.ld128 y g d a r)
  issue i y s fun c s => c.load s i g d a r.toNat (.fixed 16) 4 false

/-- R171. -/
def execLdE (y g : Bool) (d a : Field) (r : BitVec 7) (s : State) : Host.Outcome State Fault Refusal :=
  let i := info (.ldE y g d a r)
  issue i y s fun c s => c.load s i g d a r.toNat .elems 0 false

/-- R172. -/
def execSt8 (y g : Bool) (d a : Field) (r : BitVec 7) (s : State) : Host.Outcome State Fault Refusal :=
  let i := info (.st8 y g d a r)
  issue i y s fun c s => c.store s i g d a r.toNat (.fixed 1) 1

/-- R172. -/
def execSt16 (y g : Bool) (d a : Field) (r : BitVec 7) (s : State) : Host.Outcome State Fault Refusal :=
  let i := info (.st16 y g d a r)
  issue i y s fun c s => c.store s i g d a r.toNat (.fixed 2) 1

/-- R172. -/
def execSt32 (y g : Bool) (d a : Field) (r : BitVec 7) (s : State) : Host.Outcome State Fault Refusal :=
  let i := info (.st32 y g d a r)
  issue i y s fun c s => c.store s i g d a r.toNat (.fixed 4) 1

/-- R172. -/
def execSt64 (y g : Bool) (d a : Field) (r : BitVec 7) (s : State) : Host.Outcome State Fault Refusal :=
  let i := info (.st64 y g d a r)
  issue i y s fun c s => c.store s i g d a r.toNat (.fixed 8) 2

/-- R172. -/
def execSt128 (y g : Bool) (d a : Field) (r : BitVec 7) (s : State) : Host.Outcome State Fault Refusal :=
  let i := info (.st128 y g d a r)
  issue i y s fun c s => c.store s i g d a r.toNat (.fixed 16) 4

/-- R172. -/
def execStE (y g : Bool) (d a : Field) (r : BitVec 7) (s : State) : Host.Outcome State Fault Refusal :=
  let i := info (.stE y g d a r)
  issue i y s fun c s => c.store s i g d a r.toNat .elems 0

/-- R175, R177. -/
def execAtomAdd (y : Bool) (d a : Field) (sc : BitVec 2) (r : BitVec 5) (s : State) : Host.Outcome State Fault Refusal :=
  let i := info (.atomAdd y d a sc r)
  issue i y s fun c s => c.atomic s i d a r.toNat sc.toNat 4 1 .add true

/-- R175, R177. -/
def execAtomMinS (y : Bool) (d a : Field) (sc : BitVec 2) (r : BitVec 5) (s : State) : Host.Outcome State Fault Refusal :=
  let i := info (.atomMinS y d a sc r)
  issue i y s fun c s => c.atomic s i d a r.toNat sc.toNat 4 1 .minS true

/-- R175, R177. -/
def execAtomMaxS (y : Bool) (d a : Field) (sc : BitVec 2) (r : BitVec 5) (s : State) : Host.Outcome State Fault Refusal :=
  let i := info (.atomMaxS y d a sc r)
  issue i y s fun c s => c.atomic s i d a r.toNat sc.toNat 4 1 .maxS true

/-- R175, R177. -/
def execAtomMinN (y : Bool) (d a : Field) (sc : BitVec 2) (r : BitVec 5) (s : State) : Host.Outcome State Fault Refusal :=
  let i := info (.atomMinN y d a sc r)
  issue i y s fun c s => c.atomic s i d a r.toNat sc.toNat 4 1 .minN true

/-- R175, R177. -/
def execAtomMaxN (y : Bool) (d a : Field) (sc : BitVec 2) (r : BitVec 5) (s : State) : Host.Outcome State Fault Refusal :=
  let i := info (.atomMaxN y d a sc r)
  issue i y s fun c s => c.atomic s i d a r.toNat sc.toNat 4 1 .maxN true

/-- R175, R177. -/
def execAtomAnd (y : Bool) (d a : Field) (sc : BitVec 2) (r : BitVec 5) (s : State) : Host.Outcome State Fault Refusal :=
  let i := info (.atomAnd y d a sc r)
  issue i y s fun c s => c.atomic s i d a r.toNat sc.toNat 4 1 .and true

/-- R175, R177. -/
def execAtomOr (y : Bool) (d a : Field) (sc : BitVec 2) (r : BitVec 5) (s : State) : Host.Outcome State Fault Refusal :=
  let i := info (.atomOr y d a sc r)
  issue i y s fun c s => c.atomic s i d a r.toNat sc.toNat 4 1 .or true

/-- R175, R177. -/
def execAtomExch (y : Bool) (d a : Field) (sc : BitVec 2) (r : BitVec 5) (s : State) : Host.Outcome State Fault Refusal :=
  let i := info (.atomExch y d a sc r)
  issue i y s fun c s => c.atomic s i d a r.toNat sc.toNat 4 1 .exch true

/-- R175, R177. -/
def execAtomxCas (y : Bool) (d a : Field) (sc : BitVec 2) (r : BitVec 5) (s : State) : Host.Outcome State Fault Refusal :=
  let i := info (.atomxCas y d a sc r)
  issue i y s fun c s => c.atomic s i d a r.toNat sc.toNat 4 2 .cas true

/-- R175, R177. -/
def execAtomxXor (y : Bool) (d a : Field) (sc : BitVec 2) (r : BitVec 5) (s : State) : Host.Outcome State Fault Refusal :=
  let i := info (.atomxXor y d a sc r)
  issue i y s fun c s => c.atomic s i d a r.toNat sc.toNat 4 1 .xor true

/-- R176, R177. -/
def execAtomxFadd (y : Bool) (d a : Field) (sc : BitVec 2) (r : BitVec 5) (s : State) : Host.Outcome State Fault Refusal :=
  let i := info (.atomxFadd y d a sc r)
  issue i y s fun c s => c.atomic s i d a r.toNat sc.toNat 4 1 .fadd true

/-- R176, R177. -/
def execAtomxFmin (y : Bool) (d a : Field) (sc : BitVec 2) (r : BitVec 5) (s : State) : Host.Outcome State Fault Refusal :=
  let i := info (.atomxFmin y d a sc r)
  issue i y s fun c s => c.atomic s i d a r.toNat sc.toNat 4 1 .fmin true

/-- R176, R177. -/
def execAtomxFmax (y : Bool) (d a : Field) (sc : BitVec 2) (r : BitVec 5) (s : State) : Host.Outcome State Fault Refusal :=
  let i := info (.atomxFmax y d a sc r)
  issue i y s fun c s => c.atomic s i d a r.toNat sc.toNat 4 1 .fmax true

/-- R175, R177. -/
def execAtomxAdd64 (y : Bool) (d a : Field) (sc : BitVec 2) (r : BitVec 5) (s : State) : Host.Outcome State Fault Refusal :=
  let i := info (.atomxAdd64 y d a sc r)
  issue i y s fun c s => c.atomic s i d a r.toNat sc.toNat 8 2 .add true

/-- R175, R177. -/
def execAtomxCas64 (y : Bool) (d a : Field) (sc : BitVec 2) (r : BitVec 5) (s : State) : Host.Outcome State Fault Refusal :=
  let i := info (.atomxCas64 y d a sc r)
  issue i y s fun c s => c.atomic s i d a r.toNat sc.toNat 8 4 .cas true

/-- R175, R177. -/
def execAtomxIncw (y : Bool) (d a : Field) (sc : BitVec 2) (r : BitVec 5) (s : State) : Host.Outcome State Fault Refusal :=
  let i := info (.atomxIncw y d a sc r)
  issue i y s fun c s => c.atomic s i d a r.toNat sc.toNat 4 1 .incw true

/-- R175, R177. -/
def execRedAdd (y : Bool) (d a : Field) (sc : BitVec 2) (r : BitVec 5) (s : State) : Host.Outcome State Fault Refusal :=
  let i := info (.redAdd y d a sc r)
  issue i y s fun c s => c.atomic s i d a r.toNat sc.toNat 4 1 .add false

/-- R175, R177. -/
def execRedMinS (y : Bool) (d a : Field) (sc : BitVec 2) (r : BitVec 5) (s : State) : Host.Outcome State Fault Refusal :=
  let i := info (.redMinS y d a sc r)
  issue i y s fun c s => c.atomic s i d a r.toNat sc.toNat 4 1 .minS false

/-- R175, R177. -/
def execRedMaxS (y : Bool) (d a : Field) (sc : BitVec 2) (r : BitVec 5) (s : State) : Host.Outcome State Fault Refusal :=
  let i := info (.redMaxS y d a sc r)
  issue i y s fun c s => c.atomic s i d a r.toNat sc.toNat 4 1 .maxS false

/-- R175, R177. -/
def execRedMinN (y : Bool) (d a : Field) (sc : BitVec 2) (r : BitVec 5) (s : State) : Host.Outcome State Fault Refusal :=
  let i := info (.redMinN y d a sc r)
  issue i y s fun c s => c.atomic s i d a r.toNat sc.toNat 4 1 .minN false

/-- R175, R177. -/
def execRedMaxN (y : Bool) (d a : Field) (sc : BitVec 2) (r : BitVec 5) (s : State) : Host.Outcome State Fault Refusal :=
  let i := info (.redMaxN y d a sc r)
  issue i y s fun c s => c.atomic s i d a r.toNat sc.toNat 4 1 .maxN false

/-- R175, R177. -/
def execRedAnd (y : Bool) (d a : Field) (sc : BitVec 2) (r : BitVec 5) (s : State) : Host.Outcome State Fault Refusal :=
  let i := info (.redAnd y d a sc r)
  issue i y s fun c s => c.atomic s i d a r.toNat sc.toNat 4 1 .and false

/-- R175, R177. -/
def execRedOr (y : Bool) (d a : Field) (sc : BitVec 2) (r : BitVec 5) (s : State) : Host.Outcome State Fault Refusal :=
  let i := info (.redOr y d a sc r)
  issue i y s fun c s => c.atomic s i d a r.toNat sc.toNat 4 1 .or false

/-- R176, R177. -/
def execRedFadd (y : Bool) (d a : Field) (sc : BitVec 2) (r : BitVec 5) (s : State) : Host.Outcome State Fault Refusal :=
  let i := info (.redFadd y d a sc r)
  issue i y s fun c s => c.atomic s i d a r.toNat sc.toNat 4 1 .fadd false

/-- R180. -/
def execPref (y : Bool) (a : Field) (r : BitVec 7) (s : State) : Host.Outcome State Fault Refusal :=
  let i := info (.pref y a r)
  issue i y s fun c s => c.cacheOp s a r.toNat fun _ lanes s =>
    c.prefetchAll true false c.pa.phase (lanes.drop c.pa.phase) s

/-- R180. -/
def execPrefx (y : Bool) (a : Field) (r : BitVec 7) (s : State) : Host.Outcome State Fault Refusal :=
  let i := info (.prefx y a r)
  issue i y s fun c s => c.cacheOp s a r.toNat fun _ lanes s =>
    c.prefetchAll false true c.pa.phase (lanes.drop c.pa.phase) s

/-- R180. -/
def execEvict (y : Bool) (a : Field) (r : BitVec 7) (s : State) : Host.Outcome State Fault Refusal :=
  let i := info (.evict y a r)
  issue i y s fun c s => c.cacheOp s a r.toNat fun _ lanes s =>
    if lanes = [] then .done s else c.async { ctr := .sc, lanes, kind := .evict } s

/-- R182. -/
def execRst (y : Bool) (d a : Field) (r : BitVec 7) (s : State) : Host.Outcome State Fault Refusal :=
  let i := info (.rst y d a r)
  issue i y s fun c s => c.globalOp s i false d a r.toNat .store .words 0 (fun _ => none) fun rc lanes s =>
    c.async { ctr := .sc, nregs := rbEpa rc, lanes, kind := .remStore (4 * rbEpa rc) (rbPolicy rc) } s

/-- R182. -/
def execRld (y : Bool) (d a : Field) (r : BitVec 7) (s : State) : Host.Outcome State Fault Refusal :=
  let i := info (.rld y d a r)
  issue i y s fun c s => c.globalOp s i false d a r.toNat .load .words 0 (fun _ => none) fun rc lanes s =>
    c.async { ctr := .lc, nregs := rbEpa rc, lanes, kind := .remLoad (4 * rbEpa rc) (rbPolicy rc) } s

/-- R182. -/
def execRatom (y : Bool) (d a : Field) (r : BitVec 7) (s : State) : Host.Outcome State Fault Refusal :=
  let i := info (.ratom y d a r)
  issue i y s fun c s => c.globalOp s i false d a r.toNat (.atomic true) (.fixed 4) 2 (c.ratomOp d) fun rc lanes s =>
    c.async { ctr := .lc, nregs := 1, lanes, kind := .remAtomic (rbPolicy rc) } s

/-- R183. -/
def execRfence (y : Bool) (s : State) : Host.Outcome State Fault Refusal :=
  let i := info (.rfence y)
  issue i y s fun c s => c.fenceHold (if c.wv.remotePending then .hold .waitSt s else .done s)

end Sys2Proof.Machine
end

