-- ==== Sys2Proof/Machine/Returns.lean ====
section
/-! DEFINITION. The return of asynchronous operations: results (spec/02 R25, R36) and acknowledgements (spec/07 R165). -/

namespace Sys2Proof.Machine

open Sys2Proof

/-- The unit to which a lane of an operation has gone carries it out, if it is its turn. L2 requests, matrix operations
and the other operations that have events of their own stay as they are. -/
def State.carryOut (s : State) (b w : Nat) (op : AsyncOp) (lane : Nat) : State :=
  match op.kind with
  | .loadLocal _ _ | .atomicLocal _ => s.performLocal b w op.id lane
  | .tex _ _ | .boxt | .trit | .stkPush | .stkPop | .frag => s.performCo b w op.id lane
  | .scq | .scpub | .scabort | .scinv | .scpin | .scunpin | .sctick => s.performShc b w op.id lane
  | .tlaunch | .tdec _ | .tcancel | .tstat => s.performTask b w op.id
  | .pin _ | .unpin _ | .frpop | .migr => s.performPriv b w op.id
  | _ => s

/-- The result words of a lane go to its destination: they overwrite what it holds (R36). A wave that is DONE takes
none (R169). -/
def State.writeResult (s : State) (b w : Nat) (op : AsyncOp) (l : LaneOp) : State :=
  if (s.wv b w).st = .done then s
  else if op.uniform then
    let g := l.res.zipIdx.filter fun e => l.dst + e.2 ≠ 0
    s.modWv b w fun v =>
      { v with
        g := g.foldl (fun m e => SMap.put 0 m (l.dst + e.2) e.1) v.g
        ra := v.ra.map fun r => { r with badG := r.badG.filter fun x => !(g.any fun e => l.dst + e.2 == x) } }
  else
    let c := s.ctxAt b w 0
    let row (j : Nat) : Nat := vRow c.nw c.B c.X w (l.dst + j)
    (s.modBlk b fun k => { k with v := l.res.zipIdx.foldl (fun v e => rowPut v (row e.2) (· == l.lane) fun _ => e.1) k.v }).modWv b w
      fun v => { v with ra := v.ra.map fun r =>
        { r with badV := r.badV.filter fun x => !(l.res.zipIdx.any fun e => (l.dst + e.2) * 32 + l.lane == x) } }

/-- ASYNC_RESULT_RETURN (R25, R36, R165): a lane that its unit has not yet carried out is carried out; the result of one
that has is written, once the banks of its block are awake (R160), and the counter falls with the last lane. A query that may have found a tile invalidates the core's
lines of the heap before its result is written (R312). -/
def execAsyncResultReturn (b w op lane : Nat) (s : State) : Host.Outcome State Fault Refusal :=
  match (s.wv b w).op? op with
  | none => .next s
  | some o =>
    match o.lanes.find? fun l => l.lane == lane with
    | none => .next s
    | some l =>
      if l.st = .pending then .next (s.carryOut b w o lane)
      else if l.st ≠ .ready ∨ o.ctr = .sc ∨ (s.blk b).waking ≠ [] then .next s
      else
        let s := if o.kind = .scq ∧ o.phase = 1 then s.l1DropRegion (s.blk b).core 12 else s
        .next (((s.writeResult b w o l).modLane b w op lane fun l => { l with st := .returned }).retire b w op)

/-- STORE_ACKNOWLEDGE (R165): a local store is performed lane by lane; an operation counted on SC is acknowledged once
every lane has taken effect at the level that R165 names. -/
def execStoreAcknowledge (b w op : Nat) (s : State) : Host.Outcome State Fault Refusal :=
  match (s.wv b w).op? op with
  | none => .next s
  | some o =>
    if o.ctr ≠ .sc then .next s
    else
      let due (l : LaneOp) : Bool := l.st == .pending && (match o.kind with | .storeLocal _ => !l.attachLane o.kind && !l.profLane o.kind | _ => false) &&
        (s.wv b w).mayPerform o l
      match o.lanes.find? due with
      | some l => .next (s.performLocal b w op l.lane)
      | none =>
        if o.lanes.all fun l => l.st == .ready || l.st == .returned then
          .next ((s.modOp b w op fun o => { o with lanes := o.lanes.map fun (l : LaneOp) => { l with st := .returned } }).retire b w op)
        else .next s

end Sys2Proof.Machine
end

