-- ==== Sys2Proof/Machine/Shutter.lean ====
section
/-! DEFINITION. Entry edges and shutters (spec/18 R413), the drain budget and overrun (R416–R418), SEAL and the sealed set
(R423), SCRUB (R420), and what the management core does about heat (spec/19 R435). -/

namespace Sys2Proof.Machine

open Sys2Proof

/-- The blocks that are bound to a ridge. -/
def State.onRidge (s : State) (r : Nat) : List Nat :=
  (List.range s.blocks.length).filter fun b => (s.blk b).st == .resident && (s.blk b).core / 8 == r

/-! ### The edge (R411, R413) -/

/-- A ridge enters STOP: dispatch to it stops, and every wave on it. -/
def State.shutter (s : State) (r : Nat) (incoming : Option Nat) (edge entry : Nat) : State :=
  (s.onRidge r).foldl State.stopBlock
    (s.modRidge r fun x => { x with phase := .stop, incoming, edge, entry, nrec := 0 })

/-- What an edge does to one ridge: `w` is the world that the new entry gives it. -/
def State.ridgeEdge (s : State) (r : Nat) (w : Option Nat) (edge entry : Nat) : State :=
  let x := s.ridge r
  if x.phase ≠ .open_ then s.modRidge r fun y => { y with incoming := w }
  else if x.world = w then s.modRidge r fun y => { y with lent := false }
  else if x.world.isNone then s.openFor r w
  else s.shutter r w edge entry

/-- The table and the entry that follow the running entry (R411). -/
def State.nextEntry (s : State) : List (BitVec 512) × Nat :=
  match s.slotsNext, s.slot with
  | some t, _ => (t, 0)
  | none, some e => (s.slots, if slLast e then 0 else s.slotEntry + 1)
  | none, none => (s.slots, 0)

/-- SLOT_ENTRY_EDGE (R411, R413, R419): the next entry takes effect on all 32 ridges at once. -/
def execSlotEntryEdge (s : State) : Host.Outcome State Fault Refusal :=
  if s.slots = [] || s.thermal || s.clk < s.slotEnd then .next s
  else
    let edge := s.slotEnd
    let old := s.slotEntry
    let (t, i) := s.nextEntry
    let e := t.getD i 0
    .next ((List.range 32).foldl (fun s r => s.ridgeEdge r (slWorld e r) edge old)
      { s with slots := t, slotEntry := i, slotStart := edge, slotsNext := none })

/-! ### DRAIN (R413, R109) -/

/-- The cluster unit of a ridge returns the lines it holds (R109). -/
def State.returnLines (s : State) (r : Nat) : State :=
  (s.l2.filter fun e => match e.2 with | some l => l.holder == some r | none => false).foldl
    (fun s e => s.recall (countWorld noWorld (e.1 * 128)) e.1) s

/-- SHUTTER_DRAIN_COMPLETE (R413): everything outstanding of the outgoing world has completed. -/
def execShutterDrainComplete (ridge : Nat) (s : State) : Host.Outcome State Fault Refusal :=
  let x := s.ridge ridge
  if (x.phase ≠ .stop ∧ x.phase ≠ .drain) ∨ !(s.onRidge ridge).all s.drained then .next s
  else .next ((s.returnLines ridge).modRidge ridge fun y => { y with phase := .seal })

/-- CLK at which the drain budget of a ridge ends (R413). -/
def State.drainEnd (s : State) (r : Nat) : Nat :=
  (s.ridge r).edge + wrDrain (s.world ((s.ridge r).world.getD noWorld)).record * cyclesPerUs

/-- A segment that has moved completes; one that is not finished stops, each of its lines old or whole: which of them is
not defined (R128, R416). -/
def State.copyAtBudget (s : State) (b : Nat) (c : Copy) : Option Over × State :=
  let first := match c.pieces c.next with
    | p :: _ => if (fnSides c.fn).2 == .glob then p.dst.headD 0 else p.src.headD 0
    | [] => 0
  match c.st with
  | .moved => (none, match execCopySegmentComplete b (c.wave % 32) c.id s with | .next s => s | _ => s)
  | .pinned =>
    let (moved, s) := s.freeBit
    let s := if moved then s.segMove c else s
    let s := match s.copy? c.id with | some c => s.segSettle c | none => s
    (some { block := b, wave := c.wave % 32, kind := 4, pc := c.pc, va := first, segdone := c.next, batch := c.batch }, s)
  | _ => (none, s)

/-- What of a block is still incomplete at E + DRAIN: one record for each instruction or copy. Results that only a
run-ahead awaits are none of the wave's (R77). -/
def State.oversAt (s : State) (b : Nat) : List Over × State :=
  let k := s.blk b
  let ops := k.waves.zipIdx.flatMap fun e => (e.1.ops.filter fun o => !e.1.isRa o.id).map (overOf b e.2 e.1)
  let mext := (s.world (s.launchOf b).world).mextq.filterMap fun e =>
    if e.1 = b then some ({ block := b, wave := e.2.1, pc := ((s.wv b e.2.1).path ((s.wv b e.2.1).excl.getD 0)).pc } : Over) else none
  (s.copiesOf b).foldl (fun (r : List Over × State) c =>
    match r.2.copyAtBudget b c with
    | (some o, s) => (r.1 ++ [o], s)
    | (none, s) => (r.1, s)) (ops ++ mext, s)

/-- A run-ahead that has not ended by the budget ends with what it has found (R77). -/
def State.dropRa (s : State) (b w : Nat) : State :=
  match (s.wv b w).ra with
  | none => s
  | some r =>
    let s := s.modWv b w fun v => { v with ops := v.ops.filter fun o => !r.pend.contains o.id, ra := some { r with pend := [], ended := true } }
    match execRunAheadEnd b w s with
    | .next s => s
    | _ => s

/-! ### SEAL (R403, R412, R418) -/

/-- Save one cluster of a ridge; where a block finds no room the cluster is discarded (R418), and without a spill region so
is every one after it, which the flag says (R412). A block that SEAL saves is no displaced one any more (R413). -/
def State.sealCluster (ridge total : Nat) (r : Bool × State) (ms : List Nat) : Bool × State :=
  let here := ms.filter fun m => (r.2.blk m).st == .resident
  match if r.1 then (here, r.2) else r.2.saveAll here with
  | ([], s) => (r.1, here.foldl (fun s m => s.modBlk m fun k => { k with displaced := false }) s)
  | (full, s) =>
    let os := full.flatMap fun m => (List.range (s.blk m).waves.length).map fun w => ({ block := m, wave := w } : Over)
    (r.1 || wrSpillsize (s.world (s.launchOf (ms.headD 0)).world).record == 0,
      ((s.writeOvers ridge (s.ridge ridge).nrec total os).modRidge ridge fun y => { y with nrec := y.nrec + os.length }).overrunBlocks ms)

/-- SEAL of a ridge: every block that is left is saved, in order of block number; what has retired meanwhile is not. `total`
is the number of the shutter's overrun records for the ridge (R417). -/
def State.sealRidge (s : State) (ridge total : Nat) : State :=
  let s := (s.onRidge ridge).foldl (fun s b => match execResourceRelease b s with | .next s => s | _ => s) s
  (((s.onRidge ridge).map s.mates).dedup.foldl (State.sealCluster ridge total) (false, s)).2

/-- The number of overrun records that a shutter writes for a ridge, those of its SEAL included, as its stores' room now
stands (R417; notes/assumptions/69.md). -/
def State.sealCount (s : State) (ridge : Nat) : Nat := ((s.sealRidge ridge 0).ridge ridge).nrec

/-! ### The budget's end -/

/-- DRAIN_BUDGET_EXPIRY (R413, R416, R417): what is incomplete stops, its blocks and their clusters are discarded. -/
def execDrainBudgetExpiry (ridge : Nat) (s : State) : Host.Outcome State Fault Refusal :=
  let x := s.ridge ridge
  if (x.phase ≠ .stop ∧ x.phase ≠ .drain) ∨ s.clk < s.drainEnd ridge then .next s
  else
    let bs := s.onRidge ridge
    let (os, s) := bs.foldl (fun (r : List Over × State) b =>
      let (o, s) := r.2.oversAt b
      (r.1 ++ o, s)) ([], s)
    let lost := (os.flatMap fun o => s.mates o.block).dedup
    let finish (total : Nat) : State :=
      let s := (s.writeOvers ridge 0 total os).overrunBlocks lost
      let s := s.modWorld (x.world.getD noWorld) fun w => { w with mextq := w.mextq.filter fun e => !lost.contains e.1 }
      let s := (bs.filter fun b => !lost.contains b).foldl (fun s b => (List.range (s.blk b).waves.length).foldl (fun s w => s.dropRa b w) s) s
      (s.returnLines ridge).modRidge ridge fun y => { y with phase := .seal, nrec := os.length }
    .next (finish ((finish 0).sealCount ridge))

/-! ### The sealed set (R423) -/

/-- The registers of a world go into its sealed set, with the edge (R423). -/
def State.sealSet (s : State) (w edge : Nat) : State :=
  let idx := (16 + w) :: ((List.range 96).filter fun v => (wrVfs (s.world w).record).testBit v).map (32 + ·)
  s.modWorld w fun x => { x with isSealed := true, sealedClk := edge, sealedSet := idx.map fun i => (i, SMap.get 0 s.meas i) }

/-- SEAL_COMPLETE (R413, R418, R423): every block that is left is saved, in order of block number. -/
def execSealComplete (ridge : Nat) (s : State) : Host.Outcome State Fault Refusal :=
  let x := s.ridge ridge
  if x.phase ≠ .seal then .next s
  else
    let s := (s.sealRidge ridge (s.sealCount ridge)).modRidge ridge fun y => { y with phase := .scrub }
    .next (match x.world with
      | some w => if s.ridges.any fun y => y.world == some w && y.phase != .scrub then s else s.sealSet w x.edge
      | none => s)

/-! ### SCRUB and OPEN (R157, R420) -/

/-- A core keeps nothing of the outgoing world. Raster jobs that saved waves have open are held with them (R265). -/
def State.scrubCore (s : State) (core : Nat) : State :=
  (s.pruneKeys core).modCore core fun k => Core.wakeL1
    { k with
      l1 := [], icache := [], recs := [], shapes := [], resid := [], filter := [], reports := [], ranges := [], matq := []
      wait := [], rjobs := [], heldJobs := k.heldJobs ++ k.rjobs, splitR := 32, splitS := 0 }

/-- SCRUB_COMPLETE (R413, R419, R420): the ridge opens for the world of the entry in force. -/
def execScrubComplete (ridge : Nat) (s : State) : Host.Outcome State Fault Refusal :=
  let x := s.ridge ridge
  if x.phase ≠ .scrub then .next s
  else .next (((List.range 8).foldl (fun s c => s.scrubCore (ridge * 8 + c)) s).openFor ridge x.incoming)

/-! ### Heat (R435) -/

/-- A CLASS 3 event: what DATA holds is not stated. -/
def State.thermalEvent (s : State) (cls : Nat) (code : Option Nat) (unit : Option Nat) : State :=
  let (data, s) := s.freeNat (2 ^ 128)
  s.log cls code unit noWorld data

/-- THERMAL_WARNING (R435). -/
def execThermalWarning (die : Nat) (s : State) : Host.Outcome State Fault Refusal :=
  if !s.powered then .next s else .next (s.thermalEvent 3 (some 1) (some die))

/-- THERMAL_SHUTTER (R435): an immediate edge on every ridge, after which every ridge is idle. -/
def execThermalShutter (die : Nat) (s : State) : Host.Outcome State Fault Refusal :=
  if !s.powered then .next s
  else
    let s := s.thermalEvent 3 (some 2) (some die)
    .next ((List.range 32).foldl (fun s r => s.ridgeEdge r none s.clk s.slotEntry) { s with thermal := true })

/-- THERMAL_RESUME (R435): the slot table resumes at entry 0, a table that was accepted meanwhile with it (R411). -/
def execThermalResume (s : State) : Host.Outcome State Fault Refusal :=
  if !s.thermal || !s.powered then .next s
  else
    let s := { s.thermalEvent 3 (some 3) none with thermal := false }
    let t := s.slotsNext.getD s.slots
    .next (if t = [] then s else s.beginTable t s.clk)

/-- THERMAL_POWER_REMOVE (R435): package power goes, and with it every context not yet sealed. -/
def execThermalPowerRemove (die : Nat) (s : State) : Host.Outcome State Fault Refusal :=
  if !s.powered then .next s
  else
    let s := s.thermalEvent 7 none (some die)
    .next { s with
      powered := false, cur := none
      blocks := s.blocks.map fun (k : Block) =>
        if k.st = .resident then { k with st := .discarded, waves := k.waves.map fun v => { v with st := .done, ops := [] } } else k }

end Sys2Proof.Machine
end

