-- ==== Sys2Proof/Machine/Run.lean ====
section
/-! DEFINITION. What moves next: the choice of a wave and of a path (spec/15 R335–R338), the instruction word that the
chosen path issues (R26, R33, R50), the steps that the rest of the G96 may take, what every step leaves to be settled,
time and the stall counters (spec/20 R443, R445). -/

namespace Sys2Proof.Machine

open Sys2Proof

/-! ### Which path of a wave issues (R338) -/

/-- The path goes on inside its clause: nothing has held its next word (R338). -/
def Wave.goesOn (v : Wave) : Bool :=
  let p := v.path v.lastPath
  v.qualifies v.lastPath && p.cpos ≠ 0 && p.blocked.isNone

/-- The path that issues next (R338): the last one inside its clause; else, in ring order after it, the first that
PYIELD has not marked, or the first. -/
def Wave.nextPath (v : Wave) : Option Nat :=
  if v.goesOn then some v.lastPath
  else
    let ring := ((List.range 8).map fun i => (v.lastPath + 1 + i) % 8).filter v.qualifies
    match ring.find? fun p => !(v.path p).ymark with
    | some p => some p
    | none => ring.head?

/-- A choice of a path clears the PYIELD marks of the paths that qualify (R338, R355). -/
def Wave.clearMarks (v : Wave) : Wave :=
  if v.goesOn then v
  else { v with paths := v.paths.mapIdx fun p x => if v.qualifies p then { x with ymark := false } else x }

/-! ### Arbitration (R31, R337) -/

/-- The class of an instruction word with G = 0 (R45, R46). -/
def wordClass (w : Word) : Nat :=
  let m := fld w 29 24
  if m ≤ 0x17 then 0
  else if m == 0x19 then (if [1, 3, 4].contains (fld w 23 21) then 1 else 0)
  else if m == 0x18 then 1
  else if m ≤ 0x23 || m == 0x34 then 2
  else if m ≤ 0x26 then 4
  else if m ≤ 0x2A then 3
  else if m == 0x33 then 6
  else 5

/-- Instructions of classes 0, 2, 3 and 4 that execute once (R124, R236, R241, R285, R289, R300, R183). -/
def executesOnce (w : Word) : Bool :=
  let m := fld w 29 24
  let f := fld w 23 21
  m == 0x23 || (m == 0x24 && 2 ≤ f) || m == 0x26 || (m == 0x28 && f == 3) || (m == 0x29 && f == 3) ||
    (m == 0x2A && [2, 3, 7].contains f) || (m == 0x34 && f == 3)

/-- A pair instruction (R337). -/
def pairWord (w : Word) : Bool := !w.getLsbD 30 && [0, 2, 3, 4].contains (wordClass w) && !executesOnce w

/-- A word with an FP64 operand or result (R225). -/
def fp64Word (w : Word) : Bool :=
  let m := fld w 29 24
  let f := fld w 23 21
  (m == 0x09 && 4 ≤ f) || (m == 0x0B && 5 ≤ f) || (m == 0x0D && 4 ≤ f) || (m == 0x0E && f ≠ 5)

/-- Cycles for which a word holds its lane pair, or the group-wide unit (R225, R337). -/
def slotCycles (w : Word) : Nat :=
  if pairWord w then (if fp64Word w then 32 else 16) else if w.getLsbD 30 && fp64Word w then 2 else 1

/-- The slot of what the issuing path issues: its cycles, its unit, and the class of the word, none for a header. In a
clause of class 7 a word of another class than the one before it takes a cycle more (R31, R337). -/
def Ctx.slot (c : Ctx) (i : Instr) : Nat × Nat × Option Nat :=
  let group := 64 + c.wv.pair / 16
  if c.pa.cpos = 0 then (1, group, none)
  else
    let change := fld c.pa.hdr 22 20 == 7 && (match c.wv.lastCls, i.cls with | some x, some y => x ≠ y | _, _ => false)
    (slotCycles c.pa.word + change.toNat, if pairWord c.pa.word then c.wv.pair else group, i.cls)

/-- PERIOD of a launch's profiling control, if it samples. -/
def Launch.period (l : Launch) : Option Nat :=
  let p := fld l.profile 159 128
  if l.st = .ready ∧ 1024 ≤ p then some p else none

/-- A unit of a core is held by the slot of a wave's latest issue (R337). -/
def State.unitHeld (s : State) (core unit : Nat) : Bool :=
  (s.wavesOn core).any fun bw => (s.wv bw.1 bw.2).slotUnit == unit && s.clk < (s.wv bw.1 bw.2).slotEnd

/-- The next word of a path is a pair instruction. Headers are issued by the group-wide unit. -/
def State.nextIsPair (s : State) (b w p : Nat) : Bool :=
  let c := s.ctxAt b w p
  if c.pa.cpos = 0 then false
  else if c.pa.blocked.isSome ∧ c.pa.blocked ≠ some .fetch then pairWord c.pa.word
  else match c.clauseWord s 0 with
    | .ok x _ => pairWord x
    | _ => false

/-- The waves that a free unit of a core may choose among: units 0–63 are its lane pairs, 64–67 the group-wide units of its
quadrants. A wave whose slot is not over is none of them (R338), nor is one that a sample has found not issuing in this
cycle (R445). -/
def State.contenders (s : State) (core unit : Nat) : List (Nat × Nat) :=
  if s.unitHeld core unit then []
  else (s.wavesOn core).filter fun bw =>
    let v := s.wv bw.1 bw.2
    let l := s.launchOf bw.1
    s.ready bw.1 bw.2 && v.slotEnd ≤ s.clk && !(l.period.isSome && l.sampled == s.clk) &&
      (match v.nextPath with
       | some p =>
         let pair := s.nextIsPair bw.1 bw.2 p
         if unit < 64 then pair && v.pair == unit else !pair && v.pair / 16 == unit - 64
       | none => false)

/-- ISSUE_ARBITRATION (R337): a wave that has waited for 64 cycles comes first, then the one that issued least recently. -/
def execIssueArbitration (core unit : Nat) (s : State) : Host.Outcome State Fault Refusal :=
  if s.cur.isSome then .next s
  else
    let ws := s.contenders core unit
    let old := ws.filter fun bw => (s.wv bw.1 bw.2).readySince + 64 ≤ s.clk
    let ws := if old = [] then ws else old
    let best := ws.filter fun bw => ws.all fun x => (s.wv bw.1 bw.2).lastIssue ≤ (s.wv x.1 x.2).lastIssue
    if best = [] then .next s
    else
      let (n, s) := s.freeNat best.length
      let (b, w) := best.getD n (0, 0)
      match (s.wv b w).nextPath with
      | some p => .next { s.modWv b w Wave.clearMarks with cur := some (b, w, p) }
      | none => .next s

/-! ### The word that the chosen path issues -/

/-- What the issuing path does next. -/
inductive Plan where
  /-- no path issues -/
  | idle
  /-- the chosen path can no longer issue -/
  | gone (s : State)
  /-- the path's word could not be fetched or decoded, and the path has met what follows -/
  | moved (s : State)
  /-- it issues a header or an instruction word -/
  | issue (i : Instr) (s : State)

noncomputable section

/-- Which of two instructions that share a word it is: the control register, or the register number, decides (R85, R86,
R386, R392, R393). -/
def Ctx.resolve (c : Ctx) (i : Instr) : Instr :=
  match i with
  | .invr y a b => if fld (c.bc b) 17 16 = 1 then .invrRangedesc y a b else i
  | .replayByPage y a b => if (c.bc b).getLsbD 16 then .replayByToken y a b else i
  | .tlaunch y d a b => if (c.bc b).getLsbD 0 then .tlaunchJob y d a b else i
  | .srd y g d n => if n = 0 then .clkloRead y g d else i
  | .swr y g d n => if n = 0x2B then .mextRequest y g d else i
  | _ => i

/-- ILL of a word that is no instruction (R49). At a word of the MMA major it breaks the wave's quorum (R241). -/
def Ctx.raiseIll (c : Ctx) (w : Word) (s : State) : State :=
  let t := c.raiseTrap (c.trap 0x01) s
  if fld w 29 24 = 0x25 ∧ c.wv.ra.isNone then t.quorumBreak c.b 64 [c.w] else t

/-- An instruction word: decoded and resolved; one that is no instruction raises ILL. -/
def Ctx.planWord (c : Ctx) (w : Word) (s : State) : Plan :=
  match decode w with
  | .ok i => .issue (c.resolve i) s
  | .error _ => .moved (c.raiseIll w s)

/-- The issuing path's next word: a header at word 0 of a clause; a word that was held, as it was fetched; else the word
at its PC, as its clause's issue fetched it or as it is fetched now (R28, R33, R389). -/
def Ctx.plan (c : Ctx) (s : State) : Plan :=
  if c.pa.cpos = 0 then .issue .clauseIssue s
  else if c.pa.blocked.isSome ∧ c.pa.blocked ≠ some .fetch then c.planWord c.pa.word s
  else
    let wait (s : State) : Plan := .moved (s.modPath c.b c.w c.p fun x => { x with blocked := some .fetch, again := false })
    match c.pa.words.getD (c.pa.cpos - 1) none with
    | some w => c.planWord w (s.modPath c.b c.w c.p fun x => { x with word := w })
    | none =>
      match c.clauseRest s with
      | .park s => wait s
      | .bad s => .moved (c.raiseTrap { code := 0x02, pc := c.hdrPc } s)
      | .ok words s =>
        match words.getD (c.pa.cpos - 1) none with
        | some w => c.planWord w (s.modPath c.b c.w c.p fun x => { x with word := w })
        | none =>
          match c.fetch s c.pa.pc with
          | .trap code s => .moved (c.raiseTrap (c.trap code none c.pa.pc) s)
          | .fault f ia s => .moved (c.fetchFault f c.pa.pc ia s)
          | .park s | .ok _ s => wait s

/-- The next step of the issuing path, if there is one and it can still issue. -/
def State.plan (s : State) : Plan :=
  match s.ctx with
  | none => if s.cur.isSome then .gone { s with cur := none } else .idle
  | some c =>
    if s.waveOpen c.b c.w && c.wv.qualifies c.p then c.plan s
    else .gone { s with cur := none }

end

/-! ### What every step settles -/

/-- A wave is bound and not done. -/
def State.boundLive (s : State) (b w : Nat) : Bool := (s.blk b).st == .resident && (s.wv b w).st == .live

/-- Every wave of every block. -/
def State.allWaves (s : State) : List (Nat × Nat) :=
  (List.range s.blocks.length).flatMap fun b => (List.range (s.blk b).waves.length).map (b, ·)

/-- Every wave of the resident blocks. -/
def State.residentWaves (s : State) : List (Nat × Nat) := s.allWaves.filter fun bw => (s.blk bw.1).st == .resident

/-- The waves that end give up what they hold, and break the quorums that await them (R150, R241, R291, R304, R399). -/
def State.settleEnds (s : State) : State :=
  s.residentWaves.foldl (fun s bw =>
    if (s.wv bw.1 bw.2).st == .done then (s.quorumBreak bw.1 64 [bw.2]).settleWave bw.1 bw.2 else s) s

/-- Barrier arrivals that an ended or merged path no longer withholds (R378, R379). -/
def State.settleBars (s : State) : State :=
  (List.range s.blocks.length).foldl (fun s b => if (s.blk b).st == .resident then (s.checkBars b).checkCbars b else s) s

/-- An Acq that ends a path's barrier wait is performed once LC is 0, before the path's next word; until then it holds the
path (R328). -/
def State.settleAcq (s : State) : State :=
  s.residentWaves.foldl (fun s bw => (List.range 8).foldl (fun s p =>
    let v := s.wv bw.1 bw.2
    let x := v.path p
    match x.acq with
    | none => s
    | some sc =>
      if v.st != .live || v.ra.isSome || x.st != .run then s
      else if v.lc = 0 then
        ((s.ctxAt bw.1 bw.2 p).acq sc s).modPath bw.1 bw.2 p fun x =>
          if x.blocked = some .waitLd then { x with acq := none, blocked := some .fetch, again := true } else { x with acq := none }
      else s.modPath bw.1 bw.2 p fun x => { x with blocked := some .waitLd, again := false }) s) s

/-- Waits of one wave that have ended: the wait of Y (R35), and events queued while it was in handler mode, its ridge was
shuttering, or an SWR of MEXT held it (R393, R394, R404, R421). A trap that takes a member from the saddle latch breaks its
quorum (R241). -/
def State.settleWaits (s : State) : State :=
  s.residentWaves.foldl (fun s bw =>
    let v := s.wv bw.1 bw.2
    let s := if v.ypark && v.lc == 0 && v.sc == 0 && v.cc == 0 && v.mc == 0 then
      s.modWv bw.1 bw.2 fun v => { v with ypark := false } else s
    let v := s.wv bw.1 bw.2
    if v.st != .live || (s.blk bw.1).stopping || v.ra.isSome || s.mextHeld bw.1 bw.2 then s
    else
      let s := if (List.range 8).any fun p => (v.pendDebug ||| v.pendDeliver).getLsbD p && v.mayTake p then
          let t := s.takePending bw.1 bw.2
          if v.saddle.isSome && (t.wv bw.1 bw.2).saddle.isNone then t.quorumBreak bw.1 64 [bw.2] else t
        else s
      s.takeRes bw.1 bw.2) s

/-- A ridge in STOP enters DRAIN once no wave of it is in the middle of an instruction (R413). -/
def State.settleRidges (s : State) : State :=
  let busy (r : Nat) : Bool := match s.cur with | some (b, _, _) => (s.blk b).core / 8 == r | none => false
  { s with ridges := s.ridges.mapIdx fun r x => if x.phase = .stop ∧ !busy r then { x with phase := .drain } else x }

/-- Since when each wave has been ready, parked on waits of its own, or on waits that R384 follows: each of these stands
while it stood before the step too, and begins at once where it begins (R337, R383, R384). -/
def State.settleClocks (old s : State) : State :=
  let fresh (b : Nat) : Bool := (s.blk b).st == .resident && (old.blocks.length ≤ b || (old.blk b).st != .resident)
  s.residentWaves.foldl (fun t bw =>
    let (b, w) := bw
    let now := max s.clk (s.wv b w).slotEnd
    if fresh b then t.modWv b w fun v => { v with readySince := now, waitSince := now, followSince := now, probedAt := now }
    else t.modWv b w fun v =>
      { v with
        readySince := if old.ready b w && s.ready b w then v.readySince else now
        waitSince := if old.parkedOther b w && s.parkedOther b w then v.waitSince else now
        followSince := if (old.awaited b w).isSome && (s.awaited b w).isSome then v.followSince else now }) s

/-- A wave has issued: its slot begins, it waits for nothing, and YIELD ends in the other waves of its pair (R329). -/
def State.noteIssue (s : State) (b w : Nat) (slot : Nat × Nat × Option Nat) : State :=
  let core := (s.blk b).core
  let pair := (s.wv b w).pair
  (s.wavesOn core).foldl (fun s bw =>
    if bw = (b, w) then s.modWv b w fun v =>
      { v with slotEnd := s.clk + slot.1, slotUnit := slot.2.1, lastCls := slot.2.2, waitSince := s.clk + slot.1, readySince := s.clk + slot.1
               followSince := s.clk + slot.1 }
    else s.modWv bw.1 bw.2 fun v => if v.pair = pair then { v with yieldUntil := none } else v) s

/-- The events of one path in a step (R445), in order: created 1; held 3, or 5 by BRK or DEBUG; resumed 4; merged 2; done 7;
each with the entry that it is about. `debug`: a debugger's EVENTS has changed; `due`: a pending DEBUG event of the path has
been taken; `res`: a resumption held by the window has been applied (R421). -/
def pathEvents (o n : Path) (debug due res : Bool) : List (Nat × Path) :=
  let hold := if debug then 5 else 3
  (if !o.live && (n.live || (n.st == .done && o.st != .done)) then [(1, n)] else []) ++
  (match o.st == .held, n.st == .held with
   | true, true => if debug && due then [(4, n), (5, n)] else []
   | true, false => [(4, if n.st == .free then o else n)]
   | false, true => [(hold, n)]
   | false, false => if debug && due && res then [(5, n), (4, n)] else []) ++
  (if o.live && n.st == .free then [(2, o)] else []) ++
  (if (o.live || !n.live) && o.st != .done && n.st == .done then [(7, if o.live then o else n)] else [])

/-- Records of path events (R445), in every block that still has its waves. -/
def State.traceDiff (old s : State) : State :=
  old.allWaves.foldl (fun s bw =>
    let (b, w) := bw
    if !(s.launchOf b).profile.getLsbD 160 || (s.blk b).st == .discarded then s
    else
      let debug := (s.debuggers b).any fun d => fld (s.blk d).attach 191 160 ≠ fld (old.blk d).attach 191 160
      let v := old.wv b w
      let u := s.wv b w
      (List.range 8).foldl (fun s p =>
        (pathEvents (v.path p) (u.path p) debug (v.pendDebug.getLsbD p && !u.pendDebug.getLsbD p)
          (v.pendRes.getLsbD p && !u.pendRes.getLsbD p)).foldl (fun s e => s.traceRecord b w p e.2 e.1 0xFF) s) s) s

/-- What is left of a state beside what caches, walks and logs make of a word that is only looked at. -/
def State.sketch (s : State) : State :=
  { s with
    free := 0, cur := none, mem := [], l2 := [], tlb := [], walks := [], owned := s.owned, ownWait := [], wakeWait := [], wakingWays := []
    events := [], eventSeq := 0, worlds := s.worlds.map fun x => { x with l2cnt := [] }
    cores := s.cores.map fun e => (e.1, { e.2 with l1 := [], icache := [], recs := [], shapes := [], resid := [] }) }

/-- A word of a path was held, and nothing else has changed (R338). -/
def heldOnly (old s : State) (b w p : Nat) : Bool :=
  let x := (s.wv b w).path p
  let y := (old.wv b w).path p
  x.blocked.isSome && !x.again &&
    (s.modPath b w p fun q => { q with blocked := y.blocked, again := y.again, word := y.word }).sketch = old.sketch

noncomputable section

/-- Nothing but its own next word keeps a path of a wave from issuing, of what does not end by itself: the end of a stop
before a save is not asked for (R336). An MMA at the saddle latch is held, and not tried again (R240). -/
def State.mayTry (s : State) (b w p : Nat) : Bool :=
  let v := s.wv b w
  let x := v.path p
  s.boundLive b w && v.ra.isNone && !v.delivering && x.st == .run && x.acq.isNone && v.mayTake p &&
    (v.excl.isNone || v.excl == some p) && v.saddlePath != some p

/-- Why the next word of a path cannot issue now, and the word; `none` where it can. The word is tried, and what the trial
does is dropped (R335, R336). -/
def State.tryPath (run : Instr → State → Host.Outcome State Fault Refusal) (s : State) (b w p : Nat) : Option (Stall × Word) :=
  let c := s.ctxAt b w p
  let held (old t : State) : Option (Stall × Word) :=
    if heldOnly old t b w p then ((t.wv b w).path p).blocked.map fun r => (r, ((old.wv b w).path p).word) else none
  if c.pa.cpos = 0 then (c.headerStall s).map fun r => (r, c.pa.word)
  else
    let s := { s.modPath b w p fun x => { x with again := true } with cur := some (b, w, p) }
    match c.plan s with
    | .issue i u =>
      (match run i u with
       | .next t => held u t
       | _ => none)
    | .moved t => held s t
    | _ => none

/-- Every path that may try its next word is held at it, or can issue it: no wave polls (R336). -/
def State.retrial (run : Instr → State → Host.Outcome State Fault Refusal) (s : State) : State :=
  s.residentWaves.foldl (fun t bw => (List.range 8).foldl (fun t p =>
    if !s.mayTry bw.1 bw.2 p then t
    else t.modPath bw.1 bw.2 p fun q =>
      match s.tryPath run bw.1 bw.2 p with
      | some (r, word) => { q with blocked := some r, again := false, word, words := if q.cpos = 0 ∧ !q.headerHeld then [] else q.words }
      | none => { q with again := q.blocked.isSome }) t) s

/-- What every step leaves to be settled at once. -/
def State.settle (run : Instr → State → Host.Outcome State Fault Refusal) (old s : State) : State :=
  let s := ((((s.settleEnds).settleBars).settleWaits).settleAcq).settleRidges
  State.settleClocks old ((State.traceDiff old s).retrial run)

/-- After a step of the issuing path: a word that was not held has taken its slot. -/
def State.afterIssue (run : Instr → State → Host.Outcome State Fault Refusal) (old s : State) (b w p : Nat)
    (slot : Nat × Nat × Option Nat) : State :=
  let x := (s.wv b w).path p
  let s := if x.blocked.isSome && !x.again then s else s.noteIssue b w slot
  State.settle run old { s with cur := none }

end

/-! ### Stalls and samples (R443, R445) -/

/-- The stall counters of the waves that hold no slot, over `n` cycles. -/
def State.addStalls (s : State) (n : Nat) : State :=
  s.residentWaves.foldl (fun s bw =>
    if !s.boundLive bw.1 bw.2 || (s.blk bw.1).waking ≠ [] || s.clk < (s.wv bw.1 bw.2).slotEnd then s
    else
      let r := (s.stallReason bw.1 bw.2).num
      s.modWv bw.1 bw.2 fun v => { v with stall := v.stall.modify r fun x => x + BitVec.ofNat 32 n }) s

/-- A sample of the launch is due now. -/
def State.sampleDue (s : State) (l : Nat) : Bool :=
  match (s.launches.getD l default).period with
  | some p => s.clk % p == 0 && (s.launches.getD l default).sampled != s.clk
  | none => false

/-- TRACE_SAMPLE (R445). -/
def execTraceSample (l : Nat) (s : State) : Host.Outcome State Fault Refusal :=
  if !s.sampleDue l then .next s
  else
    let s := s.modLaunch l fun x => { x with sampled := s.clk }
    .next (s.residentWaves.foldl (fun s bw =>
      let (b, w) := bw
      if (s.blk b).launch ≠ l || (s.wv b w).st != .live then s
      else
        let v := s.wv b w
        s.traceRecord b w v.lastPath (v.path v.lastPath) 0 (if s.clk < v.slotEnd then 0xFF else (s.stallReason b w).num)) s)

/-! ### Time (R392) -/

/-- The values of CLK at which something must happen: the end of the running entry, the ends of drain budgets, the ends of
issue slots, the next sample of each launch, this CLK while one is due, the CP's next reading of each stage queue's CLOSED, and the next division of each ridge's cores
(R372, R374, R411, R413, R445). -/
def State.deadlines (s : State) : List Nat :=
  (if s.slots ≠ [] ∧ !s.thermal then [s.slotEnd] else []) ++
  ((List.range 32).filter fun r => (s.ridge r).phase == .stop || (s.ridge r).phase == .drain).map s.drainEnd ++
  (s.launches.filter fun l => l.st == .ready && recSV l.record).map (·.closedAt + 50 * cyclesPerUs) ++
  (s.ridges.filter fun r => r.world.isSome).map (·.divided + 50 * cyclesPerUs) ++
  (s.launches.filterMap fun l => l.period.map fun p => (s.clk / p + 1) * p) ++
  (s.residentWaves.map fun bw => (s.wv bw.1 bw.2).slotEnd).filter (s.clk < ·) ++
  if (List.range s.launches.length).any s.sampleDue then [s.clk] else []

/-- Time passes: how much of it, no rule states (R94, R392). It does not pass a deadline. -/
def State.tick (s : State) (least : Nat) : State :=
  let n := least + Config.cycles s.free
  let n := s.deadlines.foldl (fun m d => min m (d - s.clk)) n
  let s := { s with free := s.free + 1 }
  { s.addStalls n with clk := s.clk + n }

/-- What is due at this CLK, before anything else. -/
def State.urgent (s : State) : Option Instr :=
  if s.slots ≠ [] ∧ !s.thermal ∧ s.slotEnd ≤ s.clk then some .slotEntryEdge
  else
    match (List.range 32).find? fun r => ((s.ridge r).phase == .stop || (s.ridge r).phase == .drain) && s.drainEnd r ≤ s.clk with
    | some r => some (if (s.onRidge r).all s.drained then .shutterDrainComplete r else .drainBudgetExpiry r)
    | none =>
      let stage (l : Nat) : Bool :=
        let x := s.launches.getD l default
        x.st == .ready && recSV x.record && x.closedAt + 50 * cyclesPerUs ≤ s.clk
      let ridge (r : Nat) : Bool := (s.ridge r).world.isSome && (s.ridge r).divided + 50 * cyclesPerUs ≤ s.clk
      match (List.range s.launches.length).find? stage, (List.range 32).find? ridge with
      | some l, _ => some (.stageClosedPoll l)
      | none, some r => some (.stageCoreDivision r)
      | none, none => none

/-! ### The steps that the rest of the G96 may take -/

noncomputable section

/-- Steps of one lane of an operation. -/
def laneEvents (b w : Nat) (op : AsyncOp) (l : LaneOp) : List Instr :=
  if l.st = .returned then []
  else
    [.asyncResultReturn b w op.id l.lane, .l2Request b w op.id l.lane, .debugAttach b w op.id l.lane,
      .profilingControlWrite b w op.id l.lane, .portCasLoop b w op.id l.lane true, .portCasLoop b w op.id l.lane false,
      .translationWalk (iaRegion l.ia) l.ia false, .translationWalk (iaRegion l.ia) l.ia true]

/-- Steps of one wave. -/
def State.waveEvents (s : State) (b w : Nat) : List Instr :=
  let v := s.wv b w
  v.ops.flatMap (fun op =>
    [.storeAcknowledge b w op.id, .deferredFaultSplit b w op.id, .stageEnqueue b w op.id, .invrAcknowledge b w op.id] ++
      op.lanes.flatMap (laneEvents b w op)) ++
  [.deliveryPoint b w, .runAheadEnd b w, .faultRingSpaceFreed b w, .batchComplete b w, .gridLatchReply b w,
    .waitcycleProbeSend b w, .sleepEnd b w] ++
  (List.range 8).map fun p => .faultPathResume b w p

/-- Steps of one copy. -/
def copyEvents (c : Copy) : List Instr :=
  let b := c.wave / 32
  let w := c.wave % 32
  [.copySegmentStart b w c.id, .pinRetry b w c.id, .copySegmentMove b w c.id, .copySegmentComplete b w c.id]

/-- Steps of one core. -/
def State.coreEvents (s : State) (core : Nat) : List Instr :=
  [.replayApply core, .saddleRelease core, .matrixOpApply core, .feedbackReportAppend core, .tokenNotice core, .dbghaltApply core] ++
    ((s.core core).waking.map fun bank => .bankWakeComplete core bank) ++
    if s.cur.isNone && s.blocksOn core ≠ [] then (List.range 68).map fun u => .issueArbitration core u else []

/-- Steps of one block. -/
def State.blockEvents (s : State) (b : Nat) : List Instr :=
  match (s.blk b).st with
  | .resident => [.resourceRelease b, .displaceBlock b, .preemptSave b]
  | .saved _ =>
    (s.openRidges (s.launchOf b).world).flatMap fun r => (List.range 8).map fun c => .blockRestore b (r * 8 + c)
  | _ => []

/-- A choice of cores for the next cluster of a launch: as many as it has blocks, on one ridge with room, each with room
for those it is given (R369). Which, the spec leaves to the command processor. -/
def State.pickCores (s : State) (l : Launch) (ridge : Nat) : List Nat × State :=
  (List.range (recCluster l.record)).foldl (fun (r : List Nat × State) _ =>
    let room := (l.coresOf ridge).filter fun c => r.2.fits c l.world l.record ((r.1.filter (· == c)).length + 1)
    let (c, s) := r.2.pick room
    (r.1 ++ [c], s)) ([], s)

/-- The dispatch that the command processor tries for a world. -/
def State.dispatchEvent (s : State) (world : Nat) : List Instr × State :=
  match (s.readyOrder world).find? fun l => (s.openRidges world).any fun r => s.roomOn (s.launches.getD l default) r with
  | none => ([], s)
  | some l =>
    let x := s.launches.getD l default
    let (r, s) := s.pick ((s.openRidges world).filter fun r => s.roomOn x r)
    let (cores, s) := s.pickCores x r
    ([.blockDispatch world cores], s)

/-- Steps of one world. -/
def worldEvents (w : Nat) : List Instr :=
  [.counterArrive w, .mextResponse w, .migrDemote w, .migrPromote w, .migrCopyf w, .migrMapset w, .migrMapclr w]

/-- Every step that the G96 may take by itself, whether or not anything comes of it now. -/
def State.mayHappen (s : State) : List Instr :=
  (s.allWaves.flatMap fun bw => s.waveEvents bw.1 bw.2) ++
  (s.copies.flatMap copyEvents) ++
  (s.ownWait.map fun e => .ownedLineServe e.1) ++
  (s.wakingWays.map fun e => .wayWakeComplete e.1 e.2) ++
  ((List.range 256).flatMap s.coreEvents) ++
  ((List.range s.blocks.length).flatMap s.blockEvents) ++
  ((List.range 12).flatMap worldEvents) ++
  ((List.range s.launches.length).flatMap fun l => [.launchComplete l, .stageClosedPoll l, .traceSample l]) ++
  ((List.range s.cancels.length).map .cancelFinish) ++
  ((List.range 32).flatMap fun r => [.stageCoreDivision r, .shutterDrainComplete r, .sealComplete r, .scrubComplete r]) ++
  ((List.range 16).map .linkRetrain) ++
  (s.hostq.map fun e => .cpSlotRead (e.1 / 4) (e.1 % 4) .held) ++
  [.waitcycleProbeReceive]

/-- The steps that change something in a state. -/
def State.enabled (run : Instr → State → Host.Outcome State Fault Refusal) (s : State) (l : List Instr) : List Instr :=
  l.filter fun i =>
    match run i s with
    | .next t => { t with free := s.free } ≠ s
    | _ => false

/-- The step that something other than an issuing path takes: which of them comes first is open. -/
def State.choose (run : Instr → State → Host.Outcome State Fault Refusal) (s : State) : Option (Instr × State) :=
  let (ds, s) := (List.range 12).foldl (fun (r : List Instr × State) w =>
    let (d, s) := r.2.dispatchEvent w
    (r.1 ++ d, s)) ([], s)
  let l := State.enabled run s (ds ++ s.mayHappen)
  let (n, s) := s.freeNat l.length
  l[n]?.map fun i => (i, s)

end

/-! ### One step -/

/-- What follows a meaning's next state; a stop stays a stop. -/
def andThen (o : Host.Outcome State Fault Refusal) (f : State → State) : Host.Outcome State Fault Refusal :=
  match o with
  | .next s => .next (f s)
  | .fault r => .fault r
  | .refused r => .refused r

noncomputable section

/-- One step of the issuing path, or where none issues, of something else; with nothing to do, time passes. None passes
between the choice of a wave and its issue. -/
def State.advance (run : Instr → State → Host.Outcome State Fault Refusal) (s : State) : Host.Outcome State Fault Refusal :=
  match s.plan with
  | .issue i t =>
    let (b, w, p) := s.cur.getD (0, 0, 0)
    andThen (run i t) fun u => (State.afterIssue run s u b w p ((t.ctxAt b w p).slot i)).tick 0
  | .moved t =>
    let (b, w, p) := s.cur.getD (0, 0, 0)
    .next ((State.afterIssue run s t b w p (1, 64 + (s.wv b w).pair / 16, none)).tick 0)
  | .gone t => .next (State.settle run s t)
  | .idle =>
    match State.choose run s with
    | some (i, t) => andThen (run i t) fun u =>
        let v := State.settle run s u
        if v.cur.isSome then v else v.tick 0
    | none => .next (s.tick 1)

/-- One step: what comes from outside first (State.agenda); without power nothing moves; then what is due at this CLK;
then `advance`. -/
def State.stepWith (run : Instr → State → Host.Outcome State Fault Refusal) (s : State) : Host.Outcome State Fault Refusal :=
  match s.agenda with
  | i :: rest => andThen (run i { s with agenda := rest }) (State.settle run s)
  | [] =>
    if !s.powered then .next s
    else
      match s.urgent with
      | some i => andThen (run i s) (State.settle run s)
      | none => s.advance run

end

/-! ### A program placed from outside (notes/assumptions) -/

/-- A word of code for world 0's space 0, and all that runs it next: a world whose grant holds the code, a launch of one
block of one thread in S mode, its block on core 0 with a range descriptor that maps the code, and its path inside a clause
of class 7, every register as dispatch leaves it. The literal words after it, like every unlisted byte, are zero. -/
def State.placeWord (s : State) (w : Nat) : State :=
  let pa := 0x10000
  -- V, NGRANT = 1, WORLD 0; one grant of 64 KiB
  let world : BitVec 4096 := BitVec.ofNat 4096 (2 ^ 4 + 2 ^ 5 + pa * 2 ^ 2048 + 0x10000 * 2 ^ 2112)
  -- VABASE, SIZE = 1 granule, IABASE in the direct window, V, RD, W, A, X
  let desc : BitVec 256 := BitVec.ofNat 256 (pa + 2 ^ 64 + directIA 0 pa * 2 ^ 128 + 2 ^ 192 + 15 * 2 ^ 200)
  -- ENTRY, one thread, B = 112
  let lrec : BitVec 2048 := BitVec.ofNat 2048 (pa + 112 * 2 ^ 600)
  let hdr : Word := BitVec.ofNat 32 (0b11110 * 2 ^ 27 + 15 * 2 ^ 23 + 7 * 2 ^ 20)
  -- a control transfer is the last of its clause's 15 words
  let cpos := if controlWord (BitVec.ofNat 32 w) then 15 else 1
  let blk := (newBlock lrec 0 0 0 0 0 1 s.clk).modWv 0 fun v => v.modPath 0 fun x => { x with cpos, hdr }
  { s with
    mem := memPut s.mem pa (wordBytes (BitVec.ofNat 32 w))
    keys := [(pa, 0x10000, 0)]
    worlds := s.worlds.modify 0 fun x => { x with record := world }
    ridges := s.ridges.modify 0 fun x => { x with world := some 0, phase := .open_ }
    cores := SMap.put {} s.cores 0 { s.core 0 with ranges := [(0, [desc])], icache := [] }
    launches := [{ record := lrec, nextBlock := 1 }]
    clusters := [{ ticket := 1, members := [0] }]
    blocks := [blk]
    cur := some (0, 0, 0) }

end Sys2Proof.Machine
end

