-- ==== Sys2Proof/Machine/Dispatch.lean ====
section
/-! DEFINITION. The meaning of every step: one arm per row of spec/opcode_table.json. -/

namespace Sys2Proof.Machine

open Sys2Proof

def exec (i : Instr) (s : State) : Host.Outcome State Fault Refusal :=
  match i with
  | .clauseIssue => Sys2Proof.Machine.execClauseIssue s
  | .issueArbitration core unit => Sys2Proof.Machine.execIssueArbitration core unit s
  | .asyncResultReturn b w op lane => Sys2Proof.Machine.execAsyncResultReturn b w op lane s
  | .storeAcknowledge b w op => Sys2Proof.Machine.execStoreAcknowledge b w op s
  | .deferredFaultSplit b w op => Sys2Proof.Machine.execDeferredFaultSplit b w op s
  | .deliveryPoint b w => Sys2Proof.Machine.execDeliveryPoint b w s
  | .runAheadEnd b w => Sys2Proof.Machine.execRunAheadEnd b w s
  | .faultRingSpaceFreed b w => Sys2Proof.Machine.execFaultRingSpaceFreed b w s
  | .replayApply core => Sys2Proof.Machine.execReplayApply core s
  | .faultPathResume b w p => Sys2Proof.Machine.execFaultPathResume b w p s
  | .translationWalk world ia store => Sys2Proof.Machine.execTranslationWalk world ia store s
  | .l2Request b w op lane => Sys2Proof.Machine.execL2Request b w op lane s
  | .ownedLineServe line => Sys2Proof.Machine.execOwnedLineServe line s
  | .wayWakeComplete slice way => Sys2Proof.Machine.execWayWakeComplete slice way s
  | .bankWakeComplete core bank => Sys2Proof.Machine.execBankWakeComplete core bank s
  | .copySegmentStart b w c => Sys2Proof.Machine.execCopySegmentStart b w c s
  | .pinRetry b w c => Sys2Proof.Machine.execPinRetry b w c s
  | .copySegmentMove b w c => Sys2Proof.Machine.execCopySegmentMove b w c s
  | .copySegmentComplete b w c => Sys2Proof.Machine.execCopySegmentComplete b w c s
  | .batchComplete b w => Sys2Proof.Machine.execBatchComplete b w s
  | .saddleRelease core => Sys2Proof.Machine.execSaddleRelease core s
  | .matrixOpApply core => Sys2Proof.Machine.execMatrixOpApply core s
  | .feedbackReportAppend core => Sys2Proof.Machine.execFeedbackReportAppend core s
  | .tokenNotice core => Sys2Proof.Machine.execTokenNotice core s
  | .resourceRelease b => Sys2Proof.Machine.execResourceRelease b s
  | .blockDispatch world cores => Sys2Proof.Machine.execBlockDispatch world cores s
  | .launchComplete l => Sys2Proof.Machine.execLaunchComplete l s
  | .counterArrive world => Sys2Proof.Machine.execCounterArrive world s
  | .gridLatchReply b w => Sys2Proof.Machine.execGridLatchReply b w s
  | .cancelFinish c => Sys2Proof.Machine.execCancelFinish c s
  | .queueDoorbell vf q tail => Sys2Proof.Machine.execQueueDoorbell vf q tail s
  | .queueConfigWrite vf q cap value => Sys2Proof.Machine.execQueueConfigWrite vf q cap value s
  | .registerWrite vf off value => Sys2Proof.Machine.execRegisterWrite vf off value s
  | .cpSlotRead vf q slot => Sys2Proof.Machine.execCpSlotRead vf q slot s
  | .tdispStop vf => Sys2Proof.Machine.execTdispStop vf s
  | .tdiRunResume vf => Sys2Proof.Machine.execTdiRunResume vf s
  | .ideIntegrityFailure vf => Sys2Proof.Machine.execIdeIntegrityFailure vf s
  | .flitTagFailure port carried => Sys2Proof.Machine.execFlitTagFailure port carried s
  | .inboundAccess peer unit world pa act => Sys2Proof.Machine.execInboundAccess peer unit world pa act s
  | .portCasLoop b w op lane success => Sys2Proof.Machine.execPortCasLoop b w op lane success s
  | .stageEnqueue b w op => Sys2Proof.Machine.execStageEnqueue b w op s
  | .stageClosedPoll l => Sys2Proof.Machine.execStageClosedPoll l s
  | .stageCoreDivision ridge => Sys2Proof.Machine.execStageCoreDivision ridge s
  | .displaceBlock b => Sys2Proof.Machine.execDisplaceBlock b s
  | .preemptSave b => Sys2Proof.Machine.execPreemptSave b s
  | .blockRestore b core => Sys2Proof.Machine.execBlockRestore b core s
  | .waitcycleProbeSend b w => Sys2Proof.Machine.execWaitcycleProbeSend b w s
  | .waitcycleProbeReceive => Sys2Proof.Machine.execWaitcycleProbeReceive s
  | .sleepEnd b w => Sys2Proof.Machine.execSleepEnd b w s
  | .slotEntryEdge => Sys2Proof.Machine.execSlotEntryEdge s
  | .shutterDrainComplete ridge => Sys2Proof.Machine.execShutterDrainComplete ridge s
  | .drainBudgetExpiry ridge => Sys2Proof.Machine.execDrainBudgetExpiry ridge s
  | .sealComplete ridge => Sys2Proof.Machine.execSealComplete ridge s
  | .scrubComplete ridge => Sys2Proof.Machine.execScrubComplete ridge s
  | .thermalWarning die => Sys2Proof.Machine.execThermalWarning die s
  | .thermalShutter die => Sys2Proof.Machine.execThermalShutter die s
  | .thermalResume => Sys2Proof.Machine.execThermalResume s
  | .thermalPowerRemove die => Sys2Proof.Machine.execThermalPowerRemove die s
  | .powerOn how fw cfg shethar => Sys2Proof.Machine.execPowerOn how fw cfg shethar s
  | .warmReset how fw cfg shethar => Sys2Proof.Machine.execWarmReset how fw cfg shethar s
  | .wcreate w rec => Sys2Proof.Machine.execWcreate w rec s
  | .wset w rec => Sys2Proof.Machine.execWset w rec s
  | .wdestroy w => Sys2Proof.Machine.execWdestroy w s
  | .slots table => Sys2Proof.Machine.execSlots table s
  | .heap hslots heapia otia objcount clockw => Sys2Proof.Machine.execHeap hslots heapia otia objcount clockw s
  | .objset h rec => Sys2Proof.Machine.execObjset h rec s
  | .objclr h => Sys2Proof.Machine.execObjclr h s
  | .route p ports => Sys2Proof.Machine.execRoute p ports s
  | .gate bank unit sub on => Sys2Proof.Machine.execGate bank unit sub on s
  | .events offset => Sys2Proof.Machine.execEvents offset s
  | .eventsUnfreeze => Sys2Proof.Machine.execEventsUnfreeze s
  | .measurementRequest index => Sys2Proof.Machine.execMeasurementRequest index s
  | .mextRequest y g d => Sys2Proof.Machine.execMextRequest y g d s
  | .mextResponse world => Sys2Proof.Machine.execMextResponse world s
  | .clkloRead y g d => Sys2Proof.Machine.execClkloRead y g d s
  | .debugAttach b w op lane => Sys2Proof.Machine.execDebugAttach b w op lane s
  | .profilingControlWrite b w op lane => Sys2Proof.Machine.execProfilingControlWrite b w op lane s
  | .traceSample l => Sys2Proof.Machine.execTraceSample l s
  | .dbghaltApply core => Sys2Proof.Machine.execDbghaltApply core s
  | .migrDemote world => Sys2Proof.Machine.execMigrDemote world s
  | .migrPromote world => Sys2Proof.Machine.execMigrPromote world s
  | .migrCopyf world => Sys2Proof.Machine.execMigrCopyf world s
  | .migrMapset world => Sys2Proof.Machine.execMigrMapset world s
  | .migrMapclr world => Sys2Proof.Machine.execMigrMapclr world s
  | .invrAcknowledge b w op => Sys2Proof.Machine.execInvrAcknowledge b w op s
  | .add y g d a b => Sys2Proof.Machine.execAdd y g d a b s
  | .sub y g d a b => Sys2Proof.Machine.execSub y g d a b s
  | .minS y g d a b => Sys2Proof.Machine.execMinS y g d a b s
  | .minN y g d a b => Sys2Proof.Machine.execMinN y g d a b s
  | .maxS y g d a b => Sys2Proof.Machine.execMaxS y g d a b s
  | .maxN y g d a b => Sys2Proof.Machine.execMaxN y g d a b s
  | .absdS y g d a b => Sys2Proof.Machine.execAbsdS y g d a b s
  | .neg y g d a => Sys2Proof.Machine.execNeg y g d a s
  | .and_ y g d a b => Sys2Proof.Machine.execAnd y g d a b s
  | .or_ y g d a b => Sys2Proof.Machine.execOr y g d a b s
  | .xor y g d a b => Sys2Proof.Machine.execXor y g d a b s
  | .andn y g d a b => Sys2Proof.Machine.execAndn y g d a b s
  | .orn y g d a b => Sys2Proof.Machine.execOrn y g d a b s
  | .xnor y g d a b => Sys2Proof.Machine.execXnor y g d a b s
  | .not_ y g d a => Sys2Proof.Machine.execNot y g d a s
  | .shl y g d a b => Sys2Proof.Machine.execShl y g d a b s
  | .shr y g d a b => Sys2Proof.Machine.execShr y g d a b s
  | .sar y g d a b => Sys2Proof.Machine.execSar y g d a b s
  | .rol y g d a b => Sys2Proof.Machine.execRol y g d a b s
  | .ror y g d a b => Sys2Proof.Machine.execRor y g d a b s
  | .shlW y g d a b => Sys2Proof.Machine.execShlW y g d a b s
  | .shrW y g d a b => Sys2Proof.Machine.execShrW y g d a b s
  | .sarW y g d a b => Sys2Proof.Machine.execSarW y g d a b s
  | .mul y g d a b => Sys2Proof.Machine.execMul y g d a b s
  | .mulhS y g d a b => Sys2Proof.Machine.execMulhS y g d a b s
  | .mulhN y g d a b => Sys2Proof.Machine.execMulhN y g d a b s
  | .mad y g d a b => Sys2Proof.Machine.execMad y g d a b s
  | .mulwS y g d a b => Sys2Proof.Machine.execMulwS y g d a b s
  | .mulwN y g d a b => Sys2Proof.Machine.execMulwN y g d a b s
  | .madwS y g d a b => Sys2Proof.Machine.execMadwS y g d a b s
  | .madwN y g d a b => Sys2Proof.Machine.execMadwN y g d a b s
  | .popc y g d a => Sys2Proof.Machine.execPopc y g d a s
  | .clz y g d a => Sys2Proof.Machine.execClz y g d a s
  | .ctz y g d a => Sys2Proof.Machine.execCtz y g d a s
  | .brev y g d a => Sys2Proof.Machine.execBrev y g d a s
  | .bfeS y g d a b => Sys2Proof.Machine.execBfeS y g d a b s
  | .bfeZ y g d a b => Sys2Proof.Machine.execBfeZ y g d a b s
  | .bfi y g d a b => Sys2Proof.Machine.execBfi y g d a b s
  | .prmt y g d a b => Sys2Proof.Machine.execPrmt y g d a b s
  | .icmpEq y g d a b => Sys2Proof.Machine.execIcmpEq y g d a b s
  | .icmpNe y g d a b => Sys2Proof.Machine.execIcmpNe y g d a b s
  | .icmpLtS y g d a b => Sys2Proof.Machine.execIcmpLtS y g d a b s
  | .icmpLeS y g d a b => Sys2Proof.Machine.execIcmpLeS y g d a b s
  | .icmpLtN y g d a b => Sys2Proof.Machine.execIcmpLtN y g d a b s
  | .icmpLeN y g d a b => Sys2Proof.Machine.execIcmpLeN y g d a b s
  | .icmpTest y g d a b => Sys2Proof.Machine.execIcmpTest y g d a b s
  | .add64 y g d a b => Sys2Proof.Machine.execAdd64 y g d a b s
  | .sub64 y g d a b => Sys2Proof.Machine.execSub64 y g d a b s
  | .lea2 y g d a b => Sys2Proof.Machine.execLea2 y g d a b s
  | .lea4 y g d a b => Sys2Proof.Machine.execLea4 y g d a b s
  | .lea8 y g d a b => Sys2Proof.Machine.execLea8 y g d a b s
  | .lea16 y g d a b => Sys2Proof.Machine.execLea16 y g d a b s
  | .sext8 y g d a => Sys2Proof.Machine.execSext8 y g d a s
  | .sext16 y g d a => Sys2Proof.Machine.execSext16 y g d a s
  | .zext8 y g d a => Sys2Proof.Machine.execZext8 y g d a s
  | .zext16 y g d a => Sys2Proof.Machine.execZext16 y g d a s
  | .sext32 y g d a => Sys2Proof.Machine.execSext32 y g d a s
  | .zext32 y g d a => Sys2Proof.Machine.execZext32 y g d a s
  | .trunc64 y g d a => Sys2Proof.Machine.execTrunc64 y g d a s
  | .fadd y g d a b => Sys2Proof.Machine.execFadd y g d a b s
  | .fsub y g d a b => Sys2Proof.Machine.execFsub y g d a b s
  | .fmul y g d a b => Sys2Proof.Machine.execFmul y g d a b s
  | .fmin y g d a b => Sys2Proof.Machine.execFmin y g d a b s
  | .fmax y g d a b => Sys2Proof.Machine.execFmax y g d a b s
  | .fminn y g d a b => Sys2Proof.Machine.execFminn y g d a b s
  | .fmaxn y g d a b => Sys2Proof.Machine.execFmaxn y g d a b s
  | .fcopysign y g d a b => Sys2Proof.Machine.execFcopysign y g d a b s
  | .fma y d a b => Sys2Proof.Machine.execFma y d a b s
  | .fms y d a b => Sys2Proof.Machine.execFms y d a b s
  | .fnma y d a b => Sys2Proof.Machine.execFnma y d a b s
  | .fnms y d a b => Sys2Proof.Machine.execFnms y d a b s
  | .fmaF64 y d a b => Sys2Proof.Machine.execFmaF64 y d a b s
  | .fmsF64 y d a b => Sys2Proof.Machine.execFmsF64 y d a b s
  | .fnmaF64 y d a b => Sys2Proof.Machine.execFnmaF64 y d a b s
  | .fnmsF64 y d a b => Sys2Proof.Machine.execFnmsF64 y d a b s
  | .hadd2F16 y d a b => Sys2Proof.Machine.execHadd2F16 y d a b s
  | .hmul2F16 y d a b => Sys2Proof.Machine.execHmul2F16 y d a b s
  | .hfma2F16 y d a b => Sys2Proof.Machine.execHfma2F16 y d a b s
  | .hadd2Bf16 y d a b => Sys2Proof.Machine.execHadd2Bf16 y d a b s
  | .hmul2Bf16 y d a b => Sys2Proof.Machine.execHmul2Bf16 y d a b s
  | .hfma2Bf16 y d a b => Sys2Proof.Machine.execHfma2Bf16 y d a b s
  | .hmin2F16 y d a b => Sys2Proof.Machine.execHmin2F16 y d a b s
  | .hmax2F16 y d a b => Sys2Proof.Machine.execHmax2F16 y d a b s
  | .feq y d a b => Sys2Proof.Machine.execFeq y d a b s
  | .fne y d a b => Sys2Proof.Machine.execFne y d a b s
  | .flt y d a b => Sys2Proof.Machine.execFlt y d a b s
  | .fle y d a b => Sys2Proof.Machine.execFle y d a b s
  | .fun y d a b => Sys2Proof.Machine.execFun y d a b s
  | .feqF64 y d a b => Sys2Proof.Machine.execFeqF64 y d a b s
  | .fltF64 y d a b => Sys2Proof.Machine.execFltF64 y d a b s
  | .fleF64 y d a b => Sys2Proof.Machine.execFleF64 y d a b s
  | .rcp y g d a => Sys2Proof.Machine.execRcp y g d a s
  | .rsq y g d a => Sys2Proof.Machine.execRsq y g d a s
  | .sqrt y g d a => Sys2Proof.Machine.execSqrt y g d a s
  | .exp2 y g d a => Sys2Proof.Machine.execExp2 y g d a s
  | .log2 y g d a => Sys2Proof.Machine.execLog2 y g d a s
  | .sinpi y g d a => Sys2Proof.Machine.execSinpi y g d a s
  | .cospi y g d a => Sys2Proof.Machine.execCospi y g d a s
  | .tanh y g d a => Sys2Proof.Machine.execTanh y g d a s
  | .cvtF32S32 y g d a sc m => Sys2Proof.Machine.execCvtF32S32 y g d a sc m s
  | .cvtF32N32 y g d a sc m => Sys2Proof.Machine.execCvtF32N32 y g d a sc m s
  | .cvtS32F32 y g d a sc m => Sys2Proof.Machine.execCvtS32F32 y g d a sc m s
  | .cvtN32F32 y g d a sc m => Sys2Proof.Machine.execCvtN32F32 y g d a sc m s
  | .cvtF64F32 y g d a sc m => Sys2Proof.Machine.execCvtF64F32 y g d a sc m s
  | .cvtF32F64 y g d a sc m => Sys2Proof.Machine.execCvtF32F64 y g d a sc m s
  | .cvtF64S32 y g d a sc m => Sys2Proof.Machine.execCvtF64S32 y g d a sc m s
  | .cvtS32F64 y g d a sc m => Sys2Proof.Machine.execCvtS32F64 y g d a sc m s
  | .faddF64 y d a b => Sys2Proof.Machine.execFaddF64 y d a b s
  | .fsubF64 y d a b => Sys2Proof.Machine.execFsubF64 y d a b s
  | .fmulF64 y d a b => Sys2Proof.Machine.execFmulF64 y d a b s
  | .fminF64 y d a b => Sys2Proof.Machine.execFminF64 y d a b s
  | .fmaxF64 y d a b => Sys2Proof.Machine.execFmaxF64 y d a b s
  | .frndF32 y d a m => Sys2Proof.Machine.execFrndF32 y d a m s
  | .frndF64 y d a m => Sys2Proof.Machine.execFrndF64 y d a m s
  | .packF16 y d a b => Sys2Proof.Machine.execPackF16 y d a b s
  | .packBf16 y d a b => Sys2Proof.Machine.execPackBf16 y d a b s
  | .dot2F16 y d a b => Sys2Proof.Machine.execDot2F16 y d a b s
  | .dot2Bf16 y d a b => Sys2Proof.Machine.execDot2Bf16 y d a b s
  | .dot4E4m3 y d a b => Sys2Proof.Machine.execDot4E4m3 y d a b s
  | .dot4E5m2 y d a b => Sys2Proof.Machine.execDot4E5m2 y d a b s
  | .dot4S8 y d a b => Sys2Proof.Machine.execDot4S8 y d a b s
  | .dot4Z8 y d a b => Sys2Proof.Machine.execDot4Z8 y d a b s
  | .cvtbE4m3 y d a sc m => Sys2Proof.Machine.execCvtbE4m3 y d a sc m s
  | .cvtbE5m2 y d a sc m => Sys2Proof.Machine.execCvtbE5m2 y d a sc m s
  | .cvtbE2m3 y d a sc m => Sys2Proof.Machine.execCvtbE2m3 y d a sc m s
  | .cvtbE3m2 y d a sc m => Sys2Proof.Machine.execCvtbE3m2 y d a sc m s
  | .cvtbE2m1 y d a sc m => Sys2Proof.Machine.execCvtbE2m1 y d a sc m s
  | .xcvtE4m3 y d a f => Sys2Proof.Machine.execXcvtE4m3 y d a f s
  | .xcvtE5m2 y d a f => Sys2Proof.Machine.execXcvtE5m2 y d a f s
  | .xcvtE2m1 y d a f => Sys2Proof.Machine.execXcvtE2m1 y d a f s
  | .addi y g d a im => Sys2Proof.Machine.execAddi y g d a im s
  | .andi y g d a im => Sys2Proof.Machine.execAndi y g d a im s
  | .ori y g d a im => Sys2Proof.Machine.execOri y g d a im s
  | .movi y g d im => Sys2Proof.Machine.execMovi y g d im s
  | .lit32 y g d => Sys2Proof.Machine.execLit32 y g d s
  | .lit64 y g d => Sys2Proof.Machine.execLit64 y g d s
  | .shli y g d a sc => Sys2Proof.Machine.execShli y g d a sc s
  | .shri y g d a sc => Sys2Proof.Machine.execShri y g d a sc s
  | .sari y g d a sc => Sys2Proof.Machine.execSari y g d a sc s
  | .roli y g d a sc => Sys2Proof.Machine.execRoli y g d a sc s
  | .rori y g d a sc => Sys2Proof.Machine.execRori y g d a sc s
  | .shlWi y g d a sc => Sys2Proof.Machine.execShlWi y g d a sc s
  | .shrWi y g d a sc => Sys2Proof.Machine.execShrWi y g d a sc s
  | .sarWi y g d a sc => Sys2Proof.Machine.execSarWi y g d a sc s
  | .shflIdx y d a b => Sys2Proof.Machine.execShflIdx y d a b s
  | .shflUp y d a b => Sys2Proof.Machine.execShflUp y d a b s
  | .shflDn y d a b => Sys2Proof.Machine.execShflDn y d a b s
  | .shflXor y d a b => Sys2Proof.Machine.execShflXor y d a b s
  | .bcast y d a => Sys2Proof.Machine.execBcast y d a s
  | .vset y d a => Sys2Proof.Machine.execVset y d a s
  | .redadd y d a => Sys2Proof.Machine.execRedadd y d a s
  | .redmaxS y d a => Sys2Proof.Machine.execRedmaxS y d a s
  | .mpopc y d a => Sys2Proof.Machine.execMpopc y d a s
  | .mffs y d a => Sys2Proof.Machine.execMffs y d a s
  | .mfls y d a => Sys2Proof.Machine.execMfls y d a s
  | .mtest y d a b => Sys2Proof.Machine.execMtest y d a b s
  | .qand y d a b => Sys2Proof.Machine.execQand y d a b s
  | .qor y d a b => Sys2Proof.Machine.execQor y d a b s
  | .qxor y d a b => Sys2Proof.Machine.execQxor y d a b s
  | .qnot y d a => Sys2Proof.Machine.execQnot y d a s
  | .mov y d a => Sys2Proof.Machine.execMov y d a s
  | .movg y d a => Sys2Proof.Machine.execMovg y d a s
  | .movv y d a => Sys2Proof.Machine.execMovv y d a s
  | .movq y d a => Sys2Proof.Machine.execMovq y d a s
  | .qmov y d a => Sys2Proof.Machine.execQmov y d a s
  | .ldS8 y g d a r => Sys2Proof.Machine.execLdS8 y g d a r s
  | .ldZ8 y g d a r => Sys2Proof.Machine.execLdZ8 y g d a r s
  | .ldS16 y g d a r => Sys2Proof.Machine.execLdS16 y g d a r s
  | .ldZ16 y g d a r => Sys2Proof.Machine.execLdZ16 y g d a r s
  | .ld32 y g d a r => Sys2Proof.Machine.execLd32 y g d a r s
  | .ld64 y g d a r => Sys2Proof.Machine.execLd64 y g d a r s
  | .ld128 y g d a r => Sys2Proof.Machine.execLd128 y g d a r s
  | .ldE y g d a r => Sys2Proof.Machine.execLdE y g d a r s
  | .st8 y g d a r => Sys2Proof.Machine.execSt8 y g d a r s
  | .st16 y g d a r => Sys2Proof.Machine.execSt16 y g d a r s
  | .st32 y g d a r => Sys2Proof.Machine.execSt32 y g d a r s
  | .st64 y g d a r => Sys2Proof.Machine.execSt64 y g d a r s
  | .st128 y g d a r => Sys2Proof.Machine.execSt128 y g d a r s
  | .stE y g d a r => Sys2Proof.Machine.execStE y g d a r s
  | .atomAdd y d a sc r => Sys2Proof.Machine.execAtomAdd y d a sc r s
  | .atomMinS y d a sc r => Sys2Proof.Machine.execAtomMinS y d a sc r s
  | .atomMaxS y d a sc r => Sys2Proof.Machine.execAtomMaxS y d a sc r s
  | .atomMinN y d a sc r => Sys2Proof.Machine.execAtomMinN y d a sc r s
  | .atomMaxN y d a sc r => Sys2Proof.Machine.execAtomMaxN y d a sc r s
  | .atomAnd y d a sc r => Sys2Proof.Machine.execAtomAnd y d a sc r s
  | .atomOr y d a sc r => Sys2Proof.Machine.execAtomOr y d a sc r s
  | .atomExch y d a sc r => Sys2Proof.Machine.execAtomExch y d a sc r s
  | .atomxCas y d a sc r => Sys2Proof.Machine.execAtomxCas y d a sc r s
  | .atomxXor y d a sc r => Sys2Proof.Machine.execAtomxXor y d a sc r s
  | .atomxFadd y d a sc r => Sys2Proof.Machine.execAtomxFadd y d a sc r s
  | .atomxFmin y d a sc r => Sys2Proof.Machine.execAtomxFmin y d a sc r s
  | .atomxFmax y d a sc r => Sys2Proof.Machine.execAtomxFmax y d a sc r s
  | .atomxAdd64 y d a sc r => Sys2Proof.Machine.execAtomxAdd64 y d a sc r s
  | .atomxCas64 y d a sc r => Sys2Proof.Machine.execAtomxCas64 y d a sc r s
  | .atomxIncw y d a sc r => Sys2Proof.Machine.execAtomxIncw y d a sc r s
  | .redAdd y d a sc r => Sys2Proof.Machine.execRedAdd y d a sc r s
  | .redMinS y d a sc r => Sys2Proof.Machine.execRedMinS y d a sc r s
  | .redMaxS y d a sc r => Sys2Proof.Machine.execRedMaxS y d a sc r s
  | .redMinN y d a sc r => Sys2Proof.Machine.execRedMinN y d a sc r s
  | .redMaxN y d a sc r => Sys2Proof.Machine.execRedMaxN y d a sc r s
  | .redAnd y d a sc r => Sys2Proof.Machine.execRedAnd y d a sc r s
  | .redOr y d a sc r => Sys2Proof.Machine.execRedOr y d a sc r s
  | .redFadd y d a sc r => Sys2Proof.Machine.execRedFadd y d a sc r s
  | .ldlS8 y d a o => Sys2Proof.Machine.execLdlS8 y d a o s
  | .ldlZ8 y d a o => Sys2Proof.Machine.execLdlZ8 y d a o s
  | .ldlS16 y d a o => Sys2Proof.Machine.execLdlS16 y d a o s
  | .ldlZ16 y d a o => Sys2Proof.Machine.execLdlZ16 y d a o s
  | .ldl32 y d a o => Sys2Proof.Machine.execLdl32 y d a o s
  | .ldl64 y d a o => Sys2Proof.Machine.execLdl64 y d a o s
  | .ldl128 y d a o => Sys2Proof.Machine.execLdl128 y d a o s
  | .stl8 y d a o => Sys2Proof.Machine.execStl8 y d a o s
  | .stl16 y d a o => Sys2Proof.Machine.execStl16 y d a o s
  | .stl32 y d a o => Sys2Proof.Machine.execStl32 y d a o s
  | .stl64 y d a o => Sys2Proof.Machine.execStl64 y d a o s
  | .stl128 y d a o => Sys2Proof.Machine.execStl128 y d a o s
  | .atomlAdd y d a o => Sys2Proof.Machine.execAtomlAdd y d a o s
  | .atomlMinS y d a o => Sys2Proof.Machine.execAtomlMinS y d a o s
  | .atomlMaxS y d a o => Sys2Proof.Machine.execAtomlMaxS y d a o s
  | .atomlAnd y d a o => Sys2Proof.Machine.execAtomlAnd y d a o s
  | .atomlOr y d a o => Sys2Proof.Machine.execAtomlOr y d a o s
  | .atomlExch y d a o => Sys2Proof.Machine.execAtomlExch y d a o s
  | .atomlCas y d a o => Sys2Proof.Machine.execAtomlCas y d a o s
  | .atomlFadd y d a o => Sys2Proof.Machine.execAtomlFadd y d a o s
  | .pref y a r => Sys2Proof.Machine.execPref y a r s
  | .prefx y a r => Sys2Proof.Machine.execPrefx y a r s
  | .evict y a r => Sys2Proof.Machine.execEvict y a r s
  | .cpyGl y d a b => Sys2Proof.Machine.execCpyGl y d a b s
  | .cpyLg y d a b => Sys2Proof.Machine.execCpyLg y d a b s
  | .cpyGg y d a b => Sys2Proof.Machine.execCpyGg y d a b s
  | .cptGl y d a b => Sys2Proof.Machine.execCptGl y d a b s
  | .cptLg y d a b => Sys2Proof.Machine.execCptLg y d a b s
  | .cpbatch y a => Sys2Proof.Machine.execCpbatch y a s
  | .cpwait y d a => Sys2Proof.Machine.execCpwait y d a s
  | .recfence y => Sys2Proof.Machine.execRecfence y s
  | .tld y d a n => Sys2Proof.Machine.execTld y d a n s
  | .tst y d a n => Sys2Proof.Machine.execTst y d a n s
  | .tldg y d a b => Sys2Proof.Machine.execTldg y d a b s
  | .tstg y d a b => Sys2Proof.Machine.execTstg y d a b s
  | .tzero y d b => Sys2Proof.Machine.execTzero y d b s
  | .tcvt y d a b => Sys2Proof.Machine.execTcvt y d a b s
  | .mmaE4m3 y d a b => Sys2Proof.Machine.execMmaE4m3 y d a b s
  | .mmaE5m2 y d a b => Sys2Proof.Machine.execMmaE5m2 y d a b s
  | .mmaBf16 y d a b => Sys2Proof.Machine.execMmaBf16 y d a b s
  | .mmaF16 y d a b => Sys2Proof.Machine.execMmaF16 y d a b s
  | .mmaMxe4m3 y d a b => Sys2Proof.Machine.execMmaMxe4m3 y d a b s
  | .mmaMxe2m3 y d a b => Sys2Proof.Machine.execMmaMxe2m3 y d a b s
  | .mmaMxe2m1 y d a b => Sys2Proof.Machine.execMmaMxe2m1 y d a b s
  | .mmaS8 y d a b => Sys2Proof.Machine.execMmaS8 y d a b s
  | .qset y a => Sys2Proof.Machine.execQset y a s
  | .qarr y => Sys2Proof.Machine.execQarr y s
  | .qwait y => Sys2Proof.Machine.execQwait y s
  | .qdrop y => Sys2Proof.Machine.execQdrop y s
  | .samp y d a r => Sys2Proof.Machine.execSamp y d a r s
  | .sampg y d a r => Sys2Proof.Machine.execSampg y d a r s
  | .sampb y d a r => Sys2Proof.Machine.execSampb y d a r s
  | .fetch y d a r => Sys2Proof.Machine.execFetch y d a r s
  | .fetchf y d a r => Sys2Proof.Machine.execFetchf y d a r s
  | .gath4 y d a r => Sys2Proof.Machine.execGath4 y d a r s
  | .resq y d a r => Sys2Proof.Machine.execResq y d a r s
  | .rayld y a => Sys2Proof.Machine.execRayld y a s
  | .boxt y d a => Sys2Proof.Machine.execBoxt y d a s
  | .trit y d a => Sys2Proof.Machine.execTrit y d a s
  | .stkinit y d a b => Sys2Proof.Machine.execStkinit y d a b s
  | .stkpush y a => Sys2Proof.Machine.execStkpush y a s
  | .stkpop y d => Sys2Proof.Machine.execStkpop y d s
  | .ordbPx y => Sys2Proof.Machine.execOrdbPx y s
  | .ordbSmp y => Sys2Proof.Machine.execOrdbSmp y s
  | .orde y => Sys2Proof.Machine.execOrde y s
  | .frag y d a => Sys2Proof.Machine.execFrag y d a s
  | .cover y d a => Sys2Proof.Machine.execCover y d a s
  | .scq y d a => Sys2Proof.Machine.execScq y d a s
  | .scwait y d a => Sys2Proof.Machine.execScwait y d a s
  | .scpub y d a => Sys2Proof.Machine.execScpub y d a s
  | .scabort y d a => Sys2Proof.Machine.execScabort y d a s
  | .scinv y d a => Sys2Proof.Machine.execScinv y d a s
  | .scpin y d a => Sys2Proof.Machine.execScpin y d a s
  | .scunpin y d a => Sys2Proof.Machine.execScunpin y d a s
  | .sctick y => Sys2Proof.Machine.execSctick y s
  | .br y o => Sys2Proof.Machine.execBr y o s
  | .brQ y q o => Sys2Proof.Machine.execBrQ y q o s
  | .brNq y q o => Sys2Proof.Machine.execBrNq y q o s
  | .brZ y o => Sys2Proof.Machine.execBrZ y o s
  | .brNz y o => Sys2Proof.Machine.execBrNz y o s
  | .brFull y o => Sys2Proof.Machine.execBrFull y o s
  | .jmp y a => Sys2Proof.Machine.execJmp y a s
  | .call y d a => Sys2Proof.Machine.execCall y d a s
  | .calli y d a => Sys2Proof.Machine.execCalli y d a s
  | .ret y a => Sys2Proof.Machine.execRet y a s
  | .jmpi y a => Sys2Proof.Machine.execJmpi y a s
  | .psplit y d im => Sys2Proof.Machine.execPsplit y d im s
  | .pjoin y => Sys2Proof.Machine.execPjoin y s
  | .pyield y => Sys2Proof.Machine.execPyield y s
  | .meld y d p n => Sys2Proof.Machine.execMeld y d p n s
  | .melde y => Sys2Proof.Machine.execMelde y s
  | .pren y a e p sc b => Sys2Proof.Machine.execPren y a e p sc b s
  | .barSync y k => Sys2Proof.Machine.execBarSync y k s
  | .barArr y k => Sys2Proof.Machine.execBarArr y k s
  | .barWait y k => Sys2Proof.Machine.execBarWait y k s
  | .cbarSync y k => Sys2Proof.Machine.execCbarSync y k s
  | .cbarArr y k => Sys2Proof.Machine.execCbarArr y k s
  | .cbarWait y k => Sys2Proof.Machine.execCbarWait y k s
  | .gbarArr y d => Sys2Proof.Machine.execGbarArr y d s
  | .gbarWait y => Sys2Proof.Machine.execGbarWait y s
  | .fenceAcq y sc => Sys2Proof.Machine.execFenceAcq y sc s
  | .fenceRel y sc => Sys2Proof.Machine.execFenceRel y sc s
  | .fenceAr y sc => Sys2Proof.Machine.execFenceAr y sc s
  | .fenceSc y sc => Sys2Proof.Machine.execFenceSc y sc s
  | .yield_ y => Sys2Proof.Machine.execYield y s
  | .sleep y n => Sys2Proof.Machine.execSleep y n s
  | .watchPhase y => Sys2Proof.Machine.execWatchPhase y s
  | .rpush y a b => Sys2Proof.Machine.execRpush y a b s
  | .rpop y d a => Sys2Proof.Machine.execRpop y d a s
  | .rpeek y d a => Sys2Proof.Machine.execRpeek y d a s
  | .rclose y a => Sys2Proof.Machine.execRclose y a s
  | .trap y n => Sys2Proof.Machine.execTrap y n s
  | .tfence y => Sys2Proof.Machine.execTfence y s
  | .brk y n => Sys2Proof.Machine.execBrk y n s
  | .exit y => Sys2Proof.Machine.execExit y s
  | .tclr y m m2 => Sys2Proof.Machine.execTclr y m m2 s
  | .tret y => Sys2Proof.Machine.execTret y s
  | .xregAcq y => Sys2Proof.Machine.execXregAcq y s
  | .xregRel y => Sys2Proof.Machine.execXregRel y s
  | .srd y g d im => Sys2Proof.Machine.execSrd y g d im s
  | .swr y g d im => Sys2Proof.Machine.execSwr y g d im s
  | .srdl y g d im => Sys2Proof.Machine.execSrdl y g d im s
  | .invr y a b => Sys2Proof.Machine.execInvr y a b s
  | .invrRangedesc y a b => Sys2Proof.Machine.execInvrRangedesc y a b s
  | .replayByPage y a b => Sys2Proof.Machine.execReplayByPage y a b s
  | .replayByToken y a b => Sys2Proof.Machine.execReplayByToken y a b s
  | .pin y d a b => Sys2Proof.Machine.execPin y d a b s
  | .unpin y d a b => Sys2Proof.Machine.execUnpin y d a b s
  | .migr y d a => Sys2Proof.Machine.execMigr y d a s
  | .frpop y d => Sys2Proof.Machine.execFrpop y d s
  | .dbghalt y d a => Sys2Proof.Machine.execDbghalt y d a s
  | .dbgres y d a => Sys2Proof.Machine.execDbgres y d a s
  | .rst y d a r => Sys2Proof.Machine.execRst y d a r s
  | .rld y d a r => Sys2Proof.Machine.execRld y d a r s
  | .ratom y d a r => Sys2Proof.Machine.execRatom y d a r s
  | .rfence y => Sys2Proof.Machine.execRfence y s
  | .tlaunch y d a b => Sys2Proof.Machine.execTlaunch y d a b s
  | .tlaunchJob y d a b => Sys2Proof.Machine.execTlaunchJob y d a b s
  | .tdec y d a b => Sys2Proof.Machine.execTdec y d a b s
  | .tcancel y d a => Sys2Proof.Machine.execTcancel y d a s
  | .tstat y d a => Sys2Proof.Machine.execTstat y d a s
  | .tdispLock vf config => Sys2Proof.Machine.execTdispLock vf config s
  | .linkRetrain port => Sys2Proof.Machine.execLinkRetrain port s

end Sys2Proof.Machine
end

