-- ==== Sys2Proof/Machine/Step.lean ====
section
/-! DEFINITION. One step of the machine, and the state that runs a given word next. -/

namespace Sys2Proof.Machine

open Sys2Proof

/-- One step: `State.stepWith` over the meanings of `exec`. -/
noncomputable def step (s : State) : Host.Outcome State Fault Refusal := State.stepWith exec s

/-- A word placed where the next step fetches it, with the wave that fetches it (`State.placeWord`). Every instruction
word of the table has 32 bits; the words above it, literals, are zero. -/
def State.withFetchWord (s : State) (_nbits w : Nat) : State := s.placeWord w

end Sys2Proof.Machine
end

