-- ==== Sys2Proof/Safety.lean ====
section
/-! DEFINITION. The terms in which claims are stated: when an instruction word issues, what a register-only word leaves
unchanged, and what it has written. -/

namespace Sys2Proof.Machine

open Sys2Proof

/-! ### Issue -/

/-- The path of `c` issues in `s`, outside run-ahead. -/
def At (s : State) (c : Ctx) : Prop := s.ctx = some c ∧ c.wv.ra = none

/-- The word passes the checks that every word meets at issue (R49, R50); `ill` is its own further ILL condition. -/
def Passes (c : Ctx) (i : Instr) (ill : Bool := false) : Prop := c.check (info i) ill = none

/-! ### What a register-only word leaves unchanged -/

/-- All of the state is as before but for the issuing wave's v-, g- and predicate registers, FFLAGS, its paths, and its notes
of what issued (R35, R337, R338). -/
structure WaveFrame (s t : State) (c : Ctx) (y : Bool) : Prop where
  rest : { t with blocks := s.blocks } = s
  count : t.blocks.length = s.blocks.length
  blocks : ∀ b, b ≠ c.b → t.blk b = s.blk b
  block : { t.blk c.b with v := c.blk.v, waves := c.blk.waves } = c.blk
  nwaves : (t.blk c.b).waves.length = c.blk.waves.length
  waves : ∀ w, w ≠ c.w → t.wv c.b w = s.wv c.b w
  wave : { t.wv c.b c.w with g := c.wv.g, q := c.wv.q, fflags := c.wv.fflags, paths := c.wv.paths } =
    { c.wv with ypark := c.wv.ypark || y, lastPath := c.p, lastIssue := s.clk, excl := none }

/-- Of the wave's paths, only the issuing path's EXM and its position, now `pos` (R27), and COUNT of its open melded region
(R358) may have changed. -/
structure Frame (s t : State) (c : Ctx) (y : Bool) (pos : DWord × Nat) : Prop extends WaveFrame s t c y where
  paths : ∀ p, p ≠ c.p → (t.wv c.b c.w).path p = c.wv.path p
  path : { (t.wv c.b c.w).path c.p with exm := c.pa.exm } =
    { c.pa with pc := pos.1, cpos := pos.2, phase := 0, blocked := none
                count := if c.pa.mode = .plain then c.pa.count else c.pa.count - 1 }

/-- The issuing path's registers in state `t`. -/
def Ctx.after (c : Ctx) (t : State) : Ctx := t.ctxAt c.b c.w c.p

/-- The v run of `n` registers at field `d` holds `val` in the active lanes; every other lane of every register is as before
(R204, R358). -/
def WroteV (t : State) (c : Ctx) (d n : Nat) (val : Nat → Nat → Word) : Prop :=
  (∀ ln j, c.active ln = true → j < n →
    rowGet (t.blk c.b).v (vRow c.nw c.B c.X c.w (c.vreg ln d + j)) ln = val ln j) ∧
  (∀ r ln, ln < 32 → (∀ j, j < n → c.active ln = true → r ≠ vRow c.nw c.B c.X c.w (c.vreg ln d + j)) →
    rowGet (t.blk c.b).v r ln = rowGet c.blk.v r ln)

/-- The v-registers are as before. -/
def SameV (t : State) (c : Ctx) : Prop := (t.blk c.b).v = c.blk.v

/-- The g-registers `d` … `d + n - 1` hold `val`, but g0 stays zero and g127 keeps the bits of FULL; the others are as
before (R37, R41, R206). -/
def WroteG (t : State) (c : Ctx) (d n : Nat) (val : Nat → Word) : Prop :=
  ∀ k, (c.after t).g k =
    if k = 0 then 0 else if d ≤ k ∧ k < d + n then (if k = 127 then val (k - d) &&& c.pa.full else val (k - d)) else c.g k

/-- The g-registers, EXM among them, are as before. -/
def SameG (t : State) (c : Ctx) : Prop := ∀ k, (c.after t).g k = c.g k

/-- Predicate `d` is `x`, but q0 stays true; the others are as before (R41). -/
def WroteQ (t : State) (c : Ctx) (d : Nat) (x : Bool) : Prop :=
  ∀ k, k < 8 → (c.after t).q k = if k = 0 then true else if k = d then x else c.q k

/-- The predicates are as before. -/
def SameQ (t : State) (c : Ctx) : Prop := (t.wv c.b c.w).q = c.wv.q

/-- A word with a v or g destination has issued: its result in every executed lane, all else as before. `raised` is what
it raised (R198). -/
structure Done (s t : State) (c : Ctx) (y g : Bool) (d : Field) (n : Nat) (lits : Nat) (raised : Raised)
    (val : Nat → Nat → Word) : Prop where
  frame : Frame s t c y (c.nextPos lits)
  v : if g then SameV t c else WroteV t c d.toNat n val
  g : if g then WroteG t c d.toNat n (val 0) else SameG t c
  q : SameQ t c
  flags : (t.wv c.b c.w).fflags = applyRaised c.wv.fflags c.wv.fctrl raised

/-! ### Results of register-only words -/

/-- Issued where it passes the checks, the word `i` runs to a next state with the result `val`. -/
def Result (i : Instr) (y g : Bool) (d : Field) (n : Nat) (val : Ctx → Nat → Nat → Word)
    (raised : Ctx → Raised := fun _ => 0) : Prop :=
  ∀ (s : State) (c : Ctx), At s c → Passes c i → ∃ t, exec i s = .next t ∧ Done s t c y g d n 0 (raised c) (val c)

/-- A 32-bit result `f` of one 32-bit operand. -/
def Result1 (k : Bool → Bool → Field → Field → Instr) (f : Word → Word) : Prop :=
  ∀ y g d a, Result (k y g d a) y g d 1 fun c ln _ => f (c.opnd g a ln 0)

/-- A 32-bit result `f` of two 32-bit operands. -/
def Result2 (k : Bool → Bool → Field → Field → Field → Instr) (f : Word → Word → Word) : Prop :=
  ∀ y g d a b, Result (k y g d a b) y g d 1 fun c ln _ => f (c.opnd g a ln 0) (c.opnd g b ln 0)

/-- A 32-bit result `f` of two 32-bit operands and the old value of d. -/
def Result3 (k : Bool → Bool → Field → Field → Field → Instr) (f : Word → Word → Word → Word) : Prop :=
  ∀ y g d a b, Result (k y g d a b) y g d 1 fun c ln _ => f (c.opnd g a ln 0) (c.opnd g b ln 0) (c.opnd g d ln 0)

/-- A 64-bit result in an even pair, low word in the even register (R43). -/
def ResultD (i : Instr) (y g : Bool) (d : Field) (val : Ctx → Nat → DWord) : Prop :=
  Result i y g d 2 fun c ln j => word64 (val c ln) j

/-- A predicate result. -/
structure DoneQ (s t : State) (c : Ctx) (y : Bool) (d : Nat) (x : Bool) : Prop where
  frame : Frame s t c y (c.nextPos 0)
  v : SameV t c
  g : SameG t c
  q : WroteQ t c d x
  flags : (t.wv c.b c.w).fflags = c.wv.fflags

/-- Issued where it passes the checks, the word `i` writes predicate `d`. -/
def ResultQ (i : Instr) (y : Bool) (d : Nat) (val : Ctx → Bool) : Prop :=
  ∀ (s : State) (c : Ctx), At s c → Passes c i → ∃ t, exec i s = .next t ∧ DoneQ s t c y d (val c)

/-- The path goes on at `pos` and no register changes. -/
structure Moved (s t : State) (c : Ctx) (y : Bool) (pos : DWord × Nat) : Prop where
  frame : Frame s t c y pos
  v : SameV t c
  g : SameG t c
  q : SameQ t c
  flags : (t.wv c.b c.w).fflags = c.wv.fflags

/-- A comparison: a mask of the active lanes into g-register d, or with G = 1 a predicate (R215, R232). -/
def ResultC (k : Bool → Bool → Field → Field → Field → Instr) (f : Word → Word → Bool) : Prop :=
  ∀ y d a b,
    Result (k y false d a b) y true d 1 (fun c _ _ =>
      maskOf fun ln => c.active ln && f (c.src a ln 0) (c.src b ln 0)) ∧
    ResultQ (k y true d a b) y d.toNat fun c => f (c.g a.toNat) (c.g b.toNat)

end Sys2Proof.Machine
end

