-- ==== Sys2Proof/Certificates/Slice0/Obligations.lean ====
section
/-! DEFINITION. The statements for the provers. -/

open Sys2Proof Sys2Proof.Machine

/-- The value of a finite pattern. -/
def Sys2Proof.Machine.fvRat (x : FV) : Rat :=
  match x with
  | .fin n m e => (if n then -1 else 1) * m * (2 : Rat) ^ e
  | _ => 0

/-! ### Integer words (chapter 09) -/

/-- R209: IARI and LOGIC. -/
def Sys2Proof.Machine.ArithmeticAndLogicResults : Prop :=
  Result2 .add (fun a b => BitVec.ofNat 32 (a.toNat + b.toNat)) ∧
  Result2 .sub (fun a b => BitVec.ofInt 32 (a.toNat - b.toNat)) ∧
  Result2 .minS (fun a b => BitVec.ofInt 32 (min a.toInt b.toInt)) ∧
  Result2 .minN (fun a b => BitVec.ofNat 32 (min a.toNat b.toNat)) ∧
  Result2 .maxS (fun a b => BitVec.ofInt 32 (max a.toInt b.toInt)) ∧
  Result2 .maxN (fun a b => BitVec.ofNat 32 (max a.toNat b.toNat)) ∧
  Result2 .absdS (fun a b => BitVec.ofInt 32 |a.toInt - b.toInt|) ∧
  Result1 .neg (fun a => BitVec.ofInt 32 (0 - a.toNat)) ∧
  Result2 .and_ (fun a b => maskOf fun k => bitAt a k && bitAt b k) ∧
  Result2 .or_ (fun a b => maskOf fun k => bitAt a k || bitAt b k) ∧
  Result2 .xor (fun a b => maskOf fun k => bitAt a k != bitAt b k) ∧
  Result2 .andn (fun a b => maskOf fun k => bitAt a k && !bitAt b k) ∧
  Result2 .orn (fun a b => maskOf fun k => bitAt a k || !bitAt b k) ∧
  Result2 .xnor (fun a b => maskOf fun k => bitAt a k == bitAt b k) ∧
  Result1 .not_ (fun a => maskOf fun k => !bitAt a k)

/-- A shift or rotation of R210 with its amount in b[5:0], and its immediate twin. -/
def Sys2Proof.Machine.Shift (k : Bool → Bool → Field → Field → Field → Instr) (ki : Bool → Bool → Field → Field → BitVec 6 → Instr)
    (f : Word → Nat → Word) : Prop :=
  Result2 k (fun a b => f a (b.toNat % 64)) ∧ ∀ n : BitVec 6, Result1 (fun y g d a => ki y g d a n) (f · n.toNat)

/-- The same for a 64-bit value in an even pair. -/
def Sys2Proof.Machine.ShiftW (k : Bool → Bool → Field → Field → Field → Instr) (ki : Bool → Bool → Field → Field → BitVec 6 → Instr)
    (f : DWord → Nat → DWord) : Prop :=
  ∀ y g d a, (∀ b, ResultD (k y g d a b) y g d fun c ln => f (c.opnd64 g a ln) ((c.opnd g b ln 0).toNat % 64)) ∧
    ∀ n : BitVec 6, ResultD (ki y g d a n) y g d fun c ln => f (c.opnd64 g a ln) n.toNat

/-- R210: SHIFT and SHIFTI. -/
def Sys2Proof.Machine.ShiftResults : Prop :=
  Shift .shl .shli (fun a n => BitVec.ofNat 32 (a.toNat * 2 ^ n)) ∧
  Shift .shr .shri (fun a n => BitVec.ofNat 32 (a.toNat / 2 ^ n)) ∧
  Shift .sar .sari (fun a n => BitVec.ofInt 32 (a.toInt / 2 ^ n)) ∧
  Shift .rol .roli (fun a n => maskOf fun k => bitAt a ((k + 64 - n) % 32)) ∧
  Shift .ror .rori (fun a n => maskOf fun k => bitAt a ((k + n) % 32)) ∧
  ShiftW .shlW .shlWi (fun a n => BitVec.ofNat 64 (a.toNat * 2 ^ n)) ∧
  ShiftW .shrW .shrWi (fun a n => BitVec.ofNat 64 (a.toNat / 2 ^ n)) ∧
  ShiftW .sarW .sarWi (fun a n => BitVec.ofInt 64 (a.toInt / 2 ^ n))

/-- R211: each IMUL word completes with the result of its row of R211's table: the product exact before it is cut or added to the old d. -/
def Sys2Proof.Machine.MultiplyResults : Prop :=
  Result2 .mul (fun a b => BitVec.ofNat 32 (a.toNat * b.toNat)) ∧
  Result2 .mulhS (fun a b => BitVec.ofInt 32 (a.toInt * b.toInt / 2 ^ 32)) ∧
  Result2 .mulhN (fun a b => BitVec.ofNat 32 (a.toNat * b.toNat / 2 ^ 32)) ∧
  Result3 .mad (fun a b d => BitVec.ofNat 32 (a.toNat * b.toNat + d.toNat)) ∧
  ∀ y g d a b,
    ResultD (.mulwS y g d a b) y g d (fun c ln =>
      BitVec.ofInt 64 ((c.opnd g a ln 0).toInt * (c.opnd g b ln 0).toInt)) ∧
    ResultD (.mulwN y g d a b) y g d (fun c ln =>
      BitVec.ofNat 64 ((c.opnd g a ln 0).toNat * (c.opnd g b ln 0).toNat)) ∧
    ResultD (.madwS y g d a b) y g d (fun c ln =>
      BitVec.ofInt 64 ((c.opnd g a ln 0).toInt * (c.opnd g b ln 0).toInt + (c.opnd64 g d ln).toInt)) ∧
    ResultD (.madwN y g d a b) y g d (fun c ln =>
      BitVec.ofNat 64 ((c.opnd g a ln 0).toNat * (c.opnd g b ln 0).toNat + (c.opnd64 g d ln).toNat))

/-- R209, R211: IARI, LOGIC and IMUL. -/
def Obligations.IntegerArithmeticResults : Prop := ArithmeticAndLogicResults ∧ MultiplyResults

/-- A bit field of R213: its position, its end, its length, from the value of operand b. -/
def Sys2Proof.Machine.fieldPos (c : Word) : Nat := c.toNat % 32
def Sys2Proof.Machine.fieldTop (c : Word) : Nat := min (fieldPos c + min (c.toNat / 256 % 64) 32) 32
def Sys2Proof.Machine.fieldLen (c : Word) : Nat := fieldTop c - fieldPos c

/-- Byte `k` of the eight source bytes of PRMT: 0–3 of `a`, 4–7 of `b` (R214). -/
def Sys2Proof.Machine.permByte (a b : Word) (k : Nat) : Nat := (if k < 4 then a.toNat / 256 ^ k else b.toNat / 256 ^ (k - 4)) % 256

/-- A result byte of PRMT by its selector nibble (R214). -/
def Sys2Proof.Machine.permute (a b : Word) (t : Nat) : Nat :=
  if t < 8 then permByte a b t else if 128 ≤ permByte a b (t - 8) then 0xFF else 0

/-- R212 to R214: BITS. -/
def Sys2Proof.Machine.BitResults : Prop :=
  Result1 .popc (fun a => BitVec.ofNat 32 ((List.range 32).filter (bitAt a)).length) ∧
  Result1 .clz (fun a => BitVec.ofNat 32 (32 - Nat.size a.toNat)) ∧
  Result1 .ctz (fun a => BitVec.ofNat 32 (((List.range 32).takeWhile fun k => !bitAt a k).length)) ∧
  Result1 .brev (fun a => maskOf fun k => bitAt a (31 - k)) ∧
  Result2 .bfeZ (fun a c => BitVec.ofNat 32 (a.toNat / 2 ^ fieldPos c % 2 ^ fieldLen c)) ∧
  Result2 .bfeS (fun a c => maskOf fun k =>
    fieldLen c != 0 && bitAt a (fieldPos c + min k (fieldLen c - 1))) ∧
  Result3 .bfi (fun a c d => maskOf fun k =>
    if fieldPos c ≤ k ∧ k < fieldTop c then bitAt a (k - fieldPos c) else bitAt d k) ∧
  Result3 .prmt (fun a b d => BitVec.ofNat 32
    (permute a b (d.toNat % 16) + 256 * permute a b (d.toNat / 16 % 16) + 256 ^ 2 * permute a b (d.toNat / 256 % 16) +
      256 ^ 3 * permute a b (d.toNat / 4096 % 16)))

/-- R215: ICMP, its mask and its predicate form. -/
def Sys2Proof.Machine.CompareResults : Prop :=
  ResultC .icmpEq (fun a b => decide (a.toNat = b.toNat)) ∧
  ResultC .icmpNe (fun a b => decide (a.toNat ≠ b.toNat)) ∧
  ResultC .icmpLtS (fun a b => decide (a.toInt < b.toInt)) ∧
  ResultC .icmpLeS (fun a b => decide (a.toInt ≤ b.toInt)) ∧
  ResultC .icmpLtN (fun a b => decide (a.toNat < b.toNat)) ∧
  ResultC .icmpLeN (fun a b => decide (a.toNat ≤ b.toNat)) ∧
  ResultC .icmpTest (fun a b => (List.range 32).any fun k => bitAt a k && bitAt b k)

/-- R216 to R218: ADDR, ICVT and the immediates. -/
def Sys2Proof.Machine.AddressWidthImmediateResults : Prop :=
  (∀ y g d a b,
    ResultD (.add64 y g d a b) y g d (fun c ln =>
      BitVec.ofNat 64 ((c.opnd64 g a ln).toNat + (c.opnd64 g b ln).toNat)) ∧
    ResultD (.sub64 y g d a b) y g d (fun c ln =>
      BitVec.ofInt 64 ((c.opnd64 g a ln).toNat - (c.opnd64 g b ln).toNat)) ∧
    ResultD (.lea2 y g d a b) y g d (fun c ln =>
      BitVec.ofNat 64 ((c.opnd64 g a ln).toNat + 2 * (c.opnd g b ln 0).toNat)) ∧
    ResultD (.lea4 y g d a b) y g d (fun c ln =>
      BitVec.ofNat 64 ((c.opnd64 g a ln).toNat + 4 * (c.opnd g b ln 0).toNat)) ∧
    ResultD (.lea8 y g d a b) y g d (fun c ln =>
      BitVec.ofNat 64 ((c.opnd64 g a ln).toNat + 8 * (c.opnd g b ln 0).toNat)) ∧
    ResultD (.lea16 y g d a b) y g d (fun c ln =>
      BitVec.ofNat 64 ((c.opnd64 g a ln).toNat + 16 * (c.opnd g b ln 0).toNat))) ∧
  Result1 .sext8 (fun a => maskOf fun k => bitAt a (min k 7)) ∧
  Result1 .sext16 (fun a => maskOf fun k => bitAt a (min k 15)) ∧
  Result1 .zext8 (fun a => BitVec.ofNat 32 (a.toNat % 2 ^ 8)) ∧
  Result1 .zext16 (fun a => BitVec.ofNat 32 (a.toNat % 2 ^ 16)) ∧
  (∀ y g d a, ResultD (.sext32 y g d a) y g d fun c ln => BitVec.ofInt 64 (c.opnd g a ln 0).toInt) ∧
  (∀ y g d a, ResultD (.zext32 y g d a) y g d fun c ln => BitVec.ofNat 64 (c.opnd g a ln 0).toNat) ∧
  (∀ y g d a, Result (.trunc64 y g d a) y g d 1 fun c ln _ => BitVec.ofNat 32 (c.opnd64 g a ln).toNat) ∧
  (∀ i : BitVec 10,
    Result1 (fun y g d a => .addi y g d a i) (fun a => BitVec.ofInt 32 (a.toInt + i.toInt)) ∧
    Result1 (fun y g d a => .andi y g d a i) (fun a => maskOf fun k => bitAt a k && i.getLsbD (min k 9)) ∧
    Result1 (fun y g d a => .ori y g d a i) (fun a => maskOf fun k => bitAt a k || i.getLsbD k)) ∧
  ∀ y g d (i : BitVec 17), Result (.movi y g d i) y g d 1 fun _ _ _ => BitVec.ofInt 32 i.toInt

/-- R219, R44: LIT, where its literal words are there, writes the word to d, LIT.64 the low word to the even d and the high word to d + 1: in
every active lane with G = 0, once with G = 1. The path goes on after them. An odd d with LIT.64 raises ILL. -/
def Sys2Proof.Machine.LiteralResults : Prop :=
  ∀ (y g : Bool) (d : Field) (s : State) (c : Ctx), At s c →
    (∀ w s1, Passes c (.lit32 y g d) → c.clauseWord s 1 = .ok w s1 →
      ∃ t, exec (.lit32 y g d) s = .next t ∧ Done s1 t c y g d 1 1 0 fun _ _ => w) ∧
    (∀ w x s1 s2, Passes c (.lit64 y g d) → c.clauseWord s 1 = .ok w s1 → c.clauseWord s1 2 = .ok x s2 →
      ∃ t, exec (.lit64 y g d) s = .next t ∧ Done s2 t c y g d 2 2 0 fun _ j => if j = 0 then w else x) ∧
    (d.toNat % 2 = 1 → exec (.lit64 y g d) s = .next (s.takeTrap c.b c.w c.p (c.trap 0x01)))

/-- The active lanes of the issuing path, lowest first. -/
def Sys2Proof.Machine.activeLanes (c : Ctx) : List Nat := (List.range 32).filter c.active

/-- R220: LANE. -/
def Obligations.LaneResults : Prop :=
  ∀ (y : Bool) (d a b : Field) (r : BitVec 4),
    Result (.shflIdx y d a b) y false d 1 (fun c ln _ => c.src a ((c.src b ln 0).toNat % 32) 0) ∧
    Result (.shflUp y d a b) y false d 1 (fun c ln _ =>
      let k := (c.src b ln 0).toNat % 32
      c.src a (if (ln : Int) - k < 0 then ln else ln - k) 0) ∧
    Result (.shflDn y d a b) y false d 1 (fun c ln _ =>
      let k := (c.src b ln 0).toNat % 32
      c.src a (if 31 < ln + k then ln else ln + k) 0) ∧
    Result (.shflXor y d a b) y false d 1 (fun c ln _ => c.src a (ln ^^^ ((c.src b ln 0).toNat % 32)) 0) ∧
    (∀ s c, At s c → Passes c (.bcast y d a) → ∃ t, exec (.bcast y d a) s = .next t ∧
      match activeLanes c with
      | [] => Done s t c y true d 0 0 0 fun _ _ => 0
      | ln :: _ => Done s t c y true d 1 0 0 fun _ _ => c.src a ln 0) ∧
    Result (.vset y d r) y false d 1 (fun c ln _ => if bitAt (c.bc r) ln then 0xFFFFFFFF else 0) ∧
    Result (.redadd y d a) y true d 1 (fun c _ _ =>
      BitVec.ofNat 32 ((activeLanes c).map fun ln => (c.src a ln 0).toNat).sum) ∧
    Result (.redmaxS y d a) y true d 1 (fun c _ _ =>
      BitVec.ofInt 32 (((activeLanes c).map fun ln => (c.src a ln 0).toInt).foldr max (-2 ^ 31)))

/-- R221 and R222: MASKQ and MOVE. -/
def Sys2Proof.Machine.MaskPredicateMoveResults : Prop :=
  ∀ (y : Bool) (d a b : Field) (p q r : BitVec 3),
    Result (.mpopc y d a) y true d 1 (fun c _ _ => BitVec.ofNat 32 ((List.range 32).filter (bitAt (c.g a.toNat))).length) ∧
    Result (.mffs y d a) y true d 1 (fun c _ _ =>
      BitVec.ofNat 32 (((List.range 32).takeWhile fun k => !bitAt (c.g a.toNat) k).length)) ∧
    Result (.mfls y d a) y true d 1 (fun c _ _ =>
      if c.g a.toNat = 0 then 32 else BitVec.ofNat 32 (Nat.log2 (c.g a.toNat).toNat)) ∧
    ResultQ (.mtest y p a b) y p.toNat (fun c => (List.range 32).any fun k => bitAt (c.g a.toNat) k && bitAt (c.g b.toNat) k) ∧
    ResultQ (.qand y p q r) y p.toNat (fun c => c.q q.toNat && c.q r.toNat) ∧
    ResultQ (.qor y p q r) y p.toNat (fun c => c.q q.toNat || c.q r.toNat) ∧
    ResultQ (.qxor y p q r) y p.toNat (fun c => c.q q.toNat != c.q r.toNat) ∧
    ResultQ (.qnot y p q) y p.toNat (fun c => !c.q q.toNat) ∧
    Result (.mov y d a) y false d 1 (fun c ln _ => c.src a ln 0) ∧
    Result (.movg y d a) y true d 1 (fun c _ _ => c.g a.toNat) ∧
    ResultD (.movv y d a) y false d (fun c ln => c.opnd64 false a ln) ∧
    ResultQ (.movq y p a) y p.toNat (fun c => c.g a.toNat != 0) ∧
    Result (.qmov y d q) y true d 1 (fun c _ _ => if c.q q.toNat then 1 else 0)

/-- Shifts and bit-field words (R210, R212). -/
def Obligations.ShiftAndBitResults : Prop := ShiftResults ∧ BitResults

/-- Comparisons, masks, predicates and moves between the files. -/
def Obligations.CompareAndMaskResults : Prop := CompareResults ∧ MaskPredicateMoveResults

/-- Address-width, immediate and literal words. -/
def Obligations.ImmediateAndLiteralResults : Prop := AddressWidthImmediateResults ∧ LiteralResults

/-! ### Floating-point words (chapter 10) -/

/-- A floating result in every executed lane, the flags of all of them raised (R198, R204, R205). -/
def Sys2Proof.Machine.FloatResult (i : Instr) (y g : Bool) (d : Field) (f : Ctx → Nat → Res) : Prop :=
  Result i y g d 1 (fun c ln _ => BitVec.ofNat 32 (f c ln).1)
    fun c => (c.execLanes g).foldl (fun x ln => x ||| (f c ln).2) 0

/-- The same for an FP64 result in an even pair. -/
def Sys2Proof.Machine.FloatResultD (i : Instr) (y g : Bool) (d : Field) (f : Ctx → Nat → Res) : Prop :=
  Result i y g d 2 (fun c ln j => word64 (BitVec.ofNat 64 (f c ln).1) j)
    fun c => (c.execLanes g).foldl (fun x ln => x ||| (f c ln).2) 0

/-- An exact sum of products and addends rounded once in FCTRL's mode (R227, R228). -/
def Sys2Proof.Machine.sumOf (f : Fmt) (c : Ctx) (ps : List (FV × FV)) (ds : List FV) : Res := fsumprod f c.rm c.ftz ps ds

/-- R227 to R229: FARITH, FFMA and F64. -/
def Obligations.FloatArithmeticResults : Prop :=
  ∀ (y g : Bool) (d a b : Field) (m : BitVec 3),
    FloatResult (.fadd y g d a b) y g d (fun c ln => sumOf .f32 c [] [c.f32 g a ln, c.f32 g b ln]) ∧
    FloatResult (.fsub y g d a b) y g d (fun c ln => sumOf .f32 c [] [c.f32 g a ln, (c.f32 g b ln).negate]) ∧
    FloatResult (.fmul y g d a b) y g d (fun c ln => fmulRes .f32 c.rm c.ftz (c.f32 g a ln) (c.f32 g b ln)) ∧
    FloatResult (.fmin y g d a b) y g d (fun c ln =>
      fminmax .f32 c.ftz false false (c.opnd g a ln 0).toNat (c.opnd g b ln 0).toNat) ∧
    FloatResult (.fmax y g d a b) y g d (fun c ln =>
      fminmax .f32 c.ftz true false (c.opnd g a ln 0).toNat (c.opnd g b ln 0).toNat) ∧
    FloatResult (.fminn y g d a b) y g d (fun c ln =>
      fminmax .f32 c.ftz false true (c.opnd g a ln 0).toNat (c.opnd g b ln 0).toNat) ∧
    FloatResult (.fmaxn y g d a b) y g d (fun c ln =>
      fminmax .f32 c.ftz true true (c.opnd g a ln 0).toNat (c.opnd g b ln 0).toNat) ∧
    Result (.fcopysign y g d a b) y g d 1 (fun c ln _ =>
      maskOf fun k => if k = 31 then bitAt (c.opnd g b ln 0) 31 else bitAt (c.opnd g a ln 0) k) ∧
    FloatResult (.fma y d a b) y false d (fun c ln =>
      sumOf .f32 c [(c.f32 false a ln, c.f32 false b ln)] [c.f32 false d ln]) ∧
    FloatResult (.fms y d a b) y false d (fun c ln =>
      sumOf .f32 c [(c.f32 false a ln, c.f32 false b ln)] [(c.f32 false d ln).negate]) ∧
    FloatResult (.fnma y d a b) y false d (fun c ln =>
      sumOf .f32 c [((c.f32 false a ln).negate, c.f32 false b ln)] [c.f32 false d ln]) ∧
    FloatResult (.fnms y d a b) y false d (fun c ln =>
      sumOf .f32 c [((c.f32 false a ln).negate, c.f32 false b ln)] [(c.f32 false d ln).negate]) ∧
    FloatResultD (.fmaF64 y d a b) y false d (fun c ln =>
      sumOf .f64 c [(c.f64 false a ln, c.f64 false b ln)] [c.f64 false d ln]) ∧
    FloatResultD (.fmsF64 y d a b) y false d (fun c ln =>
      sumOf .f64 c [(c.f64 false a ln, c.f64 false b ln)] [(c.f64 false d ln).negate]) ∧
    FloatResultD (.fnmaF64 y d a b) y false d (fun c ln =>
      sumOf .f64 c [((c.f64 false a ln).negate, c.f64 false b ln)] [c.f64 false d ln]) ∧
    FloatResultD (.fnmsF64 y d a b) y false d (fun c ln =>
      sumOf .f64 c [((c.f64 false a ln).negate, c.f64 false b ln)] [(c.f64 false d ln).negate]) ∧
    FloatResultD (.faddF64 y d a b) y false d (fun c ln => sumOf .f64 c [] [c.f64 false a ln, c.f64 false b ln]) ∧
    FloatResultD (.fsubF64 y d a b) y false d (fun c ln => sumOf .f64 c [] [c.f64 false a ln, (c.f64 false b ln).negate]) ∧
    FloatResultD (.fmulF64 y d a b) y false d (fun c ln => fmulRes .f64 c.rm c.ftz (c.f64 false a ln) (c.f64 false b ln)) ∧
    FloatResultD (.fminF64 y d a b) y false d (fun c ln =>
      fminmax .f64 c.ftz false false (c.opnd64 false a ln).toNat (c.opnd64 false b ln).toNat) ∧
    FloatResultD (.fmaxF64 y d a b) y false d (fun c ln =>
      fminmax .f64 c.ftz true false (c.opnd64 false a ln).toNat (c.opnd64 false b ln).toNat) ∧
    FloatResult (.frndF32 y d a m) y false d (fun c ln =>
      roundIntegral .f32 (rmode m.toNat c.wv.fctrl) c.ftz (c.opnd false a ln 0).toNat) ∧
    FloatResultD (.frndF64 y d a m) y false d (fun c ln =>
      roundIntegral .f64 (rmode m.toNat c.wv.fctrl) c.ftz (c.opnd64 false a ln).toNat)

/-- Half `h` of a packed register as a value. -/
def Sys2Proof.Machine.halfV (f : Fmt) (x : Word) (h : Nat) : FV := f.value (x.toNat / 65536 ^ h % 65536)

/-- A packed result: each half computed alone, their flags ORed (R230). -/
def Sys2Proof.Machine.PackedResult (i : Instr) (y : Bool) (d : Field) (f : Ctx → Nat → Nat → Res) : Prop :=
  FloatResult i y false d fun c ln => ((f c ln 0).1 + 65536 * (f c ln 1).1, (f c ln 0).2 ||| (f c ln 1).2)

/-- Bytes `k` of two registers multiplied and added to d: exact, cut to 32 bits (R231). -/
def Sys2Proof.Machine.byteDot (byte : Nat → Int) (a b d : Word) : Word :=
  BitVec.ofInt 32 (d.toInt + ((List.range 4).map fun k =>
    byte (a.toNat / 256 ^ k % 256) * byte (b.toNat / 256 ^ k % 256)).sum)

/-- The products of `n` elements of width `w` of two registers (R231). -/
def Sys2Proof.Machine.elemPairs (f : Fmt) (n w : Nat) (a b : Word) : List (FV × FV) :=
  (List.range n).map fun k => (f.value (a.toNat / 2 ^ (w * k) % 2 ^ w), f.value (b.toNat / 2 ^ (w * k) % 2 ^ w))

/-- R230 and R231: PACK16 and DOT. Packed arithmetic never flushes (R195). -/
def Sys2Proof.Machine.PackedAndDotResults : Prop :=
  ∀ (y : Bool) (d a b : Field),
    let A (c : Ctx) (ln : Nat) : Word := c.src a ln 0
    let B (c : Ctx) (ln : Nat) : Word := c.src b ln 0
    let D (c : Ctx) (ln : Nat) : Word := c.src d ln 0
    PackedResult (.hadd2F16 y d a b) y d (fun c ln h =>
      fsumprod .f16 c.rm false [] [halfV .f16 (A c ln) h, halfV .f16 (B c ln) h]) ∧
    PackedResult (.hmul2F16 y d a b) y d (fun c ln h =>
      fmulRes .f16 c.rm false (halfV .f16 (A c ln) h) (halfV .f16 (B c ln) h)) ∧
    PackedResult (.hfma2F16 y d a b) y d (fun c ln h =>
      fsumprod .f16 c.rm false [(halfV .f16 (A c ln) h, halfV .f16 (B c ln) h)] [halfV .f16 (D c ln) h]) ∧
    PackedResult (.hadd2Bf16 y d a b) y d (fun c ln h =>
      fsumprod .bf16 c.rm false [] [halfV .bf16 (A c ln) h, halfV .bf16 (B c ln) h]) ∧
    PackedResult (.hmul2Bf16 y d a b) y d (fun c ln h =>
      fmulRes .bf16 c.rm false (halfV .bf16 (A c ln) h) (halfV .bf16 (B c ln) h)) ∧
    PackedResult (.hfma2Bf16 y d a b) y d (fun c ln h =>
      fsumprod .bf16 c.rm false [(halfV .bf16 (A c ln) h, halfV .bf16 (B c ln) h)] [halfV .bf16 (D c ln) h]) ∧
    PackedResult (.hmin2F16 y d a b) y d (fun c ln h =>
      fminmax .f16 false false false ((A c ln).toNat / 65536 ^ h % 65536) ((B c ln).toNat / 65536 ^ h % 65536)) ∧
    PackedResult (.hmax2F16 y d a b) y d (fun c ln h =>
      fminmax .f16 false true false ((A c ln).toNat / 65536 ^ h % 65536) ((B c ln).toNat / 65536 ^ h % 65536)) ∧
    PackedResult (.packF16 y d a b) y d (fun c ln h =>
      Fmt.f16.encode c.rm false (if h = 0 then c.f32 false a ln else c.f32 false b ln)) ∧
    PackedResult (.packBf16 y d a b) y d (fun c ln h =>
      Fmt.bf16.encode c.rm false (if h = 0 then c.f32 false a ln else c.f32 false b ln)) ∧
    FloatResult (.dot2F16 y d a b) y false d (fun c ln =>
      sumOf .f32 c (elemPairs .f16 2 16 (A c ln) (B c ln)) [c.f32 false d ln]) ∧
    FloatResult (.dot2Bf16 y d a b) y false d (fun c ln =>
      sumOf .f32 c (elemPairs .bf16 2 16 (A c ln) (B c ln)) [c.f32 false d ln]) ∧
    FloatResult (.dot4E4m3 y d a b) y false d (fun c ln =>
      sumOf .f32 c (elemPairs .e4m3 4 8 (A c ln) (B c ln)) [c.f32 false d ln]) ∧
    FloatResult (.dot4E5m2 y d a b) y false d (fun c ln =>
      sumOf .f32 c (elemPairs .e5m2 4 8 (A c ln) (B c ln)) [c.f32 false d ln]) ∧
    Result (.dot4S8 y d a b) y false d 1 (fun c ln _ =>
      byteDot (fun n => if n < 128 then n else (n : Int) - 256) (A c ln) (B c ln) (D c ln)) ∧
    Result (.dot4Z8 y d a b) y false d 1 (fun c ln _ => byteDot (fun n => n) (A c ln) (B c ln) (D c ln))

/-- A floating comparison into a lane mask; NV where `nv` holds in an active lane (R232). -/
def Sys2Proof.Machine.FloatCompare (i : Instr) (y : Bool) (d : Field) (f nv : Ctx → Nat → Bool) : Prop :=
  Result i y true d 1 (fun c _ _ => maskOf fun ln => c.active ln && f c ln)
    fun c => if (activeLanes c).any (nv c) then fNV else 0

/-- R232: FCMP. -/
def Sys2Proof.Machine.FloatCompareResults : Prop :=
  ∀ (y : Bool) (d a b : Field),
    let A (c : Ctx) (ln : Nat) : FV := c.f32 false a ln
    let B (c : Ctx) (ln : Nat) : FV := c.f32 false b ln
    let A' (c : Ctx) (ln : Nat) : FV := c.f64 false a ln
    let B' (c : Ctx) (ln : Nat) : FV := c.f64 false b ln
    let ordered (x z : FV) : Bool := !x.isNan && !z.isNan
    FloatCompare (.feq y d a b) y d (fun c ln => ordered (A c ln) (B c ln) && !(A c ln).lt (B c ln) && !(B c ln).lt (A c ln))
      (fun c ln => (A c ln).isSnan || (B c ln).isSnan) ∧
    FloatCompare (.fne y d a b) y d
      (fun c ln => !ordered (A c ln) (B c ln) || (A c ln).lt (B c ln) || (B c ln).lt (A c ln))
      (fun c ln => (A c ln).isSnan || (B c ln).isSnan) ∧
    FloatCompare (.flt y d a b) y d (fun c ln => ordered (A c ln) (B c ln) && (A c ln).lt (B c ln))
      (fun c ln => !ordered (A c ln) (B c ln)) ∧
    FloatCompare (.fle y d a b) y d (fun c ln => ordered (A c ln) (B c ln) && !(B c ln).lt (A c ln))
      (fun c ln => !ordered (A c ln) (B c ln)) ∧
    FloatCompare (.fun y d a b) y d (fun c ln => !ordered (A c ln) (B c ln))
      (fun c ln => (A c ln).isSnan || (B c ln).isSnan) ∧
    FloatCompare (.feqF64 y d a b) y d
      (fun c ln => ordered (A' c ln) (B' c ln) && !(A' c ln).lt (B' c ln) && !(B' c ln).lt (A' c ln))
      (fun c ln => (A' c ln).isSnan || (B' c ln).isSnan) ∧
    FloatCompare (.fltF64 y d a b) y d (fun c ln => ordered (A' c ln) (B' c ln) && (A' c ln).lt (B' c ln))
      (fun c ln => !ordered (A' c ln) (B' c ln)) ∧
    FloatCompare (.fleF64 y d a b) y d (fun c ln => ordered (A' c ln) (B' c ln) && !(B' c ln).lt (A' c ln))
      (fun c ln => !ordered (A' c ln) (B' c ln))

/-- The results of RCP, RSQ, SQRT, EXP2, LOG2, SINPI, COSPI and TANH of an FP32 operand. -/
def Sys2Proof.Machine.sfuResults (rm : RMode) (ftz : Bool) (x : Nat) : List Res :=
  [rcpRes rm ftz x, rsqRes rm ftz x, sqrtRes rm ftz x, exp2Res rm ftz x, log2Res rm ftz x, sinpiRes rm ftz x, cospiRes rm ftz x,
    tanhRes rm ftz x]

/-- R233: the table of special inputs. A NaN gives 0x7FC00000, and a signalling one raises NV; under FTZ a subnormal operand is read as
a zero of its sign; LOG2 of 1 is +0. -/
def Sys2Proof.Machine.SpecialInputs : Prop :=
  ∀ (rm : RMode) (ftz : Bool) (x : Nat), x < 2 ^ 32 →
    let mag := x % 2 ^ 31
    let z := if ftz = true ∧ mag < 2 ^ 23 then x / 2 ^ 31 * 2 ^ 31 else x
    let all := sfuResults rm ftz x
    let nan : Res := (0x7FC00000, 0)
    let invalid : Res := (0x7FC00000, fNV)
    (0x7F800000 < mag → all = List.replicate 8 (if x.testBit 22 then nan else invalid)) ∧
    (z = 0xFF800000 → all =
      [(0x80000000, 0), invalid, invalid, (0, 0), invalid, invalid, invalid, (0xBF800000, 0)]) ∧
    (0x80000000 < z → z < 0xFF800000 → rsqRes rm ftz x = invalid ∧ sqrtRes rm ftz x = invalid ∧ log2Res rm ftz x = invalid) ∧
    (z = 0x80000000 → all =
      [(0xFF800000, fDZ), (0xFF800000, fDZ), (0x80000000, 0), (0x3F800000, 0), (0xFF800000, fDZ), (0x80000000, 0), (0x3F800000, 0),
        (0x80000000, 0)]) ∧
    (z = 0 → all =
      [(0x7F800000, fDZ), (0x7F800000, fDZ), (0, 0), (0x3F800000, 0), (0xFF800000, fDZ), (0, 0), (0x3F800000, 0), (0, 0)]) ∧
    (z = 0x7F800000 → all =
      [(0, 0), (0, 0), (0x7F800000, 0), (0x7F800000, 0), (0x7F800000, 0), invalid, invalid, (0x3F800000, 0)]) ∧
    (z = 0x3F800000 → log2Res rm ftz x = (0, 0))

/-- The spacing of FP32 at |y| (R233). -/
noncomputable def Sys2Proof.Machine.ulp32 (y : ℝ) : ℝ := if |y| < (2 : ℝ) ^ (-126 : ℤ) then (2 : ℝ) ^ (-149 : ℤ) else (2 : ℝ) ^ (Int.log 2 |y| - 23)

/-- A result within `k` ulp of `y`, where `y` lies within the finite FP32 values. -/
def Sys2Proof.Machine.Within (k : ℝ) (y : ℝ) (r : Res) : Prop :=
  |y| ≤ (2 ^ 24 - 1) * 2 ^ 104 →
    r.1 < 2 ^ 32 ∧ (∃ n m e, Fmt.f32.value r.1 = .fin n m e) ∧ |((fvRat (Fmt.f32.value r.1) : Rat) : ℝ) - y| ≤ k * ulp32 y

/-- R233: without FTZ, each function of a finite non-zero operand is within its Bound of the exact value. It gives an exact result
without NX where the rule lists one that is an FP32 value, with the signs of the zeros, and sets NX otherwise. That SQRT of a square sets
no NX is the model's reading (notes/assumptions/69.md); that its fixed point is wide enough its inference (notes/assumptions/10.md). -/
def Obligations.SpecialFunctionValues : Prop :=
  ∀ (rm : RMode) (x m : Nat) (n : Bool) (e : Int), x < 2 ^ 32 → Fmt.f32.value x = .fin n m e → m ≠ 0 →
    let q : Rat := fvRat (.fin n m e)
    let a : ℝ := q
    let val (r : Res) : Rat := fvRat (Fmt.f32.value r.1)
    let nx (r : Res) : Bool := r.2.getLsbD 0
    let fp32 (z : Rat) : Prop := ∃ w < 2 ^ 32, ∃ k j i, Fmt.f32.value w = .fin k j i ∧ fvRat (.fin k j i) = z
    let exact (z : Rat) (r : Res) : Prop := val r = z ∧ r.2 = 0
    let RCP := rcpRes rm false x
    let RSQ := rsqRes rm false x
    let SQRT := sqrtRes rm false x
    let EXP2 := exp2Res rm false x
    let LOG2 := log2Res rm false x
    let SINPI := sinpiRes rm false x
    let COSPI := cospiRes rm false x
    let TANH := tanhRes rm false x
    (Within 1 (1 / a) RCP ∧ (fp32 (1 / q) → exact (1 / q) RCP) ∧ (¬ fp32 (1 / q) → nx RCP = true)) ∧
    (0 < q →
      Within 1 (1 / Real.sqrt a) RSQ ∧ (∀ z, 0 < z → fp32 z → z * z * q = 1 → exact z RSQ) ∧
        ((¬ ∃ z, fp32 z ∧ z * z * q = 1) → nx RSQ = true)) ∧
    (0 < q →
      Within 1 (Real.sqrt a) SQRT ∧ (rm = .rne → Within (1 / 2) (Real.sqrt a) SQRT) ∧ (∀ z, 0 < z → fp32 z → z * z = q → exact z SQRT) ∧
        ((¬ ∃ z, fp32 z ∧ z * z = q) → nx SQRT = true)) ∧
    (Within 2 ((2 : ℝ) ^ a) EXP2 ∧ (∀ k : ℤ, q = k → -149 ≤ k → k ≤ 127 → exact ((2 : Rat) ^ k) EXP2) ∧
      ((¬ ∃ k : ℤ, q = k ∧ -149 ≤ k ∧ k ≤ 127) → nx EXP2 = true)) ∧
    (0 < q → Within 2 (Real.logb 2 a) LOG2 ∧ (∀ k : ℤ, q = (2 : Rat) ^ k → exact k LOG2) ∧ ((¬ ∃ k : ℤ, q = (2 : Rat) ^ k) → nx LOG2 = true)) ∧
    ((|q| < 2 ^ 22 → Within 2 (Real.sin (Real.pi * a)) SINPI) ∧
      (∀ k : ℤ, q = k → SINPI = (if q < 0 then 0x80000000 else 0, 0)) ∧
      (∀ k : ℤ, q = k + 1 / 2 → exact (if k % 2 = 0 then 1 else -1) SINPI) ∧ ((¬ ∃ k : ℤ, 2 * q = k) → nx SINPI = true)) ∧
    ((|q| < 2 ^ 22 → Within 2 (Real.cos (Real.pi * a)) COSPI) ∧ (∀ k : ℤ, q = k → exact (if k % 2 = 0 then 1 else -1) COSPI) ∧
      (∀ k : ℤ, q = k + 1 / 2 → COSPI = (0, 0)) ∧ ((¬ ∃ k : ℤ, 2 * q = k) → nx COSPI = true)) ∧
    (Within 3 (Real.tanh a) TANH ∧ nx TANH = true)

/-- R233: SFU, its results in the executed lanes and their special inputs. That 512 bits of fixed point decide every rounding is the
model's inference (notes/assumptions/10.md). -/
def Obligations.SpecialFunctionResults : Prop :=
  SpecialInputs ∧ ∀ (y g : Bool) (d a : Field),
    let x (c : Ctx) (ln : Nat) : Nat := (c.opnd g a ln 0).toNat
    FloatResult (.rcp y g d a) y g d (fun c ln => rcpRes c.rm c.ftz (x c ln)) ∧
    FloatResult (.rsq y g d a) y g d (fun c ln => rsqRes c.rm c.ftz (x c ln)) ∧
    FloatResult (.sqrt y g d a) y g d (fun c ln => sqrtRes c.rm c.ftz (x c ln)) ∧
    FloatResult (.exp2 y g d a) y g d (fun c ln => exp2Res c.rm c.ftz (x c ln)) ∧
    FloatResult (.log2 y g d a) y g d (fun c ln => log2Res c.rm c.ftz (x c ln)) ∧
    FloatResult (.sinpi y g d a) y g d (fun c ln => sinpiRes c.rm c.ftz (x c ln)) ∧
    FloatResult (.cospi y g d a) y g d (fun c ln => cospiRes c.rm c.ftz (x c ln)) ∧
    FloatResult (.tanh y g d a) y g d (fun c ln => tanhRes c.rm c.ftz (x c ln))

/-- An integer of a value: rounded in the immediate's mode, saturated to `lo … hi`, as a word (R193). -/
def Sys2Proof.Machine.toWord (c : Ctx) (m : BitVec 3) (lo hi : Int) (x : FV) : Res :=
  let r := toInteger (rmode m.toNat c.wv.fctrl) lo hi x
  ((BitVec.ofInt 32 r.1).toNat, r.2)

/-- A value rounded to a format in the immediate's mode, flushed under FTZ (R191, R195, R226). -/
def Sys2Proof.Machine.toFloat (f : Fmt) (c : Ctx) (m : BitVec 3) (sat : BitVec 1) (x : FV) : Res :=
  f.flush c.ftz (f.encode (rmode m.toNat c.wv.fctrl) (sat = 1) x)

/-- Four registers of a run narrowed and packed, lowest element first (R235). -/
def Sys2Proof.Machine.narrow (f : Fmt) (c : Ctx) (m : BitVec 3) (sat : BitVec 1) (a : Field) (ln k : Nat) : Res :=
  f.encode (rmode m.toNat c.wv.fctrl) (sat = 1) (Fmt.f32.value (c.src a ln k).toNat)

/-- A CVTB result. -/
def Sys2Proof.Machine.NarrowResult (f : Fmt) (k : Bool → Field → Field → BitVec 1 → BitVec 3 → Instr) : Prop :=
  ∀ y d a sat m, FloatResult (k y d a sat m) y false d fun c ln =>
    (((List.range 4).map fun k => (narrow f c m sat a ln k).1 * 2 ^ (f.width * k)).sum,
      (List.range 4).foldl (fun x k => x ||| (narrow f c m sat a ln k).2) 0)

/-- Element `k` of a narrow register in a wider format, exact (R235). -/
def Sys2Proof.Machine.widen (f t : Fmt) (x : Word) (k : Nat) : Res := t.encode .rne false (f.value (x.toNat / 2 ^ (f.width * k) % 2 ^ f.width))

/-- An XCVT result: four FP32 registers, or two registers of packed halves. -/
def Sys2Proof.Machine.WidenResult (f : Fmt) (k : Bool → Field → Field → BitVec 2 → Instr) : Prop :=
  ∀ y d a (fmt : BitVec 2),
    let t : Fmt := if fmt = 0 then .f32 else if fmt = 1 then .f16 else .bf16
    Result (k y d a fmt) y false d (if fmt = 0 then 4 else 2)
      (fun c ln j => BitVec.ofNat 32 (if fmt = 0 then (widen f t (c.src a ln 0) j).1
        else (widen f t (c.src a ln 0) (2 * j)).1 + 65536 * (widen f t (c.src a ln 0) (2 * j + 1)).1))
      (fun c => (activeLanes c).foldl (fun x ln =>
        (List.range 4).foldl (fun x k => x ||| (widen f t (c.src a ln 0) k).2) x) 0)

/-- R234 and R235: FCVT and NCVT. -/
def Obligations.ConversionResults : Prop :=
  (∀ (y g : Bool) (d a : Field) (sat : BitVec 1) (m : BitVec 3),
    let x (c : Ctx) (ln : Nat) : Word := c.opnd g a ln 0
    FloatResult (.cvtF32S32 y g d a sat m) y g d (fun c ln => toFloat .f32 c m sat (ofInteger (x c ln).toInt)) ∧
    FloatResult (.cvtF32N32 y g d a sat m) y g d (fun c ln => toFloat .f32 c m sat (ofInteger (x c ln).toNat)) ∧
    FloatResult (.cvtS32F32 y g d a sat m) y g d (fun c ln => toWord c m (-2 ^ 31) (2 ^ 31 - 1) (c.f32 g a ln)) ∧
    FloatResult (.cvtN32F32 y g d a sat m) y g d (fun c ln => toWord c m 0 (2 ^ 32 - 1) (c.f32 g a ln)) ∧
    FloatResultD (.cvtF64F32 y g d a sat m) y g d (fun c ln => toFloat .f64 c m sat (c.f32 g a ln)) ∧
    FloatResult (.cvtF32F64 y g d a sat m) y g d (fun c ln => toFloat .f32 c m sat (c.f64 g a ln)) ∧
    FloatResultD (.cvtF64S32 y g d a sat m) y g d (fun c ln => toFloat .f64 c m sat (ofInteger (x c ln).toInt)) ∧
    FloatResult (.cvtS32F64 y g d a sat m) y g d (fun c ln => toWord c m (-2 ^ 31) (2 ^ 31 - 1) (c.f64 g a ln))) ∧
  NarrowResult .e4m3 .cvtbE4m3 ∧ NarrowResult .e5m2 .cvtbE5m2 ∧ NarrowResult .e2m3 .cvtbE2m3 ∧
  NarrowResult .e3m2 .cvtbE3m2 ∧ NarrowResult .e2m1 .cvtbE2m1 ∧
  WidenResult .e4m3 .xcvtE4m3 ∧ WidenResult .e5m2 .xcvtE5m2 ∧ WidenResult .e2m1 .xcvtE2m1

/-- Packed and dot products, and float comparisons. That a DOT whose terms hold +∞ and −∞ beside a quiet NaN raises NV is the model's
reading (log entry 9). -/
def Obligations.PackedDotAndCompareResults : Prop := PackedAndDotResults ∧ FloatCompareResults

/-! ### What issuing leaves -/

/-- The word `i` is done: its body left `s`, and the path goes on after it and its literals (R27, R35, R44, R327, R337, R338,
R358). -/
def Sys2Proof.Machine.Ctx.leave (c : Ctx) (i : Instr) (y : Bool) (s : State) : State :=
  c.noteMemory (info i).cls (c.issued y (c.advance (info i).lits s))

/-- The same for a word whose body has set the path's position. -/
def Sys2Proof.Machine.Ctx.leaveAt (c : Ctx) (i : Instr) (y : Bool) (s : State) : State := c.noteMemory (info i).cls (c.issued y s)

/-- R27, R35, R44, R338, R358, and for a memory word R327: what a done word leaves of the state its body left. A memory word also
disarms a release, and ends the run of an earlier returning atomic, but not its own. -/
def Sys2Proof.Machine.LeaveFrame : Prop :=
  ∀ (i : Instr) (y : Bool) (s : State) (c : Ctx) (va : DWord), At s c →
    let next := (c.pa.pc + 4 * (1 + (info i).lits), (c.nextPos (info i).lits).2)
    ((info i).cls ≠ 2 → Moved s (c.leave i y s) c y next ∧ Moved s (c.leaveAt i y (c.goto va s)) c y (va, 0)) ∧
    ((info i).cls = 2 →
      ((c.leave i y s).wv c.b c.w).armed = none ∧ ((c.leave i y s).wv c.b c.w).lastAtom = none ∧
      Moved s ((c.leave i y s).modWv c.b c.w fun v => { v with armed := c.wv.armed, lastAtom := c.wv.lastAtom }) c y next ∧
      ∀ x, x ≠ c.wv.lastAtom →
        ((c.leave i y (s.modWv c.b c.w fun v => { v with lastAtom := x })).wv c.b c.w).lastAtom = x)

/-! ### Control flow (chapter 15) -/

/-- R348: BR takes its target where its condition holds of the issuing path, else the next header. -/
def Sys2Proof.Machine.BranchResults : Prop :=
  ∀ (y : Bool) (q : BitVec 3) (o : BitVec 18) (s : State) (c : Ctx), At s c →
    let Goes (i : Instr) (cond : Bool) : Prop := Passes c i →
      ∃ t, exec i s = .next t ∧
        Moved s t c y (if cond then c.pa.pc + 4 * o.signExtend 64 else c.pa.pc + 4, 0)
    Goes (.br y o) true ∧ Goes (.brQ y q o) (c.q q.toNat) ∧ Goes (.brNq y q o) (!c.q q.toNat) ∧
    Goes (.brZ y o) (decide (c.pa.exm = 0)) ∧ Goes (.brNz y o) (decide (c.pa.exm ≠ 0)) ∧
    Goes (.brFull y o) (decide (c.pa.exm = c.pa.full))

/-- The lanes of the issuing path that a per-lane transfer sends to `x`. -/
def Sys2Proof.Machine.sentTo (c : Ctx) (t : Nat → DWord) (x : DWord) : Word := maskOf fun ln => c.active ln && t ln == x

/-- What a per-lane transfer with targets `t` leaves of the wave's paths (R342, R351): the issuing path keeps its lowest
target's lanes and its inactive ones, each other target's lanes become a new path. -/
def Sys2Proof.Machine.Spread (s t : State) (c : Ctx) (y : Bool) (tgt : Nat → DWord) : Prop :=
  let targets := targetsOf tgt (activeLanes c)
  let free := freeEntries c.wv.paths
  let away := maskOf fun ln => c.active ln && decide (tgt ln ≠ targets.headD 0)
  WaveFrame s t c y ∧
  (t.wv c.b c.w).path c.p =
    { c.pa with
      pc := targets.headD (c.pa.pc + 4), cpos := 0, phase := 0, blocked := none
      full := c.pa.full &&& ~~~away, exm := c.pa.exm &&& ~~~away
      count := if c.pa.mode = .plain then c.pa.count else c.pa.count - 1 } ∧
  (∀ j, j + 1 < targets.length → (t.wv c.b c.w).path (free.getD j 0) =
    { st := .run, pc := targets.getD (j + 1) 0, full := sentTo c tgt (targets.getD (j + 1) 0)
      exm := sentTo c tgt (targets.getD (j + 1) 0), parent := some c.p }) ∧
  ∀ k, k ≠ c.p → (∀ j, j + 1 < targets.length → k ≠ free.getD j 0) → (t.wv c.b c.w).path k = c.wv.path k

/-- R350 and R351: JMP, RET and JMPI. -/
def Sys2Proof.Machine.JumpResults : Prop :=
  ∀ (y : Bool) (a : Field) (r : BitVec 4) (s : State) (c : Ctx), At s c →
    (Passes c (.jmp y r) → ∃ t, exec (.jmp y r) s = .next t ∧ Moved s t c y (c.bc64 r, 0)) ∧
    (c.pa.st = .run → c.wv.paths.length = 8 →
      let tgt : Nat → DWord := fun ln => c.opnd64 false a ln
      c.manyTargets tgt = false → (targetsOf tgt (activeLanes c)).length ≤ (freeEntries c.wv.paths).length + 1 →
      (Passes c (.ret y a) → ∃ t, exec (.ret y a) s = .next t ∧ Spread s t c y tgt ∧ SameV t c ∧ SameQ t c) ∧
      (Passes c (.jmpi y a) → ∃ t, exec (.jmpi y a) s = .next t ∧ Spread s t c y tgt ∧ SameV t c ∧ SameQ t c))

/-- The entry words of some targets, read one after another from `s`, allow a call (R352): each target is canonical and a
multiple of 4, `b` is the largest BUDGET, and the reads leave `s1`. -/
def Sys2Proof.Machine.Entries (c : Ctx) : State → List DWord → Nat → State → Prop
  | s, [], b, s1 => b = 0 ∧ s1 = s
  | s, t :: ts, b, s1 => t.toNat % 4 = 0 ∧ canonical t = true ∧ ∃ (n m : Nat) (s2 : State), 1 ≤ n ∧ n ≤ 112 ∧
      c.fetch s (t - 4) = .ok (BitVec.ofNat 32 (0xED * 2 ^ 24 + n)) s2 ∧ Entries c s2 ts m s1 ∧ b = max n m

/-- A call of BUDGET `b` needs no more than the wave has, or gets the extended lock (R150, R352). -/
def Sys2Proof.Machine.Granted (c : Ctx) (b : Nat) (s1 s2 : State) : Prop :=
  (b ≤ c.B ∧ s2 = s1) ∨
  (c.B < b ∧ b ≤ c.B + c.X ∧
    ((c.holdsLock = true ∧ s2 = s1) ∨
     (SMap.get none c.blk.xlock (c.w / 2) = none ∧ c.blk.xwait = [] ∧
       s2 = s1.modBlk c.b fun k => { k with xlock := SMap.put none k.xlock (c.w / 2) (some c.w) })))

/-- R349 to R352: CALL, whatever its EXM, and CALLI with one target or several, where the entry words allow the call and the
registers it needs are the wave's or the lock grants them. The link is the next header's address, its high word zero. A call
that needs the lock while the pair's other wave has it waits under XREG. -/
def Sys2Proof.Machine.CallResults : Prop :=
  ∀ (y : Bool) (d a : Field) (r : BitVec 4) (s s1 : State) (c : Ctx) (n : Nat), At s c →
    let tgt : Nat → DWord := fun ln => c.opnd64 false a ln
    let targets := targetsOf tgt (activeLanes c)
    let Linked (u : State) (t : State) : Prop :=
      let e := u.ctxAt c.b c.w c.p
      WroteV t e d.toNat 2 (fun _ j => if j = 0 then (c.pa.pc + 4).setWidth 32 else 0) ∧ SameQ t e
    let Waits (i : Instr) : Prop :=
      exec i s = .next ((s1.modBlk c.b fun k => { k with xwait := [(c.w / 2, c.w)] }).modPath c.b c.w c.p fun p =>
        { p with blocked := some .xreg, again := false })
    (∀ u, Passes c (.call y d r) → Entries c s [c.bc64 r] n s1 → Granted c n s1 u →
      ∃ t, exec (.call y d r) s = .next t ∧ Frame u t (u.ctxAt c.b c.w c.p) y (c.bc64 r, 0) ∧ Linked u t ∧
        SameG t (u.ctxAt c.b c.w c.p)) ∧
    (∀ u, Passes c (.calli y d a) → activeLanes c ≠ [] → c.manyTargets tgt = false → c.pa.st = .run → c.wv.paths.length = 8 →
      targets.length ≤ (freeEntries c.wv.paths).length + 1 → Entries c s targets n s1 → Granted c n s1 u →
      ∃ t, exec (.calli y d a) s = .next t ∧ Spread u t (u.ctxAt c.b c.w c.p) y tgt ∧ Linked u t ∧
        (t.wv c.b c.w).g = c.wv.g) ∧
    (Passes c (.calli y d a) → activeLanes c = [] → c.manyTargets tgt = false →
      ∃ t, exec (.calli y d a) s = .next t ∧ Moved s t c y (c.pa.pc + 4, 0)) ∧
    (∀ h, c.B < n → n ≤ c.B + c.X → SMap.get none c.blk.xlock (c.w / 2) = some h → h ≠ c.w → c.blk.xwait = [] →
      (Passes c (.call y d r) → Entries c s [c.bc64 r] n s1 → Waits (.call y d r)) ∧
      (Passes c (.calli y d a) → activeLanes c ≠ [] → c.manyTargets tgt = false → Entries c s targets n s1 → Waits (.calli y d a)))

/-- R352: a CALL, or a CALLI whose active lanes have one target: a target that is not a multiple of 4 takes CLAUSE, one that is not
canonical PERM, one whose entry word is not one CLAUSE, and one whose BUDGET is more than the wave's registers BUDGET. -/
def Sys2Proof.Machine.CallTraps : Prop :=
  ∀ (y : Bool) (d a : Field) (r : BitVec 4) (s : State) (c : Ctx) (x : DWord), At s c →
    ∀ i, (i = .call y d r ∧ c.bc64 r = x ∨
        i = .calli y d a ∧ activeLanes c ≠ [] ∧ ∀ ln ∈ activeLanes c, c.opnd64 false a ln = x) → Passes c i →
    (x.toNat % 4 ≠ 0 →
      exec i s = .next (s.takeTrap c.b c.w c.p (c.trap 0x02 (some c.pa.exm) x))) ∧
    (x.toNat % 4 = 0 → canonical x = false →
      exec i s = .next (s.takeTrap c.b c.w c.p (c.trap 0x11 (some c.pa.exm) x))) ∧
    ∀ w s1, x.toNat % 4 = 0 → canonical x = true → c.fetch s (x - 4) = .ok w s1 →
      ((fld w 31 24 ≠ 0xED ∨ fld w 23 7 ≠ 0 ∨ fld w 6 0 = 0 ∨ 112 < fld w 6 0) →
        exec i s = .next (s.takeTrap c.b c.w c.p (c.trap 0x02 (some c.pa.exm) (x - 4)))) ∧
      (fld w 31 24 = 0xED → fld w 23 7 = 0 → fld w 6 0 ≤ 112 → c.B + c.X < fld w 6 0 →
        exec i s = .next (s.takeTrap c.b c.w c.p (c.trap 0x06)))

/-- R342, R354: PSPLIT gives the named active lanes a new path at its target. -/
def Sys2Proof.Machine.SplitResults : Prop :=
  ∀ (y : Bool) (d : Field) (im : BitVec 14) (s : State) (c : Ctx), At s c → Passes c (.psplit y d im) →
    c.inHandler = false → c.pa.st = .run → c.wv.paths.length = 8 →
    let m := c.g d.toNat &&& c.pa.exm
    let target := c.pa.pc + 4 * im.signExtend 64
    (m = 0 → ∃ t, exec (.psplit y d im) s = .next t ∧ Moved s t c y (c.pa.pc + 4, 0)) ∧
    (m ≠ 0 → m = c.pa.full → ∃ t, exec (.psplit y d im) s = .next t ∧ Moved s t c y (target, 0)) ∧
    (m ≠ 0 → m ≠ c.pa.full → ∀ e rest, freeEntries c.wv.paths = e :: rest →
      ∃ t, exec (.psplit y d im) s = .next t ∧ WaveFrame s t c y ∧ SameV t c ∧ SameQ t c ∧
        (t.wv c.b c.w).path e = { st := .run, pc := target, full := m, exm := m, parent := some c.p } ∧
        (t.wv c.b c.w).path c.p =
          { c.pa with
            pc := c.pa.pc + 4, cpos := 0, phase := 0, blocked := none, full := c.pa.full &&& ~~~m, exm := c.pa.exm &&& ~~~m
            count := if c.pa.mode = .plain then c.pa.count else c.pa.count - 1 } ∧
        ∀ k, k ≠ e → k ≠ c.p → (t.wv c.b c.w).path k = c.wv.path k) ∧
    (m ≠ 0 → m ≠ c.pa.full → freeEntries c.wv.paths = [] →
      exec (.psplit y d im) s =
        .next (s.modPath c.b c.w c.p fun p => { p with blocked := some .pair, again := false }))

/-- R344, R355 to R358: PJOIN, PYIELD, MELD, MELDE and PREN. -/
def Sys2Proof.Machine.PathWordResults : Prop :=
  ∀ (y : Bool) (d a b : Field) (pr : BitVec 2) (n : BitVec 6) (e : BitVec 4) (sc : BitVec 1) (s : State) (c : Ctx), At s c →
    (Passes c (.pjoin y) →
      exec (.pjoin y) s = .next (c.leaveAt (.pjoin y) y (((s.modWv c.b c.w fun v =>
        { v with paths := resolveJoins (v.paths.modify c.p fun p =>
            { p with pc := c.pa.pc + 4, cpos := 0, st := .wait, waitOn := .join, join := c.pa.pc }) }).checkBars c.b).checkCbars c.b))) ∧
    (Passes c (.pyield y) →
      exec (.pyield y) s = .next (c.leave (.pyield y) y (s.modPath c.b c.w c.p fun p => { p with ymark := true }))) ∧
    (Passes c (.meld y d pr n) → c.inHandler = false → c.pa.cpos = fld c.pa.hdr 26 23 → c.wv.pairInUse pr.toNat = false →
      exec (.meld y d pr n) s = .next (c.leaveAt (.meld y d pr n) y (s.modPath c.b c.w c.p fun p =>
        { p with pc := c.pa.pc + 4, cpos := 0, side := c.g d.toNat &&& p.full, mode := .melded, pair := pr.toNat
                 count := n.toNat }))) ∧
    (Passes c (.melde y) →
      exec (.melde y) s = .next (c.leave (.melde y) y (s.modPath c.b c.w c.p fun p =>
        { p with mode := .plain, pair := 0, count := 0, side := 0 }))) ∧
    (Passes c (.pren y a e pr sc b) → c.wv.pairInUse pr.toNat = false → a.toNat < c.B + c.X → b.toNat < c.B + c.X →
      exec (.pren y a e pr sc b) s = .next (c.leave (.pren y a e pr sc b) y (s.modWv c.b c.w fun v =>
        { v with rename := SMap.put (0, 0) v.rename (32 * pr.toNat + 16 * sc.toNat + e.toNat) (a.toNat, b.toNat) })))

/-- A live path that has `i` for its parent. -/
def Sys2Proof.Machine.Child (ps : List Path) (i j : Nat) : Prop := j < 8 ∧ (ps.getD j default).live = true ∧ (ps.getD j default).parent = some i

/-- R344: what `resolveJoins` leaves of a wave's paths. A path that still waits at a join has a live child that does not, or no
live child and a parent that does not. A path that was at no join keeps all but its parent. One that was at a join waits
there, has merged, or runs on from its own PC with no parent. No lane is lost, and none appears. -/
def Sys2Proof.Machine.JoinResults : Prop :=
  ∀ (ps : List Path), ps.length = 8 → (∀ i, (ps.getD i default).parent ≠ some i) →
    let rs := resolveJoins ps
    (∀ i, (rs.getD i default).atJoin = true →
      (∃ j, Child rs i j ∧ (rs.getD j default).atJoin = false) ∨
      ((∀ j, ¬ Child rs i j) ∧ ∃ k, (rs.getD i default).parent = some k ∧ (rs.getD k default).atJoin = false)) ∧
    (∀ i, (ps.getD i default).atJoin = false →
      rs.getD i default = { ps.getD i default with parent := (rs.getD i default).parent }) ∧
    (∀ i, (ps.getD i default).atJoin = true →
      (rs.getD i default).st = .free ∨
      ((rs.getD i default).pc = (ps.getD i default).pc ∧
        ((rs.getD i default).atJoin = true ∨ ((rs.getD i default).st = .run ∧ (rs.getD i default).parent = none)))) ∧
    (∀ ln, (∃ i, (rs.getD i default).live = true ∧ bitAt (rs.getD i default).full ln = true) ↔
      ∃ i, (ps.getD i default).live = true ∧ bitAt (ps.getD i default).full ln = true)

/-- Branches and jumps. -/
def Obligations.BranchAndJumpResults : Prop := BranchResults ∧ JumpResults

/-- Calls and returns, and where they trap. That the entry words of several targets are read in rising order of the targets is the model's
reading (log entry 14), as is that a CALL with EXM 0 calls with an empty mask (log entry 69). -/
def Obligations.CallAndReturnResults : Prop := CallResults ∧ CallTraps

/-- Splitting, melding, joining and leaving paths. -/
def Obligations.PathResults : Prop := SplitResults ∧ PathWordResults ∧ JoinResults

/-! ### Traps, SYS and special registers (chapter 17) -/

/-- R394: taking a trap with H = 0 and a handler. SUP of TINFO is as before. -/
def Sys2Proof.Machine.TrapEntry : Prop :=
  ∀ (s : State) (b w p : Nat) (tr : TrapInfo) (m : Word),
    let v := s.wv b w
    let handler := recHandler (s.launchOf b).record
    b < s.blocks.length → w < (s.blk b).waves.length → p < 8 → p < v.paths.length → v.tinfo.getLsbD 31 = false →
    handler ≠ 0 → tr.mask = some m → tr.code < 256 → tr.sub < 2 ^ 24 → tr.cpos < 16 →
    let u := (s.takeTrap b w p tr).wv b w
    (s.takeTrap b w p tr) = s.modWv b w (fun _ => u) ∧
    u.tcode.toNat = tr.sub * 256 + tr.code ∧ u.tpc = tr.pc ∧ u.tmask = m ∧ u.tva = tr.va ∧ u.thdr = tr.hdr ∧
    u.tinfo.toNat % 8 = p ∧ u.tinfo.toNat / 2 ^ 16 % 16 = tr.cpos ∧
    u.tinfo.toNat / 2 ^ 20 % 4 = (v.path p).mode.num ∧ u.tinfo.getLsbD 31 = true ∧
    u.tinfo.getLsbD 30 = v.tinfo.getLsbD 30 ∧ u.texm = (v.path p).exm ∧
    u.fflags = (if tr.code = 0x20 then v.fflags &&& ~~~0x1F00#32 else v.fflags) ∧
    (u.path p).mode = .plain ∧ (u.path p).exm = (v.path p).full ∧ (u.path p).full = (v.path p).full ∧
    (u.path p).pc = handler ∧ (u.path p).cpos = 0 ∧ (u.path p).st = .run ∧
    (∀ k, k ≠ p → u.path k = v.path k) ∧
    u.g = v.g ∧ u.q = v.q ∧ u.fctrl = v.fctrl ∧ u.ops = v.ops ∧ u.rename = v.rename ∧
    u.lc = v.lc ∧ u.sc = v.sc ∧ u.cc = v.cc ∧ u.mc = v.mc

/-- R395, R343: with H = 1, or HANDLER = 0, a trap ends the wave: every path is DONE, the wave is DONE, and the exit record
holds the trap's code, subcause, TPC and TVA. No memory changes. -/
def Sys2Proof.Machine.TrapEndsWave : Prop :=
  ∀ (s : State) (b w p : Nat) (tr : TrapInfo), b < s.blocks.length → w < (s.blk b).waves.length →
    ((s.wv b w).tinfo.getLsbD 31 = true ∨ recHandler (s.launchOf b).record = 0) →
    let t := s.takeTrap b w p tr
    (∀ x ∈ (t.wv b w).paths, x.live = false) ∧ (t.wv b w).st = .done ∧
    (t.wv b w).ended = some ⟨tr.code, tr.sub, tr.pc, tr.va, p⟩ ∧ t.mem = s.mem ∧
    (t.wv b w).g = (s.wv b w).g ∧ (t.wv b w).q = (s.wv b w).q

/-- R343, R394, R395: taking a trap. -/
def Obligations.TrapTaking : Prop := TrapEntry ∧ TrapEndsWave

/-- R397 to R400 and R150: SYS. TRAP and BRK take their traps at the next header; EXIT ends its path; TRET returns. -/
def Obligations.SystemWordResults : Prop :=
  ∀ (y : Bool) (n : BitVec 14) (m m2 : BitVec 5) (s : State) (c : Ctx), At s c →
    let soft (code : Nat) : TrapInfo := { code, pc := c.pa.pc + 4, mask := some c.pa.exm, va := n.setWidth 64 }
    (Passes c (.trap y n) →
      exec (.trap y n) s = .next (c.leaveAt (.trap y n) y (s.takeTrap c.b c.w c.p (soft 0x31)))) ∧
    (Passes c (.brk y n) → s.debuggers c.b = [] →
      exec (.brk y n) s = .next (c.leaveAt (.brk y n) y (s.takeTrap c.b c.w c.p (soft 0x30)))) ∧
    (Passes c (.tfence y) → c.wv.fflags.toNat / 2 ^ 8 % 2 ^ 5 = 0 →
      ∃ t, exec (.tfence y) s = .next t ∧ Moved s t c y (c.nextPos 0)) ∧
    (Passes c (.tfence y) → c.wv.fflags.toNat / 2 ^ 8 % 2 ^ 5 ≠ 0 →
      exec (.tfence y) s =
        .next (s.takeTrap c.b c.w c.p (c.trap 0x20 (some c.pa.exm) (c.wv.fflags.setWidth 64)))) ∧
    (Passes c (.exit y) → c.inHandler = false →
      exec (.exit y) s = .next (c.leaveAt (.exit y) y (((s.modWv c.b c.w fun v =>
        { v with armed := none, paths := donePath v.paths c.p }).waveEnd c.b c.w |>.checkBars c.b).checkCbars c.b))) ∧
    (Passes c (.exit y) → c.inHandler = true →
      exec (.exit y) s = .next (c.leaveAt (.exit y) y (s.endWave c.b c.w (c.wv.tinfo.toNat % 8)
        { code := c.wv.tcode.toNat % 256, sub := c.wv.tcode.toNat / 256 % 256, pc := c.wv.tpc, va := c.wv.tva }))) ∧
    (Passes c (.tclr y m m2) → ∃ t, exec (.tclr y m m2) s = .next t ∧ Frame s t c y (c.nextPos 0) ∧ SameV t c ∧ SameG t c ∧
      SameQ t c ∧ ∀ k, k < 32 → bitAt (t.wv c.b c.w).fflags k =
        (bitAt c.wv.fflags k && !(if k < 5 then m2.getLsbD k else 8 ≤ k && k < 13 && m.getLsbD (k - 8)))) ∧
    (Passes c (.tret y) → c.inHandler = true →
      let cpos := c.wv.tinfo.toNat / 2 ^ 16 % 16
      (cpos = 0 ∨ (fld c.wv.thdr 31 27 = 0b11110 ∧ cpos ≤ fld c.wv.thdr 26 23)) →
      exec (.tret y) s = .next (c.leaveAt (.tret y) y ((s.modWv c.b c.w fun v =>
        { v with
          tinfo := v.tinfo &&& ~~~0x80000000#32
          paths := v.paths.modify (v.tinfo.toNat % 8) fun x =>
            { x with
              exm := v.texm &&& x.full, pc := v.tpc, cpos, hdr := c.wv.thdr, words := [], phase := 0, blocked := none
              mode := ([.plain, .melded, .sideA, .sideB].getD (v.tinfo.toNat / 2 ^ 20 % 4) .plain) } }).takePending c.b c.w))) ∧
    (Passes c (.xregAcq y) → c.X ≠ 0 → c.holdsLock = true →
      ∃ t, exec (.xregAcq y) s = .next t ∧ Moved s t c y (c.nextPos 0)) ∧
    (Passes c (.xregAcq y) → c.X ≠ 0 → SMap.get none c.blk.xlock (c.w / 2) = none → c.blk.xwait = [] →
      exec (.xregAcq y) s = .next (c.leave (.xregAcq y) y
        (s.modBlk c.b fun k => { k with xlock := SMap.put none k.xlock (c.w / 2) (some c.w) }))) ∧
    (Passes c (.xregRel y) → c.holdsLock = true → c.wv.lc = 0 → c.wv.cc = 0 → c.wv.mc = 0 →
      exec (.xregRel y) s = .next (c.leave (.xregRel y) y
        (s.modBlk c.b fun k => { k with xlock := SMap.put none k.xlock (c.w / 2) none })))

/-- What SRD reads, by the register's number (R390, R392, R411). -/
def Sys2Proof.Machine.readable (c : Ctx) (s : State) : List (Nat × Word) :=
  let v := c.wv
  [(0x01, v.clkLatch), (0x02, BitVec.ofNat 32 c.w), (0x03, BitVec.ofNat 32 c.blk.idx), (0x04, BitVec.ofNat 32 c.blk.rank),
   (0x05, BitVec.ofNat 32 c.blk.core), (0x06, BitVec.ofNat 32 (c.blk.core / 8)), (0x07, BitVec.ofNat 32 c.world),
   (0x08, v.fflags), (0x09, v.fctrl), (0x0A, v.tcode), (0x0B, v.tpc.setWidth 32), (0x0C, (v.tpc >>> 32).setWidth 32),
   (0x0D, v.tmask), (0x0E, v.tva.setWidth 32), (0x0F, (v.tva >>> 32).setWidth 32), (0x20, v.batchDone),
   (0x21, BitVec.ofNat 32 (16 * c.pa.mode.num + c.p)), (0x22, v.mxskip), (0x23, v.quorum),
   (0x24, BitVec.ofNat 32 ((s.slotEnd - s.clk) / 3600)), (0x25, v.cticket), (0x27, v.thdr), (0x28, v.texm),
   (0x29, v.mextlo), (0x2A, v.mexthi), (0x2B, v.mext)] ++ (List.range 16).map fun k => (0x10 + k, v.stall.getD k 0)

/-- What SWR changes of its wave, by the register's number, and the bits it may not set (R194, R196, R390, R391). -/
def Sys2Proof.Machine.writable (x : Word) : List (Nat × Word × (Wave → Wave)) :=
  [(0x08, 0xFFFFE0E0, fun v => { v with fflags := x }), (0x09, 0xFFFFE0F8, fun v => { v with fctrl := x }),
   (0x0A, 0, fun v => { v with tcode := x }), (0x0B, 0, fun v => { v with tpc := v.tpc.extractLsb' 32 32 ++ x }),
   (0x0C, 0, fun v => { v with tpc := x ++ v.tpc.extractLsb' 0 32 }), (0x0D, 0, fun v => { v with tmask := x }),
   (0x0E, 0, fun v => { v with tva := v.tva.extractLsb' 32 32 ++ x }),
   (0x0F, 0, fun v => { v with tva := x ++ v.tva.extractLsb' 0 32 }), (0x22, 0, fun v => { v with mxskip := x }),
   (0x25, 0, fun v => { v with cticket := x }), (0x27, 0, fun v => { v with thdr := x }),
   (0x26, 0x3FC0FFF8, fun v => { v with tinfo := (v.tinfo &&& 0xC0000007) ||| (x &&& 0x003F0000) }),
   (0x28, 0, fun v => { v with texm := x }), (0x29, 0, fun v => { v with mextlo := x }),
   (0x2A, 0, fun v => { v with mexthi := x })]

/-- R390 to R393, R401, R402: SREG. A value with a bit it may not have raises RANGE; MEXT asks and waits, and goes on once
answered. -/
def Obligations.SpecialRegisterResults : Prop :=
  ∀ (y g : Bool) (d : Field) (im : BitVec 8) (s : State) (c : Ctx), At s c →
    let x := if g then c.g d.toNat else c.g (d.toNat - 0x70)
    let va : DWord := c.wv.mexthi ++ c.wv.mextlo
    (Passes c (.srd y g d im) → ∀ e ∈ readable c s, im.toNat = e.1 →
      ∃ t, exec (.srd y g d im) s = .next t ∧ Done s t c y g d 1 0 0 fun _ _ => e.2) ∧
    (Passes c (.srd y g d 0x26) → ∃ t, exec (.srd y g d 0x26) s = .next t ∧ Done s t c y g d 1 0 0 fun _ _ =>
      maskOf fun k => if k = 30 then c.smode else bitAt c.wv.tinfo k) ∧
    (Passes c (.clkloRead y g d) →
      let s' := s.modWv c.b c.w fun v => { v with clkLatch := BitVec.ofNat 32 (s.clk / 2 ^ 32) }
      ∃ t, exec (.clkloRead y g d) s = .next t ∧
        Done s' t (s'.ctxAt c.b c.w c.p) y g d 1 0 0 fun _ _ => BitVec.ofNat 32 s.clk) ∧
    (Passes c (.srdl y g d im) → ∃ t, exec (.srdl y g d im) s = .next t ∧ Done s t c y g d 2 0 0 fun _ j =>
      word64 (if im = 0 then BitVec.ofNat 64 s.clk else if im = 0x0B then c.wv.tpc else c.wv.tva) j) ∧
    (Passes c (.swr y g d im) → ∀ e ∈ writable x, im.toNat = e.1 →
      exec (.swr y g d im) s =
        if x &&& e.2.1 = 0 then .next (c.leave (.swr y g d im) y (s.modWv c.b c.w e.2.2))
        else .next (s.takeTrap c.b c.w c.p (c.trap 0x12 none (x.setWidth 64)))) ∧
    (Passes c (.mextRequest y g d) → c.pa.phase = 0 → x = 1 → va.toNat % 64 = 0 → ∀ bs s1, c.readVA s va 64 = .ok (bs, s1) →
      exec (.mextRequest y g d) s = .next ((((s1.modWorld c.world fun w =>
        { w with mextq := w.mextq ++ [(c.b, c.w, some (BitVec.ofNat 512 (leNat bs)))] }).modPath c.b c.w c.p
          fun p => { p with phase := 1 }).modWv c.b c.w fun v => { v with excl := some c.p }).modPath c.b c.w c.p
          fun p => { p with blocked := some .park, again := false })) ∧
    (Passes c (.mextRequest y g d) → c.pa.phase = 2 →
      ∃ t, exec (.mextRequest y g d) s = .next t ∧ Moved s t c y (c.nextPos 0))

/-! ### Fences, barriers and stage rings (chapters 14 and 16) -/

/-- The instruction is held at its word: it issues nothing, and its path waits for `r` (R25, R337). -/
def Sys2Proof.Machine.held (c : Ctx) (r : Stall) (s : State) : State :=
  s.modPath c.b c.w c.p fun p => { p with blocked := some r, again := false }

/-- A fence held: the whole wave waits with it (R326). -/
def Sys2Proof.Machine.fenceHeld (c : Ctx) (r : Stall) (s : State) : State :=
  held c r (s.modWv c.b c.w fun v => { v with excl := some c.p })

/-- Rel's effects and Acq's (R326): the release is armed; the core's L1 is emptied. At system scope the L2 lines of the world
that lie in host and peer memory are written back first, and for Acq invalidated. -/
def Sys2Proof.Machine.relState (c : Ctx) (sc : Nat) (s : State) : State :=
  (if sc = 3 then s.systemLines c.world false else s).modWv c.b c.w fun v => { v with armed := some sc }
def Sys2Proof.Machine.acqState (c : Ctx) (sc : Nat) (s : State) : State :=
  (if sc = 3 then s.systemLines c.world true else s).modCore c.blk.core fun k => { k with l1 := [] }

/-- R326: FENCE at every scope, outside watch mode. Rel waits for SC, deferred stores, TSTGs and the wave's earlier reads (the
last of these is the model's reading, log entry 69), Acq for LC; the sequentially consistent fence takes a place in its
ordering point's order between them, once. -/
def Sys2Proof.Machine.FenceResults : Prop :=
  ∀ (y : Bool) (sc : BitVec 2) (s : State) (c : Ctx), At s c → recWatch c.lr = false →
    let k := sc.toNat
    let closed (s : State) : State := s.modWv c.b c.w fun v => { v with lastAtom := none }
    let rel := c.wv.sc = 0 ∧ c.wv.r75 = true ∧ c.wv.tstgPending = false ∧ c.wv.readsLeft = false
    let acq := c.wv.lc = 0
    (Passes c (.fenceAcq y sc) →
      (acq → exec (.fenceAcq y sc) s = .next (c.leave (.fenceAcq y sc) y (closed (acqState c k s)))) ∧
      (¬acq → exec (.fenceAcq y sc) s = .next (fenceHeld c .waitLd s))) ∧
    (Passes c (.fenceRel y sc) →
      (rel → exec (.fenceRel y sc) s = .next (c.leave (.fenceRel y sc) y (closed (relState c k s)))) ∧
      (¬rel → exec (.fenceRel y sc) s = .next (fenceHeld c .waitSt s))) ∧
    (Passes c (.fenceAr y sc) →
      (rel → acq → exec (.fenceAr y sc) s = .next (c.leave (.fenceAr y sc) y (closed (acqState c k (relState c k s))))) ∧
      (rel → ¬acq → exec (.fenceAr y sc) s = .next (fenceHeld c .waitLd (relState c k s))) ∧
      (¬rel → exec (.fenceAr y sc) s = .next (fenceHeld c .waitSt s))) ∧
    (Passes c (.fenceSc y sc) → c.pa.phase = 0 →
      (rel → ∃ s1,
        (if 2 ≤ k then s1 = (relState c k s).modWorld c.world fun w => { w with scPlace := w.scPlace + 1 }
         else s1 = { relState c k s with scPlaces := s1.scPlaces } ∧
           ∀ j, SMap.get 0 s1.scPlaces j = SMap.get 0 s.scPlaces j +
             if j = (if k = 0 then c.blk.core else 256 + c.blk.core / 8) then 1 else 0) ∧
        let s2 := s1.modPath c.b c.w c.p fun p => { p with phase := 1 }
        (acq → exec (.fenceSc y sc) s = .next (c.leave (.fenceSc y sc) y (closed (acqState c k s2)))) ∧
        (¬acq → exec (.fenceSc y sc) s = .next (fenceHeld c .waitLd s2))) ∧
      (¬rel → exec (.fenceSc y sc) s = .next (fenceHeld c .waitSt s))) ∧
    (Passes c (.fenceSc y sc) → c.pa.phase ≠ 0 →
      (acq → exec (.fenceSc y sc) s = .next (c.leave (.fenceSc y sc) y (closed (acqState c k s)))) ∧
      (¬acq → exec (.fenceSc y sc) s = .next (fenceHeld c .waitLd s)))

/-- R329, R334: YIELD, SLEEP and WATCH.PHASE, and the end of a sleep. -/
def Obligations.YieldSleepWatchResults : Prop :=
  (∀ (y : Bool) (n : BitVec 14) (s : State) (c : Ctx), At s c →
    (Passes c (.yield_ y) → exec (.yield_ y) s = .next (c.leave (.yield_ y) y (s.modWv c.b c.w fun v =>
      { v with yieldUntil := some (s.clk + 16), lastAtom := none }))) ∧
    (Passes c (.sleep y n) → exec (.sleep y n) s = .next (c.leave (.sleep y n) y (s.modWv c.b c.w fun v =>
      { v with sleepUntil := some (s.clk + 64 * n.toNat), lastAtom := none }))) ∧
    (Passes c (.watchPhase y) → exec (.watchPhase y) s = .next (c.leave (.watchPhase y) y
      ((s.modLaunch c.blk.launch fun l => { l with watch := l.watch.filter fun e => e.2.1 != c.watchId }).modWv c.b c.w
        fun v => { v with lastAtom := none })))) ∧
  ∀ (b w t : Nat) (s : State), (s.wv b w).sleepUntil = some t → t ≤ s.clk →
    exec (.sleepEnd b w) s = .next (s.modWv b w fun v => { v with sleepUntil := none })

/-- An arrival at generation `gen` of barrier `k`, replacing an earlier one at that barrier (R378, R379). -/
def Sys2Proof.Machine.arrive (k gen : Nat) (l : List (Nat × Nat)) : List (Nat × Nat) := (k, gen) :: l.filter fun e => e.1 != k

/-- R345, R378, R379, R381: BAR and CBAR where Rel and Acq have nothing to wait for, no arrival of the path is outstanding,
and for CBAR the cluster's ticket is the wave's. -/
def Sys2Proof.Machine.BarrierResults : Prop :=
  ∀ (y : Bool) (k : BitVec 4) (j : BitVec 3) (s : State) (c : Ctx), At s c → c.inHandler = false → c.wv.relReady = true →
    let gen := (c.blk.bars.getD k.toNat {}).gen
    let cl := s.clusters.getD c.blk.cluster {}
    let cgen := (cl.bars.getD j.toNat {}).gen
    let free := (c.blk.bars.getD k.toNat {}).arrived.contains c.w = false ∧ c.pa.barArr.contains (k.toNat, gen) = false
    let cfree := cl.live = true ∧ c.wv.cticket.toNat = cl.ticket ∧ (cl.bars.getD j.toNat {}).arrived.contains c.blk.rank = false ∧
      (cl.bars.getD j.toNat {}).waves.contains (c.blk.rank, c.w) = false ∧
      c.pa.cbarArr.contains (j.toNat, cgen) = false
    (Passes c (.barArr y k) → free →
      exec (.barArr y k) s = .next (c.leaveAt (.barArr y k) y (((c.advance 0 (relState c 0 s)).modPath c.b c.w c.p fun p =>
        { p with barArr := arrive k.toNat gen p.barArr }).checkBars c.b))) ∧
    (Passes c (.barSync y k) → free →
      exec (.barSync y k) s = .next (c.leaveAt (.barSync y k) y (((c.advance 0 (relState c 0 s)).modPath c.b c.w c.p fun p =>
        { p with barArr := arrive k.toNat gen p.barArr, st := .wait, waitOn := .bar k.toNat gen, join := c.pa.pc }).checkBars c.b))) ∧
    (Passes c (.barWait y k) → openArr c.pa.barArr k.toNat gen = true →
      exec (.barWait y k) s = .next (c.leaveAt (.barWait y k) y ((c.advance 0 s).modPath c.b c.w c.p fun p =>
        { p with st := .wait, waitOn := .bar k.toNat gen, join := c.pa.pc }))) ∧
    (Passes c (.barWait y k) → openArr c.pa.barArr k.toNat gen = false → recWatch c.lr = false →
      exec (.barWait y k) s = .next (c.leaveAt (.barWait y k) y ((c.advance 0 s).modPath c.b c.w c.p fun p =>
        { p with acq := some 0, barArr := p.barArr.filter fun e => e.1 != k.toNat }))) ∧
    (Passes c (.cbarArr y j) → cfree →
      exec (.cbarArr y j) s = .next (c.leave (.cbarArr y j) y (((relState c 1 s).modPath c.b c.w c.p fun p =>
        { p with cbarArr := arrive j.toNat cgen p.cbarArr }).checkCbars c.b))) ∧
    (Passes c (.cbarSync y j) → cfree → c.pa.phase = 0 →
      ∀ s1, s1 = ((relState c 1 s).modPath c.b c.w c.p fun p =>
        { p with cbarArr := arrive j.toNat cgen p.cbarArr }).checkCbars c.b →
      ((s1.clusters.getD c.blk.cluster {}).bars.getD j.toNat {}).gen = cgen →
      exec (.cbarSync y j) s = .next (held c .cbarrier (s1.modPath c.b c.w c.p fun p => { p with phase := 1 }))) ∧
    (∀ i, i = .cbarSync y j ∧ c.pa.phase = 1 ∨ i = .cbarWait y j → Passes c i → openArr c.pa.cbarArr j.toNat cgen = false →
      recWatch c.lr = false → c.wv.lc = 0 →
      exec i s = .next (c.leave i y ((acqState c 1 (s.modPath c.b c.w c.p fun p => { p with phase := 1 })).modPath c.b c.w c.p
        fun p => { p with cbarArr := p.cbarArr.filter fun e => e.1 != j.toNat })))

/-- A wave that is not DONE has arrived at generation `gen` through the arrivals `arr` of its paths: each live path that is
not WAIT at a join has issued one, and there is such a path (R345, R379). -/
def Sys2Proof.Machine.Arrived (arr : Path → List (Nat × Nat)) (v : Wave) (k gen : Nat) : Prop :=
  let mine (p : Path) : Prop := p ∈ v.paths ∧ p.live = true ∧ p.atJoin = false
  v.st ≠ .done ∧ (∃ p, mine p) ∧ ∀ p, mine p → (k, gen) ∈ arr p

/-- R378: what a check of block barrier `n` leaves. Its generation completes once every wave that is not DONE has arrived in
it, by now or before, and some wave has; then the next one opens and the waits at it end. Else the arrivals stand. -/
def Sys2Proof.Machine.BlockGenerations : Prop :=
  ∀ (k : Block) (n : Nat), n < k.bars.length →
    let br := k.bars.getD n {}
    let v (w : Nat) : Wave := k.waves.getD w default
    let here (w : Nat) : Prop := w ∈ br.arrived ∨ Arrived Path.barArr (v w) n br.gen
    let full := (∃ w, w < k.waves.length ∧ here w) ∧ ∀ w, w < k.waves.length → here w ∨ (v w).st = .done
    (full → checkBar k n =
      { k with bars := k.bars.set n { gen := br.gen + 1 }, waves := k.waves.map fun v => endBarWait v n br.gen }) ∧
    (¬ full → ∃ l, checkBar k n = { k with bars := k.bars.set n { br with arrived := l } } ∧
      ∀ w, w ∈ l ↔ w < k.waves.length ∧ here w)

/-- R345: the end of a wait at block barrier `n`. The paths that wait there or at a join merge into the lowest that waits
there, which runs on from where it stands after its Acq; a HELD path notes the end; every other path stays, but for its
parent. -/
def Sys2Proof.Machine.BarrierEnd : Prop :=
  ∀ (v : Wave) (n gen : Nat), v.paths.length = 8 →
    let waits (i : Nat) : Prop := (v.path i).st = .wait ∧ (v.path i).waitOn = .bar n gen
    let u := endBarWait v n gen
    (∀ t, t < 8 → waits t → (∀ i, i < t → ¬ waits i) →
      (u.path t).st = .run ∧ (u.path t).pc = (v.path t).pc ∧ (u.path t).waitOn = .none ∧ (u.path t).acq = some 0 ∧
      (∀ ln, (bitAt (u.path t).full ln = true ↔
          bitAt (v.path t).full ln = true ∨ ∃ i, ((v.path i).atJoin = true ∨ waits i) ∧ bitAt (v.path i).full ln = true) ∧
        (bitAt (u.path t).exm ln = true ↔
          bitAt (v.path t).exm ln = true ∨ ∃ i, ((v.path i).atJoin = true ∨ waits i) ∧ bitAt (v.path i).exm ln = true)) ∧
      (∀ i, i ≠ t → (v.path i).atJoin = true ∨ waits i → (u.path i).st = .free) ∧
      ∀ i, i ≠ t → (v.path i).atJoin = false → ¬ waits i → (v.path i).st ≠ .held → (v.path i).st ≠ .fault →
        u.path i = { v.path i with parent := (u.path i).parent }) ∧
    ((∀ i, ¬ waits i) → ∀ i, (v.path i).st ≠ .held → (v.path i).st ≠ .fault → u.path i = v.path i) ∧
    ∀ i, (v.path i).st = .held → (v.path i).hst = .wait → (v.path i).waitOn = .bar n gen →
      (u.path i).st = .held ∧ (u.path i).hst = .run ∧ (u.path i).waitOn = .none ∧ (u.path i).acq = some 0

/-- R379, R378: what a check of cluster barrier `n` leaves, whose members are the blocks of `cl`. A rank has arrived once each
wave of it that is not DONE has; nothing changes while no path of the cluster has issued an arrival. -/
def Sys2Proof.Machine.ClusterGenerations : Prop :=
  ∀ (s : State) (cl : Cluster) (n : Nat) (br : Barrier),
    let v (r w : Nat) : Wave := (s.blk (cl.members.getD r 0)).waves.getD w default
    let size (r : Nat) : Nat := (s.blk (cl.members.getD r 0)).waves.length
    let here (r w : Nat) : Prop := (r, w) ∈ br.waves ∨ Arrived Path.cbarArr (v r w) n br.gen
    let rank (r : Nat) : Prop := r ∈ br.arrived ∨ ∀ w, w < size r → (v r w).st = .done ∨ here r w
    let begun := (∃ r w, r < cl.members.length ∧ w < size r ∧ here r w) ∨ br.arrived ≠ [] ∨
      ∃ m ∈ cl.members, ∃ x ∈ (s.blk m).waves, ∃ p ∈ x.paths, p.live = true ∧ (n, br.gen) ∈ p.cbarArr
    let full := ∀ r, r < cl.members.length → rank r
    (¬ begun → checkCbar s cl n br = br) ∧
    (begun → full → checkCbar s cl n br = { gen := br.gen + 1 }) ∧
    (begun → ¬ full → ∃ l ws, checkCbar s cl n br = { br with arrived := l, waves := ws } ∧
      (∀ r, r ∈ l ↔ r < cl.members.length ∧ rank r) ∧
      ∀ r w, (r, w) ∈ ws ↔ r < cl.members.length ∧ w < size r ∧ here r w)

/-- R378, R379: each check is made for every barrier of the block, and of its cluster. -/
def Sys2Proof.Machine.BarrierChecks : Prop :=
  ∀ (s : State) (b : Nat), b < s.blocks.length →
    (s.checkBars b).blk b = (List.range 16).foldl checkBar (s.blk b) ∧
    (∀ x, x ≠ b → (s.checkBars b).blk x = s.blk x) ∧
    ((s.blk b).cluster < s.clusters.length → ∀ n, n < (s.clusters.getD (s.blk b).cluster {}).bars.length →
      let cl := s.clusters.getD (s.blk b).cluster {}
      (((s.checkCbars b).clusters.getD (s.blk b).cluster {}).bars.getD n {}) = checkCbar s cl n (cl.bars.getD n {}))

/-- The generations of block and cluster barriers. -/
def Sys2Proof.Machine.GenerationResults : Prop := BlockGenerations ∧ BarrierEnd ∧ ClusterGenerations ∧ BarrierChecks

/-- FENCE at block, cluster, device and system scope: release, acquire, both, and sequentially consistent. -/
def Obligations.AllFenceResults : Prop := FenceResults

/-- A stage-ring header at local address `h` that every ring instruction accepts (R376, R377), and what it holds. -/
def Sys2Proof.Machine.RingAt (c : Ctx) (s : State) (a : Field) (h : Nat) (r : StageRing) : Prop :=
  h = (c.g a.toNat).toNat ∧ h % 16 = 0 ∧ h + 16 ≤ c.sb ∧ r = stageRing ((s.blk c.b).sRead h 16) c.sb ∧ r.ok = true ∧
    c.wv.localLeft = none ∧ ∀ k, k < 4 → h / 4 + k ∉ (s.blk c.b).badWords

/-- R22, R325, R377: what comes before a ring instruction's effect at a header that is aligned and inside the scratchpad. It
waits for the wave's earlier accesses to the scratchpad; an uncorrectable error in the header is DATA at the lowest bad word
(the last-events entry names that word's address by the model's choice, log entry 69). -/
def Sys2Proof.Machine.RingHeader : Prop :=
  ∀ (y : Bool) (d a b : Field) (s : State) (c : Ctx) (h : Nat), At s c → h = (c.g a.toNat).toNat → h % 16 = 0 → h + 16 ≤ c.sb →
    ∀ i ∈ [Instr.rpush y a b, .rpop y d a, .rpeek y d a, .rclose y a], Passes c i →
      (∀ r, c.wv.localLeft = some r → exec i s = .next (held c r s)) ∧
      ∀ k, c.wv.localLeft = none → k < 4 → h / 4 + k ∈ (s.blk c.b).badWords → (∀ j, j < k → h / 4 + j ∉ (s.blk c.b).badWords) →
        exec i s = .next ((s.log 5 (some 0x14) (some c.blk.core) c.world (h + 4 * k)).takeTrap c.b c.w c.p
          { c.trap 0x14 none (BitVec.ofNat 64 (h + 4 * k)) with sub := 7 })

/-- R377: RPUSH stores its registers in the entry at TAIL and then raises TAIL; RPOP takes the entry at HEAD and raises HEAD,
and from a closed empty ring takes all ones; RPEEK reads the fill; RCLOSE sets CLOSED. -/
def Sys2Proof.Machine.StageRingResults : Prop :=
  ∀ (y : Bool) (d a b : Field) (s : State) (c : Ctx) (h : Nat) (r : StageRing), At s c → RingAt c s a h r →
    (Passes c (.rpush y a b) → b.toNat + r.esz ≤ 126 → c.wv.relReady = true → r.closed = false → r.used < 2 ^ r.log2cap →
      exec (.rpush y a b) s = .next (c.leave (.rpush y a b) y ((relState c 0 s).modBlk c.b fun k =>
        (k.sWrite (r.base + r.tail % 2 ^ r.log2cap * 16)
          ((List.range (r.esz + 1)).flatMap fun j => natBytes 4 (c.g (b.toNat + j)).toNat)).sWrite (h + 4) (natBytes 4 (r.tail + 1))))) ∧
    (Passes c (.rpop y d a) → d.toNat + r.esz ≤ 126 → r.head ≠ r.tail →
      (∀ k, k < r.esz + 1 → (r.base + r.head % 2 ^ r.log2cap * 16) / 4 + k ∉ (s.blk c.b).badWords) →
      let e := (s.blk c.b).sRead (r.base + r.head % 2 ^ r.log2cap * 16) 16
      exec (.rpop y d a) s = .next (c.leave (.rpop y d a) y ((c.writeGs d.toNat (r.esz + 1)
        (fun j => BitVec.ofNat 32 (leNat ((e.drop (4 * j)).take 4)))
        (s.modBlk c.b fun k => k.sWrite h (natBytes 4 (r.head + 1)))).modPath c.b c.w c.p fun p => { p with acq := some 0 }))) ∧
    (Passes c (.rpop y d a) → d.toNat + r.esz ≤ 126 → r.head = r.tail → r.closed = true →
      exec (.rpop y d a) s = .next (c.leave (.rpop y d a) y ((c.writeGs d.toNat (r.esz + 1) (fun _ => 0xFFFFFFFF) s).modPath
        c.b c.w c.p fun p => { p with acq := some 0 }))) ∧
    (Passes c (.rpop y d a) → d.toNat + r.esz ≤ 126 → r.head = r.tail → r.closed = false →
      exec (.rpop y d a) s = .next (held c .ring s)) ∧
    (Passes c (.rpeek y d a) → ∃ t, exec (.rpeek y d a) s = .next t ∧ Done s t c y true d 1 0 0 fun _ _ =>
      BitVec.ofNat 32 (r.used % 2 ^ 16 + (if r.closed then 2 ^ 16 else 0) + r.head / 2 ^ r.log2cap % 2 * 2 ^ 17)) ∧
    (Passes c (.rclose y a) → c.wv.relReady = true →
      exec (.rclose y a) s = .next (c.leave (.rclose y a) y ((relState c 0 s).modBlk c.b fun k =>
        k.sWrite (h + 10) [k.sByte (h + 10) ||| 1]))) ∧
    (Passes c (.rpush y a b) → b.toNat + r.esz ≤ 126 → c.wv.relReady = true → r.closed = true →
      exec (.rpush y a b) s = .next (s.takeTrap c.b c.w c.p (c.trap 0x22 none ((c.g a.toNat).setWidth 64))))

/-- R380, R382: GBAR.ARR sends the CP an arrival and makes the grid latch pending; GBAR.WAIT waits until the arrival is applied
and its generation released, then acquires and empties the latch, and traps with STALE when it was diverted; the CP's reply
to the latest arrival sets the latch. -/
def Sys2Proof.Machine.GridBarrierResults : Prop :=
  (∀ (y : Bool) (d : Field) (s : State) (c : Ctx), At s c → c.inHandler = false →
    let va := c.gPair d.toNat
    let gen := c.g (d.toNat + 2)
    (Passes c (.gbarArr y d) → gen.toNat < 2 ^ 16 → va.toNat % 32 = 0 → c.wv.relReady = true → ∀ ia, c.map s (.atomic true) va = .ok ia →
      exec (.gbarArr y d) s = .next (c.leave (.gbarArr y d) y (({ relState c 2 s with
        arrivals := s.arrivals ++ [{ world := c.world, asid := c.asid, va := va.toNat, gen := gen.toNat, status := 0
                                     launch := c.blk.launch, src := .gbar c.b c.w }] } : State).modWv c.b c.w fun v =>
          { v with glatch := .pending, glatchVA := va, glatchGen := gen.toNat, greleased := false, gsent := v.gsent + 1 }))) ∧
    (Passes c (.gbarWait y) → c.wv.glatch = .applied → c.wv.greleased = true → c.wv.lc = 0 → recWatch c.lr = false →
      exec (.gbarWait y) s = .next (c.leave (.gbarWait y) y ((acqState c 2 s).modWv c.b c.w fun v =>
        { v with glatch := .empty, glatchVA := 0, glatchGen := 0, greleased := false }))) ∧
    (Passes c (.gbarWait y) → c.wv.glatch = .empty → c.wv.lc = 0 →
      exec (.gbarWait y) s = .next (c.leave (.gbarWait y) y (acqState c 2 s))) ∧
    (Passes c (.gbarWait y) → (c.wv.glatch = .pending ∨ c.wv.glatch = .applied ∧ c.wv.greleased = false) →
      exec (.gbarWait y) s = .next (held c .cbarrier s)) ∧
    (Passes c (.gbarWait y) → c.wv.glatch = .diverted →
      exec (.gbarWait y) s = .next ((s.modWv c.b c.w fun v => { v with glatch := .empty, glatchVA := 0, glatchGen := 0 }).takeTrap
        c.b c.w c.p (c.trap 0x23)))) ∧
  ∀ (b w : Nat) (s : State) (diverted : Bool) (rest : List Bool), (s.wv b w).greplies = diverted :: rest →
    (s.wv b w).gsent = 1 → (s.wv b w).glatch = .pending → b < s.blocks.length → w < (s.blk b).waves.length →
    ∃ t, exec (.gridLatchReply b w) s = .next t ∧
      (t.wv b w) = { s.wv b w with greplies := rest, gsent := 0, glatch := if diverted then .diverted else .applied }

/-! ### Memory words (chapters 05 and 07) -/

/-- A fixed-size access of `size` bytes per lane that every check of R161 to R164 lets through:
the record is `rc`, found leaving `s1`, and lane `ln`'s address maps to `ia ln`. -/
structure Sys2Proof.Machine.Access (c : Ctx) (s s1 : State) (g : Bool) (a : Field) (rn : Nat) (rc : BitVec 320) (need : Need) (size : Nat)
    (ia : Nat → Nat) : Prop where
  record : c.record s rn = .ok rc s1
  formed : rn ≠ 0 → recordMalformed rc = false
  permits : rbPermits rc need = true
  aligned : ∀ ln ∈ c.execLanes g, (c.address g a rn rc ln).toNat % size = 0
  inside : rn ≠ 0 → ∀ ln ∈ c.execLanes g, c.offset g a rc ln + size ≤ rbExtent rc
  mapped : ∀ ln ∈ c.execLanes g, c.map s1 need (c.address g a rn rc ln) = .ok (ia ln)

/-- Watch mode lets the bytes of a load or store through: no sector of theirs conflicts (R333, R334). -/
def Sys2Proof.Machine.NoConflict (c : Ctx) (s1 : State) (g : Bool) (rc : BitVec 320) (ias : Nat → List Nat) : Prop :=
  recWatch (s1.launchOf c.b).record = true → rbWatch rc = true →
    ∀ ln ∈ c.execLanes g, ∀ ia ∈ ias ln, watchConflict (s1.launchOf c.b) c.watchId (ia / 32) = false

/-- The pending accesses of the lanes, as the operation carries them (R73, R163, R358). -/
def Sys2Proof.Machine.lanesAt (c : Ctx) (g : Bool) (d a : Field) (rn : Nat) (rc : BitVec 320) (nregs : Nat) (ia : Nat → Nat) : List LaneOp :=
  (c.execLanes g).map fun ln =>
    { lane := ln, va := c.address g a rn rc ln, ia := ia ln
      dst := if g then d.toNat else if d.toNat < 0x70 then c.vreg ln d.toNat else d.toNat
      data := c.runData g d nregs ln, addr := if rn = 0 then c.opnd64 g a ln else (c.opnd g a ln 0).setWidth 64 }

/-- A checked store that has started makes its wave the writer of its sectors (R334). -/
def Sys2Proof.Machine.noteStore (c : Ctx) (rc : BitVec 320) (sectors : List Nat) (s : State) : State :=
  if recWatch (s.launchOf c.b).record && rbWatch rc then
    s.modLaunch c.blk.launch fun l =>
      { l with watch := sectors.dedup.map (fun x => (x, c.watchId, l.watchSeq)) ++ l.watch.filter fun e => !sectors.contains e.1
               watchSeq := l.watchSeq + 1 }
  else s

/-- The word `i` starts the operation `op` from `s1`: nothing where no lane executes; held while the counter is full (R25). -/
def Sys2Proof.Machine.Starts (i : Instr) (y : Bool) (c : Ctx) (s : State) (lanes : List Nat) (op : AsyncOp) (s0 s1 : State) (after : State → State) : Prop :=
  (lanes = [] → exec i s = .next (c.leave i y s0)) ∧
  (lanes ≠ [] → c.wv.ctr op.ctr < 63 → exec i s = .next (c.leave i y (after (c.startOp op s1)))) ∧
  (lanes ≠ [] → 63 ≤ c.wv.ctr op.ctr → exec i s = .next (held c op.ctr.stall s1))

/-- R25, R73, R166, R408: what starting an operation outside run-ahead changes. -/
def Obligations.StartOperation : Prop :=
  ∀ (s : State) (c : Ctx) (op : AsyncOp), At s c →
    let t := c.startOp op s
    let u := t.wv c.b c.w
    let o := { op with id := c.wv.nextOp, path := c.p, pc := c.pa.pc, word := c.pa.word, lead := (lanesOf c.pa.full).headD 32, at_ := s.clk }
    t = s.modWv c.b c.w (fun _ => u) ∧
    u = { c.wv with ops := c.wv.ops ++ [o], nextOp := c.wv.nextOp + 1, lc := u.lc, sc := u.sc, cc := u.cc, mc := u.mc } ∧
    u.lc = c.wv.lc + (if op.ctr = .lc then 1 else 0) ∧ u.sc = c.wv.sc + (if op.ctr = .sc then 1 else 0) ∧
    u.cc = c.wv.cc + (if op.ctr = .cc then 1 else 0) ∧ u.mc = c.wv.mc + (if op.ctr = .mc then 1 else 0)

/-- A load of `size` bytes (R171). -/
def Sys2Proof.Machine.LoadStarts (i : Instr) (y g : Bool) (d a : Field) (r : BitVec 7) (size nregs : Nat) (signed : Bool) : Prop :=
  ∀ s c s1 rc ia, At s c → Passes c i → Access c s s1 g a r.toNat rc .load size ia → NoConflict c s1 g rc (fun ln => [ia ln]) →
    Starts i y c s (c.execLanes g)
      { ctr := .lc, uniform := g, nregs, lanes := lanesAt c g d a r.toNat rc nregs ia, kind := .load size signed (rbPolicy rc) }
      s1 s1 id

/-- R25, R161 to R165, R171: LD with a fixed size. -/
def Sys2Proof.Machine.LoadIssues : Prop :=
  ∀ (y g : Bool) (d a : Field) (r : BitVec 7),
    LoadStarts (.ldS8 y g d a r) y g d a r 1 1 true ∧ LoadStarts (.ldZ8 y g d a r) y g d a r 1 1 false ∧
    LoadStarts (.ldS16 y g d a r) y g d a r 2 1 true ∧ LoadStarts (.ldZ16 y g d a r) y g d a r 2 1 false ∧
    LoadStarts (.ld32 y g d a r) y g d a r 4 1 false ∧ LoadStarts (.ld64 y g d a r) y g d a r 8 2 false ∧
    LoadStarts (.ld128 y g d a r) y g d a r 16 4 false

/-- A store of `size` bytes (R166, R172): the L1 of its core is updated at issue. -/
def Sys2Proof.Machine.StoreStarts (i : Instr) (y g : Bool) (d a : Field) (r : BitVec 7) (size nregs : Nat) : Prop :=
  ∀ s c s1 rc ia, At s c → Passes c i → Access c s s1 g a r.toNat rc .store size ia → NoConflict c s1 g rc (fun ln => [ia ln]) →
    let op : AsyncOp :=
      { ctr := .sc, uniform := g, nregs, lanes := lanesAt c g d a r.toNat rc nregs ia, kind := .store size (rbPolicy rc) }
    Starts i y c s (c.execLanes g) op s1 s1
      fun t => noteStore c rc ((c.execLanes g).map fun ln => ia ln / 32) (t.l1Store c.blk.core op)

/-- R25, R161 to R166, R172: ST with a fixed size. -/
def Sys2Proof.Machine.StoreIssues : Prop :=
  ∀ (y g : Bool) (d a : Field) (r : BitVec 7),
    StoreStarts (.st8 y g d a r) y g d a r 1 1 ∧ StoreStarts (.st16 y g d a r) y g d a r 2 1 ∧
    StoreStarts (.st32 y g d a r) y g d a r 4 1 ∧ StoreStarts (.st64 y g d a r) y g d a r 8 2 ∧
    StoreStarts (.st128 y g d a r) y g d a r 16 4

/-- An atomic or reduction (R174 to R177): it leaves its lines out of the L1, and a returning one is noted for the fence that
may follow it (R327). A release atomic waits until no store is deferred. -/
def Sys2Proof.Machine.AtomicStarts (i : Instr) (y : Bool) (d a : Field) (sc : BitVec 2) (r : BitVec 5) (size nregs : Nat) (op : AtomOp) (ret : Bool) :
    Prop :=
  ∀ s c s1 rc ia, At s c → Passes c i → (c.wv.armed = none ∨ c.wv.r75 = true ∧ c.wv.tstgPending = false) →
    Access c s s1 false a r.toNat rc (.atomic ret) size ia →
    Starts i y c s (activeLanes c)
      { ctr := if ret then .lc else .sc, nregs := if !ret then 0 else if size = 8 then 2 else 1
        lanes := lanesAt c false d a r.toNat rc nregs ia, kind := .atomic op (size == 8) sc.toNat ret (rbPolicy rc)
        rel := match c.wv.armed with | some k => decide (2 ≤ min k sc.toNat) | none => false
        seq := (s1.launchOf c.b).watchSeq, atom := c.wv.nextOp }
      s1 s1 fun t => ((activeLanes c).foldl (fun t ln => t.l1Drop c.blk.core (ia ln)) t).modWv c.b c.w fun v =>
        { v with lastAtom := if ret then some (c.wv.nextOp, sc.toNat) else none }

/-- R174 to R177: ATOM, ATOMX and RED. -/
def Sys2Proof.Machine.AtomicIssues : Prop :=
  ∀ (y : Bool) (d a : Field) (sc : BitVec 2) (r : BitVec 5),
    AtomicStarts (.atomAdd y d a sc r) y d a sc r 4 1 .add true ∧ AtomicStarts (.atomMinS y d a sc r) y d a sc r 4 1 .minS true ∧
    AtomicStarts (.atomMaxS y d a sc r) y d a sc r 4 1 .maxS true ∧ AtomicStarts (.atomMinN y d a sc r) y d a sc r 4 1 .minN true ∧
    AtomicStarts (.atomMaxN y d a sc r) y d a sc r 4 1 .maxN true ∧ AtomicStarts (.atomAnd y d a sc r) y d a sc r 4 1 .and true ∧
    AtomicStarts (.atomOr y d a sc r) y d a sc r 4 1 .or true ∧ AtomicStarts (.atomExch y d a sc r) y d a sc r 4 1 .exch true ∧
    AtomicStarts (.atomxCas y d a sc r) y d a sc r 4 2 .cas true ∧ AtomicStarts (.atomxXor y d a sc r) y d a sc r 4 1 .xor true ∧
    AtomicStarts (.atomxFadd y d a sc r) y d a sc r 4 1 .fadd true ∧ AtomicStarts (.atomxFmin y d a sc r) y d a sc r 4 1 .fmin true ∧
    AtomicStarts (.atomxFmax y d a sc r) y d a sc r 4 1 .fmax true ∧ AtomicStarts (.atomxAdd64 y d a sc r) y d a sc r 8 2 .add true ∧
    AtomicStarts (.atomxCas64 y d a sc r) y d a sc r 8 4 .cas true ∧ AtomicStarts (.atomxIncw y d a sc r) y d a sc r 4 1 .incw true ∧
    AtomicStarts (.redAdd y d a sc r) y d a sc r 4 1 .add false ∧ AtomicStarts (.redMinS y d a sc r) y d a sc r 4 1 .minS false ∧
    AtomicStarts (.redMaxS y d a sc r) y d a sc r 4 1 .maxS false ∧ AtomicStarts (.redMinN y d a sc r) y d a sc r 4 1 .minN false ∧
    AtomicStarts (.redMaxN y d a sc r) y d a sc r 4 1 .maxN false ∧ AtomicStarts (.redAnd y d a sc r) y d a sc r 4 1 .and false ∧
    AtomicStarts (.redOr y d a sc r) y d a sc r 4 1 .or false ∧ AtomicStarts (.redFadd y d a sc r) y d a sc r 4 1 .fadd false

/-- The register run that a record gives an access lies in the wave's registers (R42, R149, R164): a v run from an unrenamed
or renamed base, or for a broadcast field one element. -/
def Sys2Proof.Machine.RunOk (c : Ctx) (d : Field) (n epa : Nat) (even : Bool) : Prop :=
  if d.toNat < 0x70 then c.runIll d.toNat n even = false ∧ c.runXreg d.toNat n = false else epa = 1

/-- A .E access that every check lets through: lane `ln`'s bytes map to `ias ln`, its scale byte last under MX (R120, R121,
R161 to R164). -/
structure Sys2Proof.Machine.ElementAccess (c : Ctx) (s s1 : State) (g : Bool) (d a : Field) (rn : Nat) (rc : BitVec 320) (need : Need)
    (ias : Nat → List Nat) : Prop where
  record : c.record s rn = .ok rc s1
  formed : rn ≠ 0 → recordMalformed rc = false
  format : ePermitted rc = true
  run : g = false → RunOk c d (eRegs rc) (rbEpa rc) (eEven rc)
  permits : rbPermits rc need = true
  aligned : ∀ ln ∈ c.execLanes g, eAligned rc (c.offset g a rc ln) = true
  inside : rn ≠ 0 → ∀ ln ∈ c.execLanes g, eMortonOk rc (c.offset g a rc ln) = true ∧
    ∀ o ∈ eBytes rc (c.offset g a rc ln), o < rbExtent rc
  mapped : ∀ ln ∈ c.execLanes g, ∃ l m, mapAll (c.map s1 need) (eVas rc (c.offset g a rc ln)) = .ok l ∧ ias ln = l ++ m ∧
    if rbSmode rc = 2 then mapAll (c.map s1 .load) [eScaleVa rc (c.offset g a rc ln)] = .ok m else m = []

/-- The pending accesses of a .E access. -/
def Sys2Proof.Machine.elementLanes (c : Ctx) (g : Bool) (d a : Field) (rn : Nat) (rc : BitVec 320) (ias : Nat → List Nat) : List LaneOp :=
  (c.execLanes g).map fun ln =>
    { lane := ln, va := c.address g a rn rc ln, ia := (ias ln).headD 0, aux := ias ln
      dst := if g then d.toNat else if d.toNat < 0x70 then c.vreg ln d.toNat else d.toNat
      data := c.runData g d (eRegs rc) ln, addr := if rn = 0 then c.opnd64 g a ln else (c.opnd g a ln 0).setWidth 64 }

/-- R120, R121, R171, R172: LD.E and ST.E. -/
def Obligations.ElementAccessIssues : Prop :=
  ∀ (y g : Bool) (d a : Field) (r : BitVec 7) (s : State) (c : Ctx) s1 rc ias, At s c →
    (Passes c (.ldE y g d a r) → ElementAccess c s s1 g d a r.toNat rc .load ias → NoConflict c s1 g rc ias →
      Starts (.ldE y g d a r) y c s (c.execLanes g)
        { ctr := .lc, uniform := g, nregs := eRegs rc, lanes := elementLanes c g d a r.toNat rc ias, kind := .loadE rc } s1 s1 id) ∧
    (Passes c (.stE y g d a r) → ElementAccess c s s1 g d a r.toNat rc .store ias → NoConflict c s1 g rc ias →
      let op : AsyncOp :=
        { ctr := .sc, uniform := g, nregs := eRegs rc, lanes := elementLanes c g d a r.toNat rc ias, kind := .storeE rc }
      Starts (.stE y g d a r) y c s (c.execLanes g) op s1 s1 fun t =>
        noteStore c rc (((c.execLanes g).flatMap fun ln => (ias ln).take (rbEpa rc * eWidth rc / 8)).map (· / 32))
          (t.l1Store c.blk.core op))

/-- R111, R180, R430: a prefetch of `lanes`, of which the first `k` are done: lane after lane, held at the first that waits for
a way or a link, from which it goes on. -/
def Sys2Proof.Machine.Prefetched (c : Ctx) (y l1 near : Bool) (i : Instr) (s : State) (k : Nat) (lanes : List LaneOp) (s1 : State) : Prop :=
  let at_ (n : Nat) : State := (lanes.take n).foldl (fun t o => (c.prefetch l1 near t o.ia).2) s1
  let here (n : Nat) : Bool := ((lanes[n]?).map fun o => (c.prefetch l1 near (at_ n) o.ia).1).getD true
  ((∀ n, n < lanes.length → here n = true) → exec i s = .next (c.leave i y (at_ lanes.length))) ∧
  ∀ n, n < lanes.length → here n = false → (∀ m, m < n → here m = true) →
    exec i s = .next (held c .park ((at_ (n + 1)).modPath c.b c.w c.p fun p => { p with phase := k + n }))

/-- R180, R182, R183: CACHE and REMOTE. A cache operation leaves out the lanes whose access would trap; which byte of a lane is
held against EXTENT is the model's choice (log entry 67). -/
def Obligations.CacheAndRemoteIssues : Prop :=
  ∀ (y : Bool) (d a : Field) (r : BitVec 7) (s : State) (c : Ctx) s1 rc, At s c →
    (c.record s r.toNat = .ok rc s1 → (r.toNat ≠ 0 → recordMalformed rc = false) →
      let lanes := c.cacheLanes s1 a r.toNat rc
      (Passes c (.pref y a r) → Prefetched c y true false (.pref y a r) s c.pa.phase (lanes.drop c.pa.phase) s1) ∧
      (Passes c (.prefx y a r) → Prefetched c y false true (.prefx y a r) s c.pa.phase (lanes.drop c.pa.phase) s1) ∧
      (Passes c (.evict y a r) →
        Starts (.evict y a r) y c s (lanes.map LaneOp.lane) { ctr := .sc, lanes, kind := .evict } s1 s1 id)) ∧
    (∀ ia, Passes c (.rst y d a r) → RunOk c d (rbEpa rc) (rbEpa rc) false →
      Access c s s1 false a r.toNat rc .store (4 * rbEpa rc) ia →
      Starts (.rst y d a r) y c s (activeLanes c)
        { ctr := .sc, nregs := rbEpa rc, lanes := lanesAt c false d a r.toNat rc (rbEpa rc) ia, kind := .remStore (4 * rbEpa rc) (rbPolicy rc) }
        s1 s1 id) ∧
    (∀ ia, Passes c (.rld y d a r) → RunOk c d (rbEpa rc) (rbEpa rc) false →
      Access c s s1 false a r.toNat rc .load (4 * rbEpa rc) ia →
      Starts (.rld y d a r) y c s (activeLanes c)
        { ctr := .lc, nregs := rbEpa rc, lanes := lanesAt c false d a r.toNat rc (rbEpa rc) ia, kind := .remLoad (4 * rbEpa rc) (rbPolicy rc) }
        s1 s1 id) ∧
    (∀ ia, Passes c (.ratom y d a r) → (∀ ln ∈ activeLanes c, (c.src d ln 1).toNat < 8) →
      Access c s s1 false a r.toNat rc (.atomic true) 4 ia →
      Starts (.ratom y d a r) y c s (activeLanes c)
        { ctr := .lc, nregs := 1, lanes := lanesAt c false d a r.toNat rc 2 ia, kind := .remAtomic (rbPolicy rc) } s1 s1 id) ∧
    (Passes c (.rfence y) → c.wv.remotePending = false → exec (.rfence y) s = .next (c.leave (.rfence y) y s)) ∧
    (Passes c (.rfence y) → c.wv.remotePending = true → exec (.rfence y) s = .next (fenceHeld c .waitSt s))

/-- An instruction with a fixed-size access: its G, record, need and size. -/
structure Sys2Proof.Machine.Fixed where
  i : Instr
  g : Bool
  rn : Nat
  need : Need
  size : Nat

/-- The fixed-size accesses of LD, ST, ATOM, ATOMX and RED. -/
noncomputable def Sys2Proof.Machine.fixedAccesses (y g : Bool) (d a : Field) (r : BitVec 7) (sc : BitVec 2) (q : BitVec 5) : List Fixed :=
  [⟨.ldS8 y g d a r, g, r.toNat, .load, 1⟩, ⟨.ldZ8 y g d a r, g, r.toNat, .load, 1⟩, ⟨.ldS16 y g d a r, g, r.toNat, .load, 2⟩,
   ⟨.ldZ16 y g d a r, g, r.toNat, .load, 2⟩, ⟨.ld32 y g d a r, g, r.toNat, .load, 4⟩, ⟨.ld64 y g d a r, g, r.toNat, .load, 8⟩,
   ⟨.ld128 y g d a r, g, r.toNat, .load, 16⟩, ⟨.st8 y g d a r, g, r.toNat, .store, 1⟩, ⟨.st16 y g d a r, g, r.toNat, .store, 2⟩,
   ⟨.st32 y g d a r, g, r.toNat, .store, 4⟩, ⟨.st64 y g d a r, g, r.toNat, .store, 8⟩, ⟨.st128 y g d a r, g, r.toNat, .store, 16⟩,
   ⟨.atomAdd y d a sc q, false, q.toNat, .atomic true, 4⟩, ⟨.atomMinS y d a sc q, false, q.toNat, .atomic true, 4⟩,
   ⟨.atomMaxS y d a sc q, false, q.toNat, .atomic true, 4⟩, ⟨.atomMinN y d a sc q, false, q.toNat, .atomic true, 4⟩,
   ⟨.atomMaxN y d a sc q, false, q.toNat, .atomic true, 4⟩, ⟨.atomAnd y d a sc q, false, q.toNat, .atomic true, 4⟩,
   ⟨.atomOr y d a sc q, false, q.toNat, .atomic true, 4⟩, ⟨.atomExch y d a sc q, false, q.toNat, .atomic true, 4⟩,
   ⟨.atomxCas y d a sc q, false, q.toNat, .atomic true, 4⟩, ⟨.atomxXor y d a sc q, false, q.toNat, .atomic true, 4⟩,
   ⟨.atomxFadd y d a sc q, false, q.toNat, .atomic true, 4⟩, ⟨.atomxFmin y d a sc q, false, q.toNat, .atomic true, 4⟩,
   ⟨.atomxFmax y d a sc q, false, q.toNat, .atomic true, 4⟩, ⟨.atomxAdd64 y d a sc q, false, q.toNat, .atomic true, 8⟩,
   ⟨.atomxCas64 y d a sc q, false, q.toNat, .atomic true, 8⟩, ⟨.atomxIncw y d a sc q, false, q.toNat, .atomic true, 4⟩,
   ⟨.redAdd y d a sc q, false, q.toNat, .atomic false, 4⟩, ⟨.redMinS y d a sc q, false, q.toNat, .atomic false, 4⟩,
   ⟨.redMaxS y d a sc q, false, q.toNat, .atomic false, 4⟩, ⟨.redMinN y d a sc q, false, q.toNat, .atomic false, 4⟩,
   ⟨.redMaxN y d a sc q, false, q.toNat, .atomic false, 4⟩, ⟨.redAnd y d a sc q, false, q.toNat, .atomic false, 4⟩,
   ⟨.redOr y d a sc q, false, q.toNat, .atomic false, 4⟩, ⟨.redFadd y d a sc q, false, q.toNat, .atomic false, 4⟩]

/-- R163, R459: the first failing check of an access is the trap taken, before anything of the word has effect: RECORD, then
the record's PERM, then ALIGN and RANGE over the lanes. TMASK names the failing lanes, TVA the entry or the lowest failing
lane's VA. The record that was read stays in the record cache (R123). -/
def Sys2Proof.Machine.AccessTraps : Prop :=
  ∀ (y g : Bool) (d a : Field) (r : BitVec 7) (sc : BitVec 2) (q : BitVec 5), ∀ f ∈ fixedAccesses y g d a r sc q,
    ∀ (s : State) (c : Ctx), At s c → Passes c f.i → c.wv.armed = none →
      let all : Word := if f.g then 1 else c.pa.exm
      let entry := c.recVa f.rn
      let traps (s1 : State) (code : Nat) (m : Word) (va : DWord) : Prop :=
        exec f.i s = .next (s1.takeTrap c.b c.w c.p (c.trap code (some m) va))
      (∀ s1, c.record s f.rn = .bad s1 → traps s1 0x17 all entry) ∧
      ∀ rc s1, c.record s f.rn = .ok rc s1 →
        (f.rn ≠ 0 → recordMalformed rc = true → traps s1 0x17 all entry) ∧
        ((f.rn ≠ 0 → recordMalformed rc = false) → rbPermits rc f.need = false → traps s1 0x11 all entry) ∧
        ((f.rn ≠ 0 → recordMalformed rc = false) → rbPermits rc f.need = true →
          let va := c.address f.g a f.rn rc
          let off (ln : Nat) : Bool := decide ((va ln).toNat % f.size ≠ 0)
          let out (ln : Nat) : Bool := decide (f.rn ≠ 0 ∧ rbExtent rc < c.offset f.g a rc ln + f.size)
          (∀ ln rest, (c.execLanes f.g).filter off = ln :: rest → traps s1 0x13 (maskOf fun k => (ln :: rest).contains k) (va ln)) ∧
          ((c.execLanes f.g).filter off = [] → ∀ ln rest, (c.execLanes f.g).filter out = ln :: rest →
            traps s1 0x12 (maskOf fun k => (ln :: rest).contains k) (va ln)))

/-- Barriers at block, cluster and grid scope, with the end of their generations, and stage rings. That the waits of all paths end in one
step, and that an ended wait acquires before its path's next word, is the model's reading (log entry 62), as is that an instruction that
waits stays at its word (log entry 12). -/
def Obligations.BarrierAndRingResults : Prop :=
  BarrierResults ∧ GenerationResults ∧ RingHeader ∧ StageRingResults ∧ GridBarrierResults

/-- Fixed-size loads, stores and atomics. -/
def Obligations.AccessIssues : Prop := LoadIssues ∧ StoreIssues ∧ AtomicIssues

/-! ### Local accesses (chapter 07) -/

/-- The active lanes of an STL that write the profiling control, the control after them, and what the STL writes to the
attachment record, where it writes that (R437, R444). -/
def Sys2Proof.Machine.profWriters (c : Ctx) (a : Field) (o : BitVec 7) (size : Nat) : List Nat :=
  (activeLanes c).filter fun ln => 0x64040020 ≤ c.la a o size ln && c.la a o size ln < 0x64040040
def Sys2Proof.Machine.profAfter (c : Ctx) (d a : Field) (o : BitVec 7) (size nregs : Nat) (p : BitVec 256) : BitVec 256 :=
  (profWriters c a o size).foldl (fun p ln =>
    profPut p (c.la a o size ln - 0x64040020) (natBytes size (c.runData false d nregs ln).toNat)) p
def Sys2Proof.Machine.attachData (c : Ctx) (d a : Field) (o : BitVec 7) (size nregs : Nat) : Option Nat :=
  if size = 16 then ((activeLanes c).find? fun ln => c.la a o size ln == 0x64040000).map fun ln => (c.runData false d nregs ln).toNat
  else none

/-- The address checks of R179 let every active lane of a local access through (R151, R152, R154, R444). -/
structure Sys2Proof.Machine.LocalAccess (c : Ctx) (s : State) (d a : Field) (o : BitVec 7) (size nregs : Nat) (store atom : Bool) : Prop where
  aligned : ∀ ln ∈ activeLanes c, c.la a o size ln % size = 0
  inside : ∀ ln ∈ activeLanes c, ∃ t, c.localAt s (c.la a o size ln) size atom = some t ∧
    ∀ rank off, t = .cluster rank off → c.ticketOk s = true ∧ rank < (s.clusters.getD c.blk.cluster {}).members.length
  profile : store = true →
    profWriters c a o size = [] ∨ s.windowBusy c.world = false ∧
      ∀ p ∈ c.profiles s (attachData c d a o size nregs), profOk c.world (profAfter c d a o size nregs p) = true

/-- A local access whose checks pass enters its counter's queue with each lane's address and data as read at issue. -/
def Sys2Proof.Machine.LocalStarts (i : Instr) (y : Bool) (d a : Field) (o : BitVec 7) (size nregs ndata : Nat) (store atom : Bool) (ctr : Ctr)
    (kind : OpKind) : Prop :=
  ∀ (s : State) (c : Ctx), At s c → Passes c i → LocalAccess c s d a o size ndata store atom →
    Starts i y c s (activeLanes c)
      { ctr, nregs, kind
        lanes := (activeLanes c).map fun ln =>
          { lane := ln, va := BitVec.ofNat 64 (c.la a o size ln), dst := if store then 0 else c.vreg ln d.toNat
            data := c.runData false d ndata ln, addr := (c.src a ln 0).setWidth 64 } } s s id

/-- R178, R179: LDL, STL and ATOML. A lane's local address is its operand plus the offset times the size, mod 2³². -/
def Obligations.LocalAccessIssues : Prop :=
  (∀ (c : Ctx) (a : Field) (o : BitVec 7) (size ln : Nat),
    c.la a o size ln = ((c.src a ln 0).toNat + size * o.toNat) % 2 ^ 32) ∧
  ∀ (y : Bool) (d a : Field) (o : BitVec 7),
    LocalStarts (.ldlS8 y d a o) y d a o 1 1 1 false false .lc (.loadLocal 1 true) ∧
    LocalStarts (.ldlZ8 y d a o) y d a o 1 1 1 false false .lc (.loadLocal 1 false) ∧
    LocalStarts (.ldlS16 y d a o) y d a o 2 1 1 false false .lc (.loadLocal 2 true) ∧
    LocalStarts (.ldlZ16 y d a o) y d a o 2 1 1 false false .lc (.loadLocal 2 false) ∧
    LocalStarts (.ldl32 y d a o) y d a o 4 1 1 false false .lc (.loadLocal 4 false) ∧
    LocalStarts (.ldl64 y d a o) y d a o 8 2 2 false false .lc (.loadLocal 8 false) ∧
    LocalStarts (.ldl128 y d a o) y d a o 16 4 4 false false .lc (.loadLocal 16 false) ∧
    LocalStarts (.stl8 y d a o) y d a o 1 1 1 true false .sc (.storeLocal 1) ∧
    LocalStarts (.stl16 y d a o) y d a o 2 1 1 true false .sc (.storeLocal 2) ∧
    LocalStarts (.stl32 y d a o) y d a o 4 1 1 true false .sc (.storeLocal 4) ∧
    LocalStarts (.stl64 y d a o) y d a o 8 2 2 true false .sc (.storeLocal 8) ∧
    LocalStarts (.stl128 y d a o) y d a o 16 4 4 true false .sc (.storeLocal 16) ∧
    LocalStarts (.atomlAdd y d a o) y d a o 4 1 1 false true .lc (.atomicLocal .add) ∧
    LocalStarts (.atomlMinS y d a o) y d a o 4 1 1 false true .lc (.atomicLocal .minS) ∧
    LocalStarts (.atomlMaxS y d a o) y d a o 4 1 1 false true .lc (.atomicLocal .maxS) ∧
    LocalStarts (.atomlAnd y d a o) y d a o 4 1 1 false true .lc (.atomicLocal .and) ∧
    LocalStarts (.atomlOr y d a o) y d a o 4 1 1 false true .lc (.atomicLocal .or) ∧
    LocalStarts (.atomlExch y d a o) y d a o 4 1 1 false true .lc (.atomicLocal .exch) ∧
    LocalStarts (.atomlCas y d a o) y d a o 4 1 2 false true .lc (.atomicLocal .cas) ∧
    LocalStarts (.atomlFadd y d a o) y d a o 4 1 1 false true .lc (.atomicLocal .fadd)

/-- A local word, its size, and whether it is atomic. -/
structure Sys2Proof.Machine.LocalWord where
  i : Instr
  size : Nat
  atom : Bool

noncomputable def Sys2Proof.Machine.localWords (y : Bool) (d a : Field) (o : BitVec 7) : List LocalWord :=
  [⟨.ldlS8 y d a o, 1, false⟩, ⟨.ldlZ8 y d a o, 1, false⟩, ⟨.ldlS16 y d a o, 2, false⟩, ⟨.ldlZ16 y d a o, 2, false⟩,
   ⟨.ldl32 y d a o, 4, false⟩, ⟨.ldl64 y d a o, 8, false⟩, ⟨.ldl128 y d a o, 16, false⟩, ⟨.stl8 y d a o, 1, false⟩,
   ⟨.stl16 y d a o, 2, false⟩, ⟨.stl32 y d a o, 4, false⟩, ⟨.stl64 y d a o, 8, false⟩, ⟨.stl128 y d a o, 16, false⟩,
   ⟨.atomlAdd y d a o, 4, true⟩, ⟨.atomlMinS y d a o, 4, true⟩, ⟨.atomlMaxS y d a o, 4, true⟩, ⟨.atomlAnd y d a o, 4, true⟩,
   ⟨.atomlOr y d a o, 4, true⟩, ⟨.atomlExch y d a o, 4, true⟩, ⟨.atomlCas y d a o, 4, true⟩, ⟨.atomlFadd y d a o, 4, true⟩]

/-- R179, R459: a local access with a misaligned active lane takes ALIGN, and one outside the local address space RANGE; TMASK
names the failing lanes, TVA the lowest one's local address. -/
def Sys2Proof.Machine.LocalAccessTraps : Prop :=
  ∀ (y : Bool) (d a : Field) (o : BitVec 7), ∀ f ∈ localWords y d a o, ∀ (s : State) (c : Ctx), At s c → Passes c f.i →
    let la := c.la a o f.size
    let off := (activeLanes c).filter fun ln => decide (la ln % f.size ≠ 0)
    let out := (activeLanes c).filter fun ln => (c.localAt s (la ln) f.size f.atom).isNone
    let traps (code : Nat) (l : List Nat) : Prop :=
      exec f.i s = .next (s.takeTrap c.b c.w c.p
        (c.trap code (some (maskOf fun k => l.contains k)) (BitVec.ofNat 64 (la (l.headD 0)))))
    (off ≠ [] → traps 0x13 off) ∧ (off = [] → out ≠ [] → traps 0x12 out)

/-- R179, R444: an STL to the profiling control whose addresses are in order waits for the world's earlier stores to the debug
window; where the control that it may leave has a bit it may not have, it takes RANGE at the lanes that write it. That the
control of a launch attached by the same STL is held to the rule too is the model's reading (log entry 69). -/
def Sys2Proof.Machine.ProfileWrites : Prop :=
  ∀ (y : Bool) (d a : Field) (o : BitVec 7), ∀ f ∈ [(Instr.stl8 y d a o, 1, 1), (.stl16 y d a o, 2, 1), (.stl32 y d a o, 4, 1),
      (.stl64 y d a o, 8, 2), (.stl128 y d a o, 16, 4)], ∀ (s : State) (c : Ctx), At s c → Passes c f.1 →
    let size := f.2.1
    let w := profWriters c a o size
    (∀ ln ∈ activeLanes c, c.la a o size ln % size = 0 ∧ (c.localAt s (c.la a o size ln) size false).isSome) → w ≠ [] →
    (s.windowBusy c.world = true → exec f.1 s = .next (held c .waitSt s)) ∧
    (s.windowBusy c.world = false →
      (∃ p ∈ c.profiles s (attachData c d a o size f.2.2), profOk c.world (profAfter c d a o size f.2.2 p) = false) →
      exec f.1 s = .next (s.takeTrap c.b c.w c.p
        (c.trap 0x12 (some (maskOf fun k => w.contains k)) (BitVec.ofNat 64 (c.la a o size (w.headD 0))))))

/-- Where memory accesses trap. -/
def Obligations.AllAccessTraps : Prop := AccessTraps ∧ LocalAccessTraps ∧ ProfileWrites

/-! ### Copies (chapter 06) -/

/-- A copy in its core's unit and in its wave's open batch (R124). -/
def Sys2Proof.Machine.entered (c : Ctx) (x : Copy) (s : State) : State :=
  let n := c.wv.openBatch
  let pos := match c.wv.batches.find? fun y => y.num == n with | some y => y.copies | none => 0
  { s with copies := s.copies ++ [{ x with id := (s.copies.map Copy.id).foldl max 0 + 1, pos, batch := n
                                           wave := c.b * 32 + c.w, word := c.pa.word, pc := c.pa.pc }] }.modWv c.b c.w fun v =>
    { v with batches := { (v.batches.find? fun (y : Batch) => y.num == n).getD { num := n } with copies := pos + 1 } ::
                          v.batches.filter fun (y : Batch) => y.num != n }

/-- The operands of a CPY pass the checks of R139: alignment and length, the record, its permissions and extent, the local
range, the translations. -/
structure Sys2Proof.Machine.CopyOk (c : Ctx) (s s1 : State) (x : Copy) (rn : Nat) (rc : BitVec 320) : Prop where
  aligned : x.dst % 4 = 0 ∧ x.src % 4 = 0 ∧ x.len % 4 = 0 ∧ x.len ≠ 0
  record : c.record s rn = .ok rc s1
  formed : (rn ≠ 0 → recordMalformed rc = false) ∧ rbKind rc = 1
  sides : ∀ e ∈ [((fnSides x.fn).2, x.dst, Need.store), ((fnSides x.fn).1, x.src, Need.load)],
    (e.1 = .loc → e.2.1 + x.len ≤ c.sb) ∧
    (e.1 = .glob → rbPermits rc e.2.2 = true ∧
      (rn ≠ 0 → rbBase rc ≤ e.2.1 ∧ e.2.1 + x.len ≤ rbBase rc + rbExtent rc) ∧
      ∀ va ∈ spanVas e.2.1 x.len, ∃ ia, c.map s1 e.2.2 (BitVec.ofNat 64 va) = .ok ia)

/-- R124, R137 to R139: CPY enters its copy where the checks pass and its unit has room, and is held where it has none. -/
def Sys2Proof.Machine.CopyIssues : Prop :=
  ∀ (y : Bool) (d a b : BitVec 4) (s s1 : State) (c : Ctx) (rc : BitVec 320), At s c →
    ∀ e ∈ [(0, Instr.cpyGl y d a b), (1, .cpyLg y d a b), (2, .cpyGg y d a b)],
      let x : Copy := { fn := e.1, ops := c.copyWords e.1 d.toNat a.toNat b.toNat 1 }
      Passes c e.2 → CopyOk c s s1 x ((c.g b.toNat).toNat % 128) rc →
      (s1.unitLoad c.blk.core < 64 →
        exec e.2 s = .next (c.leave e.2 y (entered c { x with snap := rc.setWidth 512 } s1))) ∧
      (64 ≤ s1.unitLoad c.blk.core → exec e.2 s = .next (held c .batch s1))

/-- R123, R132, R138, R139: CPT with its operands aligned and room in its unit snapshots its shape record; a record that is not
valid, or a footprint outside the scratchpad, enters as a copy that fails. -/
def Sys2Proof.Machine.ShapedCopyIssues : Prop :=
  ∀ (y : Bool) (d a : BitVec 4) (b : BitVec 2) (s s1 : State) (c : Ctx) (r : BitVec 512), At s c →
    ∀ e ∈ [(3, Instr.cptGl y d a b), (4, .cptLg y d a b)],
      let x0 : Copy := { fn := e.1, ops := c.copyWords e.1 d.toNat a.toNat (4 * b.toNat) 4 }
      let x : Copy := { x0 with next := x0.first, snap := r }
      let la := (c.g d.toNat).toNat
      Passes c e.2 → la % 16 = 0 → x0.word64 2 % 64 = 0 → (c.g (d.toNat + 1)).toNat < 2 ^ 20 → s.unitLoad c.blk.core < 64 →
      c.shapeRecord s (BitVec.ofNat 64 (x0.word64 2)) = (.ok r, s1) → s1.unitLoad c.blk.core < 64 →
      exec e.2 s = .next (c.leave e.2 y (entered c
        (if shValid (e.1 == 3) r (x.org 0) = false then
          { x with code := 1, cause := 0x17, va := BitVec.ofNat 64 (x0.word64 2) }
         else if c.sb < la + shFoot r ∨ x.segs.length ≤ x.first then { x with code := 1, cause := 0x12 } else x) s1))

/-- R124, R129, R140 to R142: CPBATCH closes the open batch; CPWAIT writes every lane of its register with the failure latch, or
zero, once the batch has completed; RECFENCE empties the space's records from the record cache once SC is zero. -/
def Sys2Proof.Machine.BatchWordResults : Prop :=
  ∀ (y : Bool) (d : Field) (a : BitVec 4) (s : State) (c : Ctx), At s c →
    let n := c.bc a
    let va := c.bc64 a
    (Passes c (.cpbatch y 0) →
      exec (.cpbatch y 0) s = .next (c.leave (.cpbatch y 0) y (s.modWv c.b c.w fun v => v.closeBatch none))) ∧
    (Passes c (.cpbatch y a) → a ≠ 0 → va.toNat % 32 = 0 → ∀ ia, c.map s .store va = .ok ia →
      exec (.cpbatch y a) s = .next (c.leave (.cpbatch y a) y (s.modWv c.b c.w fun v => v.closeBatch (some (va.toNat, ia))))) ∧
    (Passes c (.cpwait y d a) → (n - BitVec.ofNat 32 (c.wv.openBatch - 1)).toInt ≤ 0 → (c.wv.batchDone - n).toInt < 0 →
      exec (.cpwait y d a) s = .next (held c .batch s)) ∧
    (Passes c (.cpwait y d a) → (n - BitVec.ofNat 32 (c.wv.openBatch - 1)).toInt ≤ 0 → 0 ≤ (c.wv.batchDone - n).toInt →
      (∀ b code, c.wv.latch = some (b, code) → 0 ≤ (n - BitVec.ofNat 32 b).toInt →
        exec (.cpwait y d a) s = .next (c.leave (.cpwait y d a) y (c.writeVAll d.toNat
          (fun _ => BitVec.ofNat 32 (b % 2 ^ 24 * 256 + code)) (s.modWv c.b c.w fun v => { v with latch := none })))) ∧
      ((∀ b code, c.wv.latch = some (b, code) → (n - BitVec.ofNat 32 b).toInt < 0) →
        exec (.cpwait y d a) s = .next (c.leave (.cpwait y d a) y (c.writeVAll d.toNat (fun _ => 0) s)))) ∧
    (Passes c (.recfence y) → c.wv.sc = 0 →
      exec (.recfence y) s = .next (c.leave (.recfence y) y (s.modCore c.blk.core fun k =>
        { k with recs := k.recs.filter fun e => e.1 / 2 ^ 64 != c.asid
                 shapes := k.shapes.filter fun e => e.1 / 2 ^ 64 != c.asid }))) ∧
    (Passes c (.recfence y) → c.wv.sc ≠ 0 → exec (.recfence y) s = .next (held c .waitSt s))

/-! ### The matrix engine (chapter 11) -/

/-- R240, R247, R248: an MMA of a wave with a quorum waits at the saddle latch with its word, tile descriptor and quorum; one that
has been found to wait for the queue goes on doing so. That MC is raised at the release and not here is the model's reading (log
entry 53). -/
def Sys2Proof.Machine.MatrixMultiplyArrives : Prop :=
  ∀ (y : Bool) (d : BitVec 4) (a b : Field) (s : State) (c : Ctx) (f : Nat), At s c →
    ∀ e ∈ [(0, Instr.mmaE4m3 y d a b), (1, .mmaE5m2 y d a b), (2, .mmaBf16 y d a b), (3, .mmaF16 y d a b),
        (4, .mmaMxe4m3 y d a b), (5, .mmaMxe2m3 y d a b), (6, .mmaMxe2m1 y d a b), (7, .mmaS8 y d a b)],
      let run := if 4 ≤ e.1 ∧ e.1 ≤ 6 then 17 else 16
      let q := c.wv.quorum
      let desc := c.g d.toNat
      Passes c e.2 → c.wv.roleRun c.w a.toNat b.toNat = some f → c.wordRunIll (info e.2) f run false = false → c.runXreg f run = false →
      tdOk desc c.trows (64 * (qrA q).length) (64 * (qrB q).length) = true →
      (c.wv.paths.filter Path.live).length ≤ 1 → (∀ w ∈ qrMembers q, (s.wv c.b w).st = .live) →
      (c.wv.mc < 63 →
        exec e.2 s = .next (held c (if c.wv.saddle.isSome ∧ c.pa.blocked = some .waitMx then .waitMx else .quorum)
          (s.modWv c.b c.w fun v => { v with saddle := some (c.pa.word, desc, q) }))) ∧
      (63 ≤ c.wv.mc → exec e.2 s = .next (held c .waitMx s))

/-- A matrix operation accepted: its wave's MC is raised, and it stands at the end of the core's queue (R248). -/
def Sys2Proof.Machine.accepted (c : Ctx) (op : AsyncOp) (s : State) : State :=
  (c.startOp { op with ctr := .mc } s).modCore c.blk.core fun k =>
    { k with matq := k.matq ++ [{ block := c.b, waves := [(c.w, c.wv.nextOp)], kind := op.kind, lanes := op.lanes }] }

/-- The word is accepted where the queue has room and MC is below 63, else held (R25, R248). -/
def Sys2Proof.Machine.Accepts (i : Instr) (y : Bool) (c : Ctx) (s : State) (op : AsyncOp) : Prop :=
  ((s.core c.blk.core).matq.length < 16 → c.wv.mc < 63 → exec i s = .next (c.leave i y (accepted c op s))) ∧
  ((16 ≤ (s.core c.blk.core).matq.length ∨ 63 ≤ c.wv.mc) → exec i s = .next (held c .waitMx s))

/-- R238, R251 to R256: TILE. TLD and TST move one register run per active lane, to the highest active lane's row; TLDG, TSTG,
TZERO and TCVT act on a region that lies in the tile store. A descriptor with a reserved bit, or a block without tile rows, raises
RANGE whatever the EXM. -/
def Sys2Proof.Machine.TileWordsAccepted : Prop :=
  ∀ (y : Bool) (d : Field) (dr a b n : BitVec 4) (s : State) (c : Ctx), At s c →
    let desc := c.bc a
    let count := n.toNat + 1
    let region := c.bc dr
    let ctl := c.bc b
    let rows := ctl.toNat / 256 % 256 + 1
    let cols := ctl.toNat % 256 + 1
    let plain := ctl.toNat < 2 ^ 16 ∧ region.toNat < 2 ^ 22 ∧ tdOk region c.trows rows cols = true
    (∀ e ∈ [(false, Instr.tld y d a n), (true, .tst y d a n)], Passes c e.2 →
      (activeLanes c = [] → desc.toNat < 2 ^ 23 → c.trows ≠ 0 → ∃ t, exec e.2 s = .next t ∧ Moved s t c y (c.nextPos 0)) ∧
      (2 ^ 23 ≤ desc.toNat ∨ c.trows = 0 →
        exec e.2 s = .next (s.takeTrap c.b c.w c.p (c.trap 0x12 none (desc.setWidth 64)))) ∧
      ∀ top, (activeLanes c).getLast? = some top → tdOk desc c.trows (top + 1) count = true →
        Accepts e.2 y c s
          { kind := if e.1 then .tst desc count else .tld desc count, nregs := count
            lanes := (activeLanes c).map fun ln =>
              { lane := ln, dst := d.toNat, data := if e.1 then c.runData false d count ln else 0 } }) ∧
    (∀ e ∈ [(false, Instr.tldg y dr a b), (true, .tstg y dr a b)],
      let va := c.bc64 a
      let ctl := c.g b.toNat
      let pitch := (c.g (b.toNat + 1)).toNat
      let vas := (List.range rows).flatMap fun r => spanVas (va.toNat + r * pitch) (4 * cols)
      ∀ ia : Nat → Nat, Passes c e.2 → ctl.toNat < 2 ^ 16 → region.toNat < 2 ^ 22 → tdOk region c.trows rows cols = true →
        va.toNat % 4 = 0 → pitch % 4 = 0 → (rows = 1 ∨ 4 * cols ≤ pitch) →
        (∀ x ∈ vas, c.map s (if e.1 then .store else .load) (BitVec.ofNat 64 x) = .ok (ia x)) →
        let gmap := (vas.map fun x => (x % 2 ^ 64 / 65536, ia x / 65536)).dedup
        Accepts e.2 y c s
          { kind := if e.1 then .tstg region rows cols pitch else .tldg region rows cols pitch, uniform := true
            lanes := [{ lane := 0, va, addr := va, ia := iaOf gmap va.toNat, aux := gmap.flatMap fun e => [e.1, e.2] }] }) ∧
    (Passes c (.tzero y dr b) → plain →
      Accepts (.tzero y dr b) y c s { kind := .tzero region rows cols, lanes := [{}] }) ∧
    (let fmt := ctl.toNat / 2 ^ 16 % 4
     Passes c (.tcvt y dr a b) → ctl.toNat < 2 ^ 19 → region.toNat < 2 ^ 22 → desc.toNat < 2 ^ 22 →
      tdOk region c.trows rows (tcvtCols fmt cols) = true → tdOk desc c.trows rows cols = true →
      Accepts (.tcvt y dr a b) y c s { kind := .tcvt region desc rows cols fmt (bitAt ctl 18), lanes := [{}] })

/-- A value that QSET may write (R239, R258): zero, or a quorum of distinct waves of the block, each role set's repeats at its
end, the issuing wave among them, all of the matrix role where roles are in force. -/
def Sys2Proof.Machine.QuorumValue (c : Ctx) (q : Word) : Prop :=
  let f (lo : Nat) : Nat := q.toNat / 2 ^ lo % 32
  let ms := qrA q ++ qrB q
  if q.getLsbD 31 = false then q = 0
  else q.getLsbD 30 = false ∧ (∀ w ∈ ms, w < c.nw) ∧ ms.Nodup ∧ c.w ∈ ms ∧
    (f 15 ≠ f 20 → f 20 ≠ f 25) ∧ (f 0 ≠ f 5 → f 5 ≠ f 10) ∧
    (recRV c.lr = true → ∀ w ∈ ms, recNF c.lr ≤ w ∧ w < recNF c.lr + recNM c.lr)

/-- R257 to R260: MQ. QSET sets QUORUMREG and clears the arrival count, or raises RANGE; QARR counts an arrival once MC is zero,
and ends the waits that have what they wait for; QWAIT goes on when every member has arrived as often as the wave, and raises QUORUM where
one has retired; QDROP clears QUORUMREG. QWAIT's phases are the model's own (log entry 53). -/
def Sys2Proof.Machine.QuorumWordResults : Prop :=
  ∀ (y : Bool) (a : BitVec 4) (s : State) (c : Ctx), At s c →
    let q := c.bc a
    let ms := qrMembers c.wv.quorum
    (Passes c (.qset y a) → QuorumValue c q →
      exec (.qset y a) s = .next (c.leave (.qset y a) y
        ((s.modWv c.b c.w fun v => { v with quorum := q, qarr := 0 }).quorumBreak c.b 64 [c.w]))) ∧
    (Passes c (.qset y a) → ¬QuorumValue c q →
      exec (.qset y a) s = .next (s.takeTrap c.b c.w c.p (c.trap 0x12 none (q.setWidth 64)))) ∧
    (Passes c (.qarr y) → c.wv.quorum.getLsbD 31 = true → c.wv.mc = 0 →
      exec (.qarr y) s = .next (c.leave (.qarr y) y ((s.modWv c.b c.w fun v => { v with qarr := (v.qarr + 1) % 2 ^ 32 }).quorumMet c.b))) ∧
    (Passes c (.qwait y) → (c.pa.phase = 2 ∨ ms ≠ [] ∧ ∀ w ∈ ms, (s.wv c.b w).st = .live ∧ c.wv.qarr ≤ (s.wv c.b w).qarr) →
      ∃ t, exec (.qwait y) s = .next t ∧ Moved s t c y (c.nextPos 0)) ∧
    (Passes c (.qwait y) → c.pa.phase ≠ 2 → (∃ w ∈ ms, (s.wv c.b w).st ≠ .live) →
      exec (.qwait y) s = .next (s.takeTrap c.b c.w c.p (c.trap 0x21))) ∧
    (Passes c (.qwait y) → c.pa.phase ≠ 2 → ms ≠ [] → (∃ w ∈ ms, (s.wv c.b w).qarr < c.wv.qarr) → (∀ w ∈ ms, (s.wv c.b w).st = .live) →
      exec (.qwait y) s = .next (fenceHeld c .quorum (s.modPath c.b c.w c.p fun p => { p with phase := 1 }))) ∧
    (Passes c (.qdrop y) → c.wv.mc = 0 →
      exec (.qdrop y) s = .next (c.leave (.qdrop y) y
        ((s.modWv c.b c.w fun v => { v with quorum := 0 }).quorumBreak c.b 64 [c.w]))) ∧
    (∀ i, i = .qarr y ∧ c.wv.quorum.getLsbD 31 = true ∨ i = .qdrop y → Passes c i → c.wv.mc ≠ 0 → exec i s = .next (held c .waitMx s)) ∧
    (∀ i, i = .qarr y ∨ i = .qwait y ∧ c.pa.phase ≠ 2 → Passes c i → c.wv.quorum.getLsbD 31 = false →
      exec i s = .next (s.takeTrap c.b c.w c.p (c.trap 0x21)))

/-- Copies and their batches. -/
def Obligations.CopyAndBatchIssues : Prop := CopyIssues ∧ ShapedCopyIssues ∧ BatchWordResults

/-- Matrix, tile and quorum words. MC's rise at the release and QWAIT's phases are the model's readings (log entry 53), as is that TLD and
TST with EXM 0 check their descriptor and do nothing more (log entry 54). -/
def Obligations.MatrixAndQuorumResults : Prop := MatrixMultiplyArrives ∧ TileWordsAccepted ∧ QuorumWordResults

/-! ### Co-processors (chapter 12) -/

/-- A co-processor instruction starts `op` where its unit `u` holds fewer than 64 (R262), and is held where it does not. -/
def Sys2Proof.Machine.UnitStarts (i : Instr) (y : Bool) (c : Ctx) (u : Nat) (op : AsyncOp) (s1 : State) (s : State) (after : State → State) : Prop :=
  (64 ≤ s1.unitOps c.blk.core u → exec i s = .next (held c .waitCo s1)) ∧
  (s1.unitOps c.blk.core u < 64 →
    (c.wv.ctr op.ctr < 63 → exec i s = .next (c.leave i y (after (c.startOp op s1)))) ∧
    (63 ≤ c.wv.ctr op.ctr → exec i s = .next (held c op.ctr.stall s1)))

/-- The words of a lane's operand run, and for the forms that take differences those of its quad (R270). -/
def Sys2Proof.Machine.texWords (c : Ctx) (a : Field) (n : Nat) (quad : Bool) (ln : Nat) : List Word :=
  (List.range 6).map (fun j => if j < n then c.v ln a.toNat j else 0) ++
    if quad then (List.range 4).map (fun k => c.v (ln / 4 * 4 + k) a.toNat 0) ++
      (List.range 4).map fun k => c.v (ln / 4 * 4 + k) a.toNat 1
    else []

/-- Words packed lowest first. -/
def Sys2Proof.Machine.packed (ws : List Word) : BitVec 512 := BitVec.ofNat 512 (ws.zipIdx.foldl (fun x e => x + e.1.toNat * 2 ^ (32 * e.2)) 0)

/-- R42, R149, R262, R358: the registers that SAMP and SAMPB read of the quads' lanes in a melded region are in the wave's set,
and its own where they are in the extended set. -/
def Sys2Proof.Machine.quadFree (c : Ctx) (fn : Nat) (a : Field) : Prop :=
  c.quadIll fn a = false ∧ (c.holdsLock = true ∨ ∀ x ∈ c.quadRegs fn a, x + 2 ≤ c.B)

/-- R42, R149: SAMP and SAMPB where they are not: ILL, and XREG. -/
def Sys2Proof.Machine.QuadTraps : Prop :=
  ∀ (y : Bool) (d a r : Field) (s : State) (c : Ctx), At s c → ∀ e ∈ [(0, Instr.samp y d a r), (2, .sampb y d a r)], Passes c e.2 →
    (c.quadIll e.1 a = true → exec e.2 s = .next (s.takeTrap c.b c.w c.p (c.trap 0x01))) ∧
    (c.quadIll e.1 a = false → ¬ quadFree c e.1 a → exec e.2 s = .next (s.takeTrap c.b c.w c.p (c.trap 0x05)))

/-- R261, R262, R269, R270, R274, R281: TEX whose image record is well-formed and readable, its pages' translations in the
space. RESQ's results are known at issue. -/
def Sys2Proof.Machine.TextureWordsStart : Prop :=
  ∀ (y : Bool) (d a r : Field) (s s1 : State) (c : Ctx) (rc : BitVec 320), At s c → c.record s r.toNat = .ok rc s1 → imOk rc = true →
    ∀ e ∈ [(0, Instr.samp y d a r, 2, 4), (1, .sampg y d a r, 6, 4), (2, .sampb y d a r, 3, 4), (3, .fetch y d a r, 3, 4),
        (4, .fetchf y d a r, 3, 5), (5, .gath4 y d a r, 3, 4), (6, .resq y d a r, 1, 4)],
      let fn : Nat := e.1
      let pages := (List.range (imLp rc (imLevels rc))).map (fun k => rbBase rc + k * 65536) ++
        if imLod rc then spanVas (imMapva rc) ((imLp rc (imLevels rc) + 7) / 8) else []
      Passes c e.2.1 → quadFree c fn a → (fn ≠ 6 → rbRD rc = true) →
      (activeLanes c = [] → exec e.2.1 s = .next (c.leave e.2.1 y s1)) ∧
      (activeLanes c ≠ [] → (fn ≠ 6 → ∀ va ∈ pages, ∃ ia, c.map s1 .load (BitVec.ofNat 64 va) = .ok ia) →
        UnitStarts e.2.1 y c 1
          { ctr := .cc, kind := .tex fn rc, nregs := e.2.2.2
            lanes := (activeLanes c).map fun ln =>
              let o : LaneOp :=
                { lane := ln, va := BitVec.ofNat 64 (rbBase rc), dst := c.vreg ln d.toNat
                  data := packed (texWords c a e.2.2.1 (fn == 0 || fn == 2) ln) }
              let level := (c.v ln a.toNat 0).toNat
              if fn = 6 then
                { o with
                  st := .ready
                  res := [if level < imLevels rc then BitVec.ofNat 32 (imW rc level) else 0,
                          if level < imLevels rc then BitVec.ofNat 32 (imH rc level) else 0,
                          BitVec.ofNat 32 (imLevels rc), BitVec.ofNat 32 (imTfmt rc)] }
              else o } s1 s id)

/-- R282 to R285: traversal. RAYLD keeps each active lane's ray, an invalid one with a NaN tmin; BOXT and TRIT start where every
active node address is aligned and mapped; STKINIT describes the stack. -/
def Sys2Proof.Machine.TraversalWordResults : Prop :=
  ∀ (y : Bool) (d a : Field) (ar br : BitVec 4) (s : State) (c : Ctx), At s c →
    let room := s.unitOps c.blk.core 2 < 64
    (Passes c (.rayld y a) → room →
      exec (.rayld y a) s = .next (c.leave (.rayld y a) y (s.modWv c.b c.w fun v =>
        { v with rays := (activeLanes c).map (fun ln =>
            let ray := (List.range 8).map fun j => c.v ln a.toNat j
            (ln, if rayOk ray then ray else ray.set 6 0x7FC00000)) ++ v.rays.filter fun e => !(activeLanes c).contains e.1 }))) ∧
    (∀ e ∈ [(Instr.boxt y d a, OpKind.boxt, 64, 192, 10), (.trit y d a, .trit, 16, 36, 4)],
      let va (ln : Nat) : DWord := c.v ln a.toNat 1 ++ c.v ln a.toNat 0
      Passes c e.1 →
      (activeLanes c = [] → ∃ t, exec e.1 s = .next t ∧ Moved s t c y (c.nextPos 0)) ∧
      (activeLanes c ≠ [] → (∀ ln ∈ activeLanes c, (va ln).toNat % e.2.2.1 = 0) →
        (∀ ln ∈ activeLanes c, ∃ ia ib, c.map s .load (va ln) = .ok ia ∧
          c.map s .load (va ln + BitVec.ofNat 64 (e.2.2.2.1 - 1)) = .ok ib) →
        UnitStarts e.1 y c 2
          { ctr := .cc, kind := e.2.1, nregs := e.2.2.2.2
            lanes := (activeLanes c).map fun ln =>
              { lane := ln, va := va ln, addr := va ln, dst := c.vreg ln d.toNat, data := packed (c.wv.ray ln) } } s s id)) ∧
    (let ctl := c.bc br
     let n := ctl.toNat % 32 + 1
     let spill := ctl.toNat / 2 ^ 16
     let va := c.bc64 ar
     Passes c (.stkinit y d ar br) → c.pa.mode = .plain → c.runIll d.toNat n false = false → c.runXreg d.toNat n = false →
      va.toNat % 128 = 0 → ctl.toNat / 32 % 2 ^ 11 = 0 →
      (∀ k, k < spill → ∀ need ∈ [Need.load, .store], ∃ ia, c.map s need (BitVec.ofNat 64 (va.toNat + 128 * k)) = .ok ia) →
      room → exec (.stkinit y d ar br) s = .next (c.leave (.stkinit y d ar br) y (s.modWv c.b c.w fun v =>
        { v with stkInit := true, stkReg := d.toNat, stkCtl := ctl, stkSpill := va, stkDepth := [] })))

/-- R285: a lane's push goes to register depth, or past the stack's registers to its word of the spill area; a pop comes from
there, and from an empty stack gives all ones. A push on a full stack, or without STKINIT, raises RANGE; a stack that reaches the extended set
without the lock raises XREG, and a spill entry that R63 refuses its trap. -/
def Sys2Proof.Machine.StackWordResults : Prop :=
  ∀ (y : Bool) (d a : Field) (s : State) (c : Ctx), At s c →
    let n := stkN c.wv.stkCtl
    let depth (ln : Nat) : Nat := SMap.get 0 c.wv.stkDepth ln
    let slot (ln e : Nat) : Nat := (c.wv.stkSpill.toNat + ((e - n) * 32 + ln) * 4) % 2 ^ 64
    let full := (activeLanes c).filter fun ln => depth ln == n + stkSpillN c.wv.stkCtl
    let mine := c.holdsLock = true ∨ c.wv.stkReg + n ≤ c.B
    let reach (need : Need) (e : Nat → Nat) (ln : Nat) : Except Nat Nat := c.map s need (BitVec.ofNat 64 (slot ln (e ln)))
    let pushed : List Nat := (activeLanes c).filter fun ln => decide (n ≤ depth ln)
    let popped : List Nat := (activeLanes c).filter fun ln => decide (depth ln ≠ 0 ∧ n ≤ depth ln - 1)
    let faults (i : Instr) (need : Need) (lanes : List Nat) (e : Nat → Nat) : Prop :=
      ∀ ln code, ln ∈ lanes → reach need e ln = .error code → (∀ k ∈ lanes, k < ln → ∃ ia, reach need e k = .ok ia) →
        exec i s = .next (s.takeTrap c.b c.w c.p
          (c.trap code (some (maskOf fun k => lanes.contains k && match reach need e k with | .error x => x == code | .ok _ => false))
            (BitVec.ofNat 64 (slot ln (e ln)))))
    (∀ i ∈ [Instr.stkpush y a, .stkpop y d], Passes c i →
      (activeLanes c = [] → ∃ t, exec i s = .next t ∧ Moved s t c y (c.nextPos 0)) ∧
      (activeLanes c ≠ [] → c.wv.stkInit = false → exec i s = .next (s.takeTrap c.b c.w c.p (c.trap 0x12 (some c.pa.exm)))) ∧
      (activeLanes c ≠ [] → c.wv.stkInit = true → ¬mine → exec i s = .next (s.takeTrap c.b c.w c.p (c.trap 0x05)))) ∧
    (Passes c (.stkpush y a) → c.wv.stkInit = true → mine → full ≠ [] →
      exec (.stkpush y a) s = .next (s.takeTrap c.b c.w c.p (c.trap 0x12 (some (maskOf full.contains))))) ∧
    (Passes c (.stkpush y a) → c.wv.stkInit = true → mine → full = [] → faults (.stkpush y a) .store pushed depth) ∧
    (Passes c (.stkpop y d) → c.wv.stkInit = true → mine →
      faults (.stkpop y d) .load popped fun ln => depth ln - 1) ∧
    (∀ ia : Nat → Nat, Passes c (.stkpush y a) → activeLanes c ≠ [] → c.wv.stkInit = true → mine → full = [] →
      (∀ ln ∈ pushed, reach .store depth ln = .ok (ia ln)) →
      UnitStarts (.stkpush y a) y c 2
        { ctr := .cc, kind := .stkPush, nregs := 1
          lanes := (activeLanes c).map fun ln =>
            let x := c.src a ln 0
            if depth ln < n then { lane := ln, dst := c.wv.stkReg + depth ln, data := x.setWidth 512, aux := [c.wv.stkReg + depth ln] }
            else { lane := ln, va := BitVec.ofNat 64 (slot ln (depth ln)), data := x.setWidth 512, ia := ia ln } }
        s s fun t => t.modWv c.b c.w fun v =>
          { v with stkDepth := (activeLanes c).foldl (fun m ln => SMap.put 0 m ln (depth ln + 1)) v.stkDepth }) ∧
    (∀ ia : Nat → Nat, Passes c (.stkpop y d) → activeLanes c ≠ [] → c.wv.stkInit = true → mine →
      (∀ ln ∈ popped, reach .load (fun ln => depth ln - 1) ln = .ok (ia ln)) →
      UnitStarts (.stkpop y d) y c 2
        { ctr := .cc, kind := .stkPop, nregs := 1
          lanes := (activeLanes c).map fun ln =>
            let o : LaneOp := { lane := ln, dst := c.vreg ln d.toNat }
            let e := depth ln - 1
            if depth ln = 0 then { o with st := .ready, res := [0xFFFFFFFF] }
            else if e < n then { o with aux := [c.wv.stkReg + e] }
            else { o with va := BitVec.ofNat 64 (slot ln e), ia := ia ln } }
        s s fun t => t.modWv c.b c.w fun v =>
          { v with stkDepth := (activeLanes c).foldl (fun m ln => SMap.put 0 m ln (depth ln - 1)) v.stkDepth })

/-- R289 to R291: FRAG opens its job and asks for a batch in all 32 lanes; COVER answers from its wave's job at issue, once its FRAG has
been served, and raises RANGE where no such job is open; ORDB goes on once no earlier fragment of its pixels holds a place, and acquires; ORDE
releases and gives the places back. With EXM 0 ORDB and ORDE have no effect. -/
def Sys2Proof.Machine.RasterWordResults : Prop :=
  ∀ (y : Bool) (d a : Field) (ar : BitVec 4) (s : State) (c : Ctx), At s c → c.pa.mode = .plain → recWatch c.lr = false →
    let va := c.bc64 ar
    let jobs := (s.core c.blk.core).rjobs
    let known := jobs.any (isJob c.asid va.toNat)
    (Passes c (.frag y d ar) → (known = true ∨ jobs.length < 4) →
      UnitStarts (.frag y d ar) y c 3
        { ctr := .cc, kind := .frag, nregs := 3, lanes := (List.range 32).map fun ln => { lane := ln, va, dst := d.toNat } } s s
        fun t =>
          let t := t.modWv c.b c.w fun v => { v with rjob := some va.toNat }
          if known then t
          else t.modCore c.blk.core fun k => { k with rjobs := k.rjobs ++ [{ asid := c.asid, va := va.toNat }] }) ∧
    (Passes c (.frag y d ar) → known = false → 4 ≤ jobs.length → exec (.frag y d ar) s = .next (held c .waitCo s)) ∧
    (∀ i ∈ [Instr.cover y d a, .ordbPx y, .ordbSmp y, .orde y], Passes c i → c.pa.exm ≠ 0 → c.wv.fragPending = true →
      exec i s = .next (held c .waitCo s)) ∧
    (∀ i ∈ [Instr.ordbPx y, .ordbSmp y, .orde y], Passes c i → c.pa.exm ≠ 0 → 64 ≤ s.unitOps c.blk.core 3 →
      exec i s = .next (held c .waitCo s)) ∧
    (∀ i ∈ [Instr.cover y d a, .ordbPx y, .ordbSmp y, .orde y], Passes c i → c.pa.exm = 0 →
      ∃ t, exec i s = .next t ∧ Moved s t c y (c.nextPos 0)) ∧
    (Passes c (.cover y d a) → c.pa.exm ≠ 0 → c.wv.fragPending = false →
      (∀ job, c.wv.rjob = some job → ∀ j ∈ jobs, isJob c.asid job j = true → j.started = false) →
      exec (.cover y d a) s = .next (s.takeTrap c.b c.w c.p (c.trap 0x12 (some c.pa.exm)))) ∧
    (Passes c (.cover y d a) → c.pa.exm ≠ 0 → c.wv.fragPending = false →
      ∀ job j, c.wv.rjob = some job → jobs.find? (fun j => isJob c.asid job j && j.started) = some j →
        UnitStarts (.cover y d a) y c 3
          { ctr := .cc, kind := .cover, nregs := 4
            lanes := (activeLanes c).map fun ln =>
              { lane := ln, dst := c.vreg ln d.toNat, st := .ready
                res := j.coverLane (c.v ln a.toNat 0).toNat (c.v ln a.toNat 1).toNat } } s s id) ∧
    (∀ e ∈ [(false, Instr.ordbPx y), (true, .ordbSmp y)], Passes c e.2 → c.pa.exm ≠ 0 → s.unitOps c.blk.core 3 < 64 → c.wv.fragPending = false →
      let waits := c.activeFrags.any fun f => s.ordered c.blk.core c.asid f e.1
      (waits = true → exec e.2 s = .next (fenceHeld c .ordered s)) ∧
      (waits = false → c.wv.lc = 0 →
        exec e.2 s = .next (c.leave e.2 y ((acqState c 2 s).modWv c.b c.w fun v => { v with lastAtom := none })))) ∧
    (Passes c (.orde y) → c.pa.exm ≠ 0 → s.unitOps c.blk.core 3 < 64 → c.wv.fragPending = false → c.wv.relReady = true →
      exec (.orde y) s = .next (c.leave (.orde y) y ((((relState c 2 s).modWv c.b c.w fun v =>
        { v with frags := v.frags.map fun f => if c.active f.lane then { f with places := 0 } else f }).modWv c.b c.w
          fun v => { v with lastAtom := none }).closeJobs c.blk.core)))

/-! ### The shading cache (chapter 13) -/

/-- A per-lane SHC action on operands of `bits` bits (R315, R318, R319). -/
def Sys2Proof.Machine.ShadeLanes (i : Instr) (y : Bool) (d a : Field) (kind : OpKind) (bits nd : Nat) : Prop :=
  ∀ (s : State) (c : Ctx), At s c → Passes c i →
    let x (ln : Nat) : DWord := if bits = 24 then (c.src a ln 0).setWidth 64 else c.opnd64 false a ln
    (activeLanes c = [] → ∃ t, exec i s = .next t ∧ Moved s t c y (c.nextPos 0)) ∧
    (activeLanes c ≠ [] → (∀ ln ∈ activeLanes c, (x ln).toNat < 2 ^ bits) →
      UnitStarts i y c 4
        { ctr := .cc, kind, nregs := nd
          lanes := (activeLanes c).map fun ln => { lane := ln, addr := x ln, dst := c.vreg ln d.toNat } } s s id) ∧
    ∀ ln rest, (activeLanes c).filter (fun ln => decide (2 ^ bits ≤ (x ln).toNat)) = ln :: rest →
      exec i s = .next (s.takeTrap c.b c.w c.p (c.trap 0x12 (some (maskOf fun k => (ln :: rest).contains k)) (x ln)))

/-- R304, R314 to R320: SHC. SCPUB and SCABORT need a shade-stage wave, SCTICK the clock's world; SCPUB first releases. SCWAIT
goes on with its tokens' outcomes. -/
def Obligations.ShadingWordResults : Prop :=
  ∀ (y : Bool) (d a : Field) (r : BitVec 4),
    ShadeLanes (.scq y d a) y d a .scq 56 4 ∧ ShadeLanes (.scinv y d a) y d a .scinv 24 1 ∧
    ShadeLanes (.scpin y d a) y d a .scpin 56 1 ∧ ShadeLanes (.scunpin y d a) y d a .scunpin 56 1 ∧
    ∀ (s : State) (c : Ctx), At s c → c.pa.mode = .plain → recWatch c.lr = false →
      let every (kind : OpKind) (nregs : Nat) (d : Field) (x : Word) : AsyncOp :=
        { ctr := .cc, kind, nregs, lanes := (List.range 32).map fun ln => { lane := ln, addr := x.setWidth 64, dst := d.toNat } }
      (Passes c (.scabort y d r) → c.shade = true →
        UnitStarts (.scabort y d r) y c 4 (every .scabort 1 d (c.bc r)) s s id) ∧
      (Passes c (.scpub y d r) → c.shade = true → c.wv.relReady = true → s.unitOps c.blk.core 4 < 64 → c.wv.cc < 63 →
        exec (.scpub y d r) s = .next (c.leave (.scpub y d r) y (c.startOp (every .scpub 1 d (c.bc r))
          ((relState c 2 s).modWv c.b c.w fun v => { v with lastAtom := none })))) ∧
      (∀ i ∈ [Instr.scpub y d r, .scabort y d r], Passes c i → c.shade = false →
        exec i s = .next (s.takeTrap c.b c.w c.p (c.trap 0x11))) ∧
      (Passes c (.sctick y) → c.world = s.shade.clockw → UnitStarts (.sctick y) y c 4 (every .sctick 0 0 0) s s id) ∧
      (Passes c (.sctick y) → c.world ≠ s.shade.clockw → exec (.sctick y) s = .next (s.takeTrap c.b c.w c.p (c.trap 0x11))) ∧
      (Passes c (.scwait y d a) → activeLanes c = [] → ∃ t, exec (.scwait y d a) s = .next t ∧ Moved s t c y (c.nextPos 0)) ∧
      (Passes c (.scwait y d a) → activeLanes c ≠ [] → c.pa.phase = 2 → (∀ e ∈ c.wv.scwait, e.2.2 ≠ none) → c.wv.cc < 63 →
        exec (.scwait y d a) s = .next (c.leave (.scwait y d a) y ((c.startOp
          { ctr := .cc, kind := .scq, phase := 1, nregs := 1
            lanes := c.wv.scwait.map fun e =>
              { lane := e.1, dst := d.toNat, st := .ready, res := [BitVec.ofNat 32 (e.2.2.getD 7)] } } s).modWv c.b c.w
          fun v => { v with scwait := [], scKeys := [] }))) ∧
      (Passes c (.scwait y d a) → activeLanes c ≠ [] → c.pa.phase = 2 → (∃ e ∈ c.wv.scwait, e.2.2 = none) →
        exec (.scwait y d a) s = .next (fenceHeld c .token s))

/-! ### TASK and PRIV (chapters 16, 03 and 20) -/

/-- An operation that executes once and answers register `d` in all 32 lanes, on LC (R385). -/
def Sys2Proof.Machine.onceOp (kind : OpKind) (d : Field) (va : DWord) (ia : Nat) (x : Word) : AsyncOp :=
  { ctr := .lc, kind, nregs := 1
    lanes := (List.range 32).map fun ln => { lane := ln, va, ia, addr := va, data := x.setWidth 512, dst := d.toNat } }

/-- R385 to R387: TASK with its VA aligned and mapped. TLAUNCH takes its kind from its control word. -/
def Sys2Proof.Machine.TaskWordsStart : Prop :=
  ∀ (y : Bool) (d : Field) (a b : BitVec 4) (s : State) (c : Ctx) (ia : Nat), At s c →
    let va := c.bc64 a
    let x := c.bc b
    (∀ i ∈ [Instr.tlaunch y d a b, .tlaunchJob y d a b], Passes c i → x.toNat < 16 → c.map s .load va = .ok ia →
      (x.toNat % 2 = 0 → va.toNat % 256 = 0 → Starts i y c s [0] (onceOp .tlaunch d va ia x) s s id) ∧
      (x.toNat % 2 = 1 → va.toNat % 32 = 0 → Starts i y c s [0] (onceOp (.tlaunchJob (x.toNat / 2)) d va ia x) s s id)) ∧
    (Passes c (.tdec y d a b) → x.toNat < 2 ^ 16 → va.toNat % 32 = 0 → c.map s (.atomic true) va = .ok ia →
      Starts (.tdec y d a b) y c s [0] (onceOp (.tdec x.toNat) d va ia x) s s id) ∧
    (∀ e ∈ [(Instr.tcancel y d a, OpKind.tcancel), (.tstat y d a, .tstat)], Passes c e.1 → va.toNat % 32 = 0 →
      c.map s (.atomic true) va = .ok ia → Starts e.1 y c s [0] (onceOp e.2 d va ia 0) s s id) ∧
    (∀ e ∈ [(Instr.tdec y d a b, 32), (.tcancel y d a, 32), (.tstat y d a, 32)], Passes c e.1 → x.toNat < 2 ^ 16 →
      va.toNat % e.2 ≠ 0 → exec e.1 s = .next (s.takeTrap c.b c.w c.p (c.trap 0x13 none va)))

/-- A PRIV operation that answers nothing and counts on SC. -/
def Sys2Proof.Machine.silentOp (kind : OpKind) (addr : DWord) (phase : Nat) : AsyncOp :=
  { ctr := .sc, kind, phase, lanes := [{ lane := 0, va := addr, addr }] }

/-- An IA operand that R84 accepts: in the wave's own region, outside its direct window, bits 63:52 zero. -/
def Sys2Proof.Machine.OwnIA (c : Ctx) (ia : DWord) : Prop :=
  ia.toNat / 2 ^ 48 % 16 = c.world ∧ ia.toNat / 2 ^ 44 % 16 ≠ 15 ∧ ia.toNat < 2 ^ 52

/-- R84 to R89, R439: PRIV with operands that pass its checks. INVR and REPLAY count on SC; PIN, UNPIN, FRPOP, MIGR, DBGHALT and
DBGRES answer a register. An INVR of range descriptors takes COUNT 0 only where GRAN is 3. -/
def Sys2Proof.Machine.PrivilegedWordsStart : Prop :=
  ∀ (y : Bool) (d : Field) (a b : BitVec 4) (s : State) (c : Ctx), At s c →
    let ctl := c.bc b
    let n := ctl.toNat
    let ia := c.bc64 a
    let own := n / 2 ^ 12 % 16 = c.world
    (∀ i ∈ [Instr.invr y a b, .invrRangedesc y a b], Passes c i → own →
      (n / 2 ^ 16 % 4 = 1 → n / 2 ^ 18 % 4 = 3 ∨ n / 2 ^ 20 ≠ 0 → Starts i y c s [0] (silentOp (.invr ctl) ia 0) s s id) ∧
      (n / 2 ^ 16 % 4 = 1 → n / 2 ^ 18 % 4 ≠ 3 → n / 2 ^ 20 = 0 →
        exec i s = .next (s.takeTrap c.b c.w c.p (c.trap 0x12 none (ctl.setWidth 64)))) ∧
      (n / 2 ^ 16 % 4 = 0 → n / 2 ^ 18 % 4 = 3 → ia.toNat / 2 ^ 48 % 16 = c.world → ia.toNat < 2 ^ 52 →
        Starts i y c s [0] (silentOp (.invr ctl) ia 0) s s id) ∧
      (n / 2 ^ 16 % 4 = 0 → n / 2 ^ 18 % 4 < 3 → OwnIA c ia →
        let granule := [2 ^ 16, 2 ^ 21, 2 ^ 30].getD (n / 2 ^ 18 % 4) 0
        let count := n / 2 ^ 20
        count ≠ 0 → ia.toNat % granule = 0 → ia.toNat % 2 ^ 48 + count * granule ≤ 15 * 2 ^ 44 →
          Starts i y c s [0] (silentOp (.invr ctl) ia 0) s s id)) ∧
    (∀ i ∈ [Instr.replayByPage y a b, .replayByToken y a b], Passes c i → own → n < 2 ^ 18 →
      (if n / 2 ^ 16 % 2 = 1 then ia.toNat < 2 ^ 24 else OwnIA c ia) →
      let cores := s.replayCores ctl ia.toNat
      Starts i y c s [0] (silentOp (.replay ctl) ia cores.length) s s fun t =>
        cores.foldl (fun t k => t.modCore k fun x => { x with replays := x.replays ++ [(c.b, c.w, c.wv.nextOp)] }) t) ∧
    (∀ e ∈ [(Instr.pin y d a b, OpKind.pin ctl), (.unpin y d a b, .unpin ctl)], Passes c e.1 → own → OwnIA c ia →
      n / 2 ^ 16 ≠ 0 → ia.toNat % 65536 = 0 → ia.toNat % 2 ^ 48 + n / 2 ^ 16 * 65536 ≤ 15 * 2 ^ 44 →
      Starts e.1 y c s [0] (onceOp e.2 d ia ia.toNat ctl) s s id) ∧
    (Passes c (.frpop y d) → Starts (.frpop y d) y c s [0] (onceOp .frpop d 0 0 0) s s id) ∧
    (∀ pa, Passes c (.migr y d a) → ia.toNat % 32 = 0 → c.map s .load ia = .ok pa →
      Starts (.migr y d a) y c s [0] (onceOp .migr d ia pa 0) s s fun t =>
        t.modWorld c.world fun x => { x with migrq := x.migrq ++ [(c.b, c.w, c.wv.nextOp)] }) ∧
    (∀ e ∈ [(Instr.dbghalt y d a, OpKind.dbghalt (c.bc a), true), (.dbgres y d a, .dbgres (c.bc a), false)], Passes c e.1 →
      let t := (c.bc a).toNat
      t < 2 ^ 10 → t / 2 ^ 8 ≠ 1 → (e.2.2 = false → t < 2 ^ 8) →
      Starts e.1 y c s [0] (onceOp e.2.1 d 0 0 (c.bc a)) s s fun u =>
        u.modCore (s.debugCore c.b) fun k => { k with dbg := k.dbg ++ [(c.b, c.w, c.wv.nextOp)] }) ∧
    (∀ i ∈ [Instr.invr y a b, .invrRangedesc y a b, .replayByPage y a b, .replayByToken y a b, .pin y d a b, .unpin y d a b],
      Passes c i → ¬own →
      exec i s = .next (s.takeTrap c.b c.w c.p (c.trap 0x11 none (ctl.setWidth 64))))

/-- Traversal and its stack. That STKINIT checks its whole spill span, and that a spill entry which R63 refuses at a push or pop takes
R63's trap, are the model's readings (log entries 67 and 69); so is the order of STKINIT's checks (log entry 57). -/
def Obligations.TraversalAndStackResults : Prop := TraversalWordResults ∧ StackWordResults

/-- Texture and raster words. That COVER, ORDB and ORDE wait for the wave's pending FRAG is the model's reading (log entry 56), as are the
registers of a melded quad's inactive lanes (log entry 69). -/
def Obligations.TextureAndRasterResults : Prop := TextureWordsStart ∧ QuadTraps ∧ RasterWordResults

/-- TASK and PRIV words. That words which two rows share are told apart by their control register when they issue is the model's reading
(log entry 8), as is the order of PRIV's checks (log entry 28). -/
def Obligations.TaskAndPrivilegedWordsStart : Prop := TaskWordsStart ∧ PrivilegedWordsStart

/-! ### Events of a wave -/

/-- Of all blocks and waves, only wave `w` of block `b` may differ. -/
def Sys2Proof.Machine.OnlyWave (s t : State) (b w : Nat) : Prop :=
  { t with blocks := s.blocks } = s ∧ t.blocks.length = s.blocks.length ∧
    { t.blk b with waves := (s.blk b).waves } = s.blk b ∧ ∀ b' w', (b', w') ≠ (b, w) → t.wv b' w' = s.wv b' w'

/-- The waits of a clause header (R26): a threshold that is not 15 and is below its counter holds the path. -/
def Sys2Proof.Machine.waitsMet (v : Wave) (hdr : Word) : Prop :=
  ∀ e ∈ [(Ctr.lc, 12), (Ctr.sc, 8), (Ctr.cc, 4), (Ctr.mc, 0)],
    fld hdr (e.2 + 3) e.2 = 15 ∨ v.ctr e.1 ≤ fld hdr (e.2 + 3) e.2

/-- R26 to R28, R33, R44: a header is fetched with the words of its clause, each once. A well-formed one whose waits are met takes its path
to the clause's first word; with a wait that is not met the path is held at the header, which is not fetched again; a header that is not well
formed, one of whose words is a control transfer before the last or has literal words beyond the clause, or whose VA is not word aligned,
raises CLAUSE there. Where the header or a word of its clause waits for a way, the path waits and fetches again; a header whose fetch
traps or faults meets that at its VA. A word behind one whose own fetch traps or faults is checked when that one can be fetched
(the model's reading, log entry 13). -/
def Obligations.ClauseHeaderResults : Prop :=
  ∀ (s s1 : State) (c : Ctx) (hdr : Word), At s c →
    let starts (hdr : Word) (words : List (Option Word)) (s : State) : State := s.modWv c.b c.w fun v =>
      { v with lastPath := c.p
               paths := v.paths.modify c.p fun p =>
                 { p with hdr, words, pc := p.pc + 4, cpos := 1, blocked := none, phase := 0 } }
    let holds (hdr : Word) (words : List (Option Word)) (s : State) : Prop := ∃ r ∈ [Stall.waitLd, .waitSt, .waitCo, .waitMx],
      exec .clauseIssue s = .next (s.modPath c.b c.w c.p fun p => { p with hdr, words, blocked := some r, again := false })
    let n := fld hdr 26 23
    let formed := fld hdr 31 27 = 0b11110 ∧ n ≠ 0 ∧ fld hdr 18 16 = 0 ∧ (hdr.getLsbD 19 = true ↔ c.pa.mode ≠ .plain)
    (c.pa.headerHeld = true →
      (waitsMet c.wv c.pa.hdr → exec .clauseIssue s = .next (starts c.pa.hdr c.pa.words s)) ∧
      (¬ waitsMet c.wv c.pa.hdr → holds c.pa.hdr c.pa.words s)) ∧
    (c.pa.headerHeld = false → c.pa.pc.toNat % 4 ≠ 0 →
      exec .clauseIssue s = .next (s.takeTrap c.b c.w c.p { code := 0x02, pc := c.pa.pc, va := c.pa.pc })) ∧
    (c.pa.headerHeld = false → c.pa.pc.toNat % 4 = 0 → c.fetch s c.pa.pc = .ok hdr s1 →
      (¬ formed → exec .clauseIssue s = .next (s1.takeTrap c.b c.w c.p { code := 0x02, pc := c.pa.pc })) ∧
      (formed →
        (∀ words s2, c.clauseWords c.pa.pc n s1 n 1 0 = .ok words s2 →
          (waitsMet c.wv hdr → exec .clauseIssue s = .next (starts hdr words s2)) ∧
          (¬ waitsMet c.wv hdr → ∃ r ∈ [Stall.waitLd, .waitSt, .waitCo, .waitMx],
            exec .clauseIssue s = .next (s2.modPath c.b c.w c.p fun p => { p with hdr, words, blocked := some r, again := false }))) ∧
        (∀ s2, c.clauseWords c.pa.pc n s1 n 1 0 = .bad s2 →
          exec .clauseIssue s = .next (s2.takeTrap c.b c.w c.p { code := 0x02, pc := c.pa.pc })) ∧
        ∀ s2, c.clauseWords c.pa.pc n s1 n 1 0 = .park s2 → exec .clauseIssue s = .next (held c .fetch s2))) ∧
    (c.pa.headerHeld = false → c.pa.pc.toNat % 4 = 0 →
      (∀ code, c.fetch s c.pa.pc = .trap code s1 →
        exec .clauseIssue s = .next (s1.takeTrap c.b c.w c.p { code, pc := c.pa.pc, va := c.pa.pc })) ∧
      (∀ f ia, c.fetch s c.pa.pc = .fault f ia s1 → exec .clauseIssue s = .next (c.fetchFault f c.pa.pc ia s1)) ∧
      (c.fetch s c.pa.pc = .park s1 → exec .clauseIssue s = .next (held c .fetch s1)))

/-- R337, R338: while no path issues, a unit with a wave that it can issue picks one: a wave that has waited for 64 cycles before
others, and among those it may pick from, none issued longer ago; the wave's next path then issues. That a unit picks only while no path
issues is the model's choice (notes/assumptions/5.md). -/
def Obligations.ArbitrationPicks : Prop :=
  ∀ (core unit : Nat) (s : State), s.cur = none → s.contenders core unit ≠ [] →
    ∃ t b w p, exec (.issueArbitration core unit) s = .next t ∧ t.cur = some (b, w, p) ∧ (b, w) ∈ s.contenders core unit ∧
      (s.wv b w).nextPath = some p ∧
      ((s.wv b w).readySince + 64 ≤ s.clk ∨ ∀ x ∈ s.contenders core unit, s.clk < (s.wv x.1 x.2).readySince + 64) ∧
      (∀ x ∈ s.contenders core unit, (s.wv x.1 x.2).readySince + 64 ≤ s.clk ∨ s.clk < (s.wv b w).readySince + 64 →
        (s.wv b w).lastIssue ≤ (s.wv x.1 x.2).lastIssue) ∧
      { t with cur := none, free := s.free, blocks := s.blocks } = s

/-- The event of operation `o` at its lane `l`, which its unit has still to carry out. -/
structure Sys2Proof.Machine.CarriedOut (s : State) (b w : Nat) (o : AsyncOp) (l : LaneOp) : Prop where
  op : (s.wv b w).op? o.id = some o
  lane : (o.lanes.find? fun x => x.lane == l.lane) = some l
  pending : l.st = .pending
  first : (o.lanes.find? fun x => x.st == .pending) = some l

/-- Every lane of operation `o` but `lane` has returned. -/
def Sys2Proof.Machine.lastLane (o : AsyncOp) (lane : Nat) : Bool := o.lanes.all fun x => x.lane == lane || x.st == .returned

/-- The lane of operation `o` has returned: with the last of them the operation goes and its counter falls by one (R25). -/
def Sys2Proof.Machine.Returned (s t : State) (b w : Nat) (o : AsyncOp) (lane : Nat) : Prop :=
  if lastLane o lane then
    (t.wv b w).op? o.id = none ∧ (t.wv b w).ctr o.ctr = (s.wv b w).ctr o.ctr - 1
  else
    (t.wv b w).op? o.id = some { o with lanes := o.lanes.map fun l => if l.lane = lane then { l with st := .returned } else l } ∧
      (t.wv b w).ctr o.ctr = (s.wv b w).ctr o.ctr

/-- R25, R36, R165: the result of a lane that has been performed is written over what its destination holds, every other register as
before; the counter falls by one with the last lane. While a bank of the block wakes it waits (R160). A wave that is DONE takes no result
(R169). A store is acknowledged, and SC falls, once every lane has taken effect. -/
def Obligations.AsyncResultsReturn : Prop :=
  ∀ (b w lane : Nat) (s : State) (o : AsyncOp) (l : LaneOp), (s.wv b w).op? o.id = some o → (s.wv b w).ra = none →
    (o.lanes.find? (fun l => l.lane == lane) = some l → l.st = .ready → (s.blk b).waking ≠ [] →
      exec (.asyncResultReturn b w o.id lane) s = .next s) ∧
    (o.ctr ≠ .sc → o.kind ≠ .scq → o.lanes.find? (fun l => l.lane == lane) = some l → l.st = .ready → (s.blk b).waking = [] →
      ∃ t, exec (.asyncResultReturn b w o.id lane) s = .next t ∧ Returned s t b w o lane ∧
        { t with blocks := s.blocks } = s ∧ (∀ b' w', (b', w') ≠ (b, w) → t.wv b' w' = s.wv b' w') ∧
        (t.wv b w).paths = (s.wv b w).paths ∧ (t.wv b w).q = (s.wv b w).q ∧
        (∀ k, SMap.get 0 (t.wv b w).g k =
          if o.uniform ∧ (s.wv b w).st ≠ .done ∧ k ≠ 0 ∧ l.dst ≤ k ∧ k < l.dst + l.res.length then l.res.getD (k - l.dst) 0
          else SMap.get 0 (s.wv b w).g k) ∧
        (let c := s.ctxAt b w 0
         let row (j : Nat) : Nat := vRow c.nw c.B c.X w (l.dst + j)
         if o.uniform ∨ (s.wv b w).st = .done then (t.blk b).v = (s.blk b).v
         else
          (∀ j < l.res.length, (∀ i < l.res.length, row i = row j → i = j) → lane < 32 →
            rowGet (t.blk b).v (row j) lane = l.res.getD j 0) ∧
          (∀ r ln, ln < 32 → (ln ≠ lane ∨ ∀ j < l.res.length, r ≠ row j) → rowGet (t.blk b).v r ln = rowGet (s.blk b).v r ln))) ∧
    (o.ctr = .sc → (∀ x ∈ o.lanes, x.st = .ready ∨ x.st = .returned) →
      ∃ t, exec (.storeAcknowledge b w o.id) s = .next t ∧ OnlyWave s t b w ∧ (t.wv b w).op? o.id = none ∧
        (t.wv b w).sc = (s.wv b w).sc - 1 ∧ (t.wv b w).paths = (s.wv b w).paths)

/-- The lane may be served now: the orders of R166 and R300 hold nothing of it back. -/
def Sys2Proof.Machine.turnOf (s : State) (b w : Nat) (o : AsyncOp) (l : LaneOp) : Bool := (s.wv b w).mayPerform o l && s.shadeTurn (s.wv b w) o l

/-- Who a lane's access is made for. -/
def Sys2Proof.Machine.whoOf (s : State) (b w : Nat) (o : AsyncOp) (l : LaneOp) : Who :=
  { b, w, op := o.id, lane := l.lane, core := (s.blk b).core, world := (s.launchOf b).world }

/-- An access that is made for a lane by event `i`: its value goes on to `k`; a fault is the lane's deferred fault; a wait leaves what it met. -/
def Sys2Proof.Machine.Delivers {α : Type} (i : Instr) (s : State) (a : Who) (va : DWord) (r : Acc α) (k : α → State → State) : Prop :=
  (∀ x s1, r = .ok x s1 → exec i s = .next (k x s1)) ∧
  (∀ f ia s1, r = .fault f ia s1 → exec i s = .next (s1.laneFault a va f ia)) ∧
  ∀ s1, r = .wait s1 → exec i s = .next s1

/-- Event `i` serves the pending lane `l` in its turn: as a request, or as the longest wait for the line of a copy unit whose ownership has
ended. -/
structure Sys2Proof.Machine.Served (s : State) (b w : Nat) (o : AsyncOp) (l : LaneOp) (i : Instr) : Prop where
  op : (s.wv b w).op? o.id = some o
  lane : (o.lanes.find? fun x => x.lane == l.lane && x.st == .pending) = some l
  turn : turnOf s b w o l = true
  event : i = .l2Request b w o.id l.lane ∨ ∃ line, i = .ownedLineServe line ∧ s.isOwned line = false ∧
    (s.ownWait.find? fun e => e.1 == line) = some (line, b, w, o.id, l.lane)

/-- R98, R105, R167, R171, R172: a load reads its line and keeps the value, extended as its form says; a byte that another of its lanes has
read is that lane's. A store writes its bytes. -/
def Sys2Proof.Machine.PlainServed : Prop :=
  ∀ (b w : Nat) (s : State) (o : AsyncOp) (l : LaneOp) (i : Instr), Served s b w o l i →
    let a := whoOf s b w o l
    (∀ n sg policy, o.kind = .load n sg policy →
      Delivers i s a l.va (s.loadLine a l.ia n policy true) (fun bs s1 =>
        (s1.sameBytes a l.ia bs).2.lanePerformed a (loadWords n sg (s1.sameBytes a l.ia bs).1)) ∧
      ∀ bs s1, s.loadLine a l.ia n policy true = .ok bs s1 → ∀ k < bs.length, (s1.sameBytes a l.ia bs).1.getD k 0 =
        match (s1.wv b w).op? o.id with
        | some o1 => ((o1.seen.find? fun x => x.1 == l.ia + k).map Prod.snd).getD (bs.getD k 0)
        | none => bs.getD k 0) ∧
    (∀ n policy, o.kind = .store n policy →
      Delivers i s a l.va (s.storeLine a l.ia (natBytes n l.data.toNat) policy) fun _ s1 => s1.lanePerformed a [])

/-- R171: the registers of a load of `n` bytes, low word first: sign-extended from 8 or 16 bits where the form says so. -/
def Sys2Proof.Machine.LoadValues : Prop :=
  ∀ bs : List Byte,
    (bs.length = 1 → loadWords 1 true bs = [(bs.getD 0 0).signExtend 32] ∧ loadWords 1 false bs = [(bs.getD 0 0).setWidth 32]) ∧
    (bs.length = 2 → loadWords 2 true bs = [(bs.getD 1 0 ++ bs.getD 0 0).signExtend 32] ∧
      loadWords 2 false bs = [(bs.getD 1 0 ++ bs.getD 0 0).setWidth 32]) ∧
    ∀ n, 0 < n → n % 4 = 0 → bs.length = n → loadWords n false bs = (List.range (n / 4)).map fun j =>
      (bs.getD (4 * j + 3) 0 ++ bs.getD (4 * j + 2) 0 ++ bs.getD (4 * j + 1) 0 ++ bs.getD (4 * j) 0 : Word)

/-- R175, R176: what each op leaves at a location, from the old value and the operand; nothing where a comparison fails. FADD rounds the exact sum
to nearest, with the canonical NaN; FMIN and FMAX order -0 below +0 and prefer a number. -/
def Sys2Proof.Machine.AtomValues : Prop :=
  (∀ (o x : Word) (k : Nat),
    let gives (op : AtomOp) (z : Word) : Prop := atomNew op false o.toNat (x.toNat + 2 ^ 32 * k) = some z.toNat
    gives .add (o + x) ∧ gives .minS (if x.slt o then x else o) ∧ gives .maxS (if o.slt x then x else o) ∧
    gives .minN (if x.ult o then x else o) ∧ gives .maxN (if o.ult x then x else o) ∧ gives .and (o &&& x) ∧ gives .or (o ||| x) ∧
    gives .xor (o ^^^ x) ∧ gives .exch x ∧ gives .incw (if x.ule o then 0 else o + 1) ∧
    (∀ z : Word, atomNew .cas false o.toNat (x.toNat + 2 ^ 32 * z.toNat + 2 ^ 64 * k) = if o = x then some z.toNat else none) ∧
    let nan (z : Word) : Prop := (Fmt.f32.value z.toNat).isNan = true
    let inf (z : Word) : Prop := (Fmt.f32.value z.toNat).isInf = true
    let sum : Rat := fvRat (Fmt.f32.value o.toNat) + fvRat (Fmt.f32.value x.toNat)
    let order (z : Word) : Int := if z.msb then -(z.toNat % 2 ^ 31 : Int) - 1 else z.toNat
    (nan o ∨ nan x ∨ inf o ∧ inf x ∧ o ≠ x → gives .fadd 0x7FC00000) ∧
    (¬ nan x → inf o → (inf x → x = o) → gives .fadd o) ∧ (¬ nan o → ¬ inf o → inf x → gives .fadd x) ∧
    (¬ nan o → ¬ nan x → ¬ inf o → ¬ inf x → sum ≠ 0 → gives .fadd (extRound .rne (.fin sum))) ∧
    (nan o → nan x → gives .fmin 0x7FC00000 ∧ gives .fmax 0x7FC00000) ∧ (nan o → ¬ nan x → gives .fmin x ∧ gives .fmax x) ∧
    (¬ nan o → nan x → gives .fmin o ∧ gives .fmax o) ∧
    (¬ nan o → ¬ nan x →
      gives .fmin (if order x < order o then x else o) ∧ gives .fmax (if order o < order x then x else o))) ∧
  ∀ (o x z : DWord) (k : Nat),
    atomNew .add true o.toNat (x.toNat + 2 ^ 64 * k) = some (o + x).toNat ∧
    atomNew .cas true o.toNat (x.toNat + 2 ^ 64 * z.toNat + 2 ^ 128 * k) = if o = x then some z.toNat else none

/-- R106, R107, R177, R428: an atomic or reduction takes effect at its place, and a returning one answers the old value, low word first. At a port
the line's L2 copy goes first; an op that the host link does not carry loops there. In HBM it takes effect on the line at its home, or in the
ridge's cluster unit for cluster scope. A compare that fails writes nothing. -/
def Sys2Proof.Machine.AtomicsServed : Prop :=
  (∀ (b w : Nat) (s : State) (o : AsyncOp) (l : LaneOp) (i : Instr) (op : AtomOp) (wide : Bool) (scope : Nat) (ret : Bool) (policy : Nat),
    Served s b w o l i → o.kind = .atomic op wide scope ret policy →
    let a := whoOf s b w o l
    let place := s.atomicAt a l.ia op wide scope policy l.data.toNat (!ret)
    (∀ r, place = .acc r → Delivers i s a l.va r fun old s1 => (s1.noteOrder a o l.ia ret).lanePerformed a
      (if ret then (List.range (if wide then 2 else 1)).map fun j => BitVec.ofNat 32 (old / 2 ^ (32 * j)) else [])) ∧
    ∀ s1, place = .port s1 → exec i s = .next (s1.modLane b w o.id l.lane fun x => { x with st := .port })) ∧
  ∀ (s : State) (a : Who) (ia : Nat) (op : AtomOp) (wide : Bool) (scope policy data : Nat) (red : Bool),
    let n := if wide then 8 else 4
    let place := s.atomicAt a ia op wide scope policy data red
    (∀ f x s1, s.reach a ia true = .fault f x s1 → place = .acc (.fault f x s1)) ∧ (∀ s1, s.reach a ia true = .wait s1 → place = .acc (.wait s1)) ∧
    ∀ pa s1, s.reach a ia true = .ok pa s1 →
      let s2 := s1.toPort a.world ia
      let far : Prop :=
        (s2.bad (iaRegion ia) pa = true → place = .acc (.fault (fData 7) ia (s2.log 5 (some 0x14) none a.world pa))) ∧
        (s2.bad (iaRegion ia) pa = false →
          let old := leNat (memBytes s2.mem pa n)
          (atomNew op wide old data = none → place = .acc (.ok old s2)) ∧
          ∀ x, atomNew op wide old data = some x → place = .acc (.ok old { s2 with mem := memPut s2.mem pa (natBytes n x) }))
      (s2.l2line (ia / 128) = none) ∧
      (paKind pa = .host → (op = .add ∨ op = .exch ∨ op = .cas → far) ∧ (op ≠ .add → op ≠ .exch → op ≠ .cas → place = .port s2)) ∧
      (∀ p, paKind pa = .peer p →
        (s1.portFor a.world pa = .none → place = .acc (.fault (fTrans 3) ia s1)) ∧ (s1.portFor a.world pa = .train → place = .acc (.wait s1)) ∧
        (s1.portFor a.world pa = .ok → far)) ∧
      -- a line whose bytes are in L2
      (paKind pa = .hbm ∨ paKind pa = .foothill → ia % 128 + n ≤ 128 →
        let at_ (s3 : State) (back : State → State) : Prop := ∀ line, s3.l2line (ia / 128) = some line → line.bad = false →
          line.present &&& byteMask (ia % 128) n = byteMask (ia % 128) n →
          let old := leNat ((List.range n).map fun k => lineByte line.data (ia % 128 + k))
          (atomNew op wide old data = none → place = .acc (.ok old (back s3))) ∧
          ∀ x, atomNew op wide old data = some x → ∃ line', place = .acc (.ok old (back (s3.setL2 (ia / 128) (some line')))) ∧
            line'.pa = line.pa ∧ line'.dirty = line.dirty ||| byteMask (ia % 128) n ∧
            ∀ k < 128, lineByte line'.data k =
              if ia % 128 ≤ k ∧ k < ia % 128 + n then (natBytes n x).getD (k - ia % 128) 0 else lineByte line.data k
        (scope ≠ 1 → red = false →
          at_ ((s1.recall a.world (ia / 128)).l2Lookup { world := a.world, ia, pa, policy }) fun t => t.noteAtom (ia / 128)) ∧
        (scope = 1 → ∀ s3, s1.hold a.world (a.core / 8) ia pa = .ok s3 → at_ s3 id))

/-- The pattern of a non-zero value rounded to nearest, beyond the largest finite value as R121 says. -/
def Sys2Proof.Machine.encodeRat (f : Fmt) (q : Rat) : Nat :=
  let k := q.num.natAbs * 2 ^ 1200
  let r := f.roundSticky .rne (decide (q < 0)) (k / q.den) (-1200) (decide (k % q.den ≠ 0))
  if r.ovf then f.sign (decide (q < 0)) + (if f.narrow then f.maxBits else f.infBits) else r.bits

/-- R120: where the elements of a .E access lie. -/
def Sys2Proof.Machine.ElementPlaces : Prop :=
  ∀ (r : BitVec 320) (off : Nat), eMortonOk r off = true →
    let w := eWidth r
    let bit (j : Nat) : Nat := (eBits r off).getD j 0
    (eBits r off).length = rbEpa r ∧
    (∀ j < rbEpa r,
      (rbIlv r = 0 → bit j = off * 8 + j * w) ∧ (rbIlv r = 1 → bit j = (off + j * rbPitch r) * 8) ∧
      (rbIlv r = 2 → ∃ m < 2 ^ 32, bit j = m * w ∧ ∀ k < 16,
        m.testBit (2 * k) = (off % 65536 + j).testBit k ∧ m.testBit (2 * k + 1) = (off / 65536).testBit k) ∧
      (rbIlv r = 3 → ∃ m < 2 ^ 30, bit j = m * w ∧ ∀ k < 10, m.testBit (3 * k) = (off % 1024 + j).testBit k ∧
        m.testBit (3 * k + 1) = (off / 1024 % 1024).testBit k ∧ m.testBit (3 * k + 2) = (off / 2 ^ 20).testBit k)) ∧
    (rbIlv r = 0 → eBytes r off = (List.range (rbEpa r * w / 8)).map (off + ·)) ∧
    (rbIlv r ≠ 0 → ∀ j < rbEpa r, ∀ k < w / 8, (eBytes r off).getD (j * (w / 8) + k) 0 = bit j / 8 + k) ∧
    eScaleVa r off = rbScaleva r + BitVec.ofNat 64 (bit 0 / w / 32)

/-- R119, R121: one element converted on a load and on a store: integers extended and cut, floats scaled exactly and rounded once, norms over their
denominator; NaN and Inf by the table. -/
def Sys2Proof.Machine.ElementValues : Prop :=
  (∀ e ∈ [(Fmt.e4m3, 0x7F, 0x7E, 0x7E), (.e5m2, 0x7E, 0x7B, 0x7C), (.e2m3, 0, 0x1F, 0x1F), (.e3m2, 0, 0x1F, 0x1F), (.e2m1, 0, 7, 7),
      (.f16, 0x7E00, 0x7C00, 0x7C00), (.bf16, 0x7FC0, 0x7F80, 0x7F80), (.f32, 0x7FC00000, 0x7F800000, 0x7F800000),
      (.f64, 0x7FF8000000000000, 0x7FF0000000000000, 0x7FF0000000000000)],
    let sign (n : Bool) : Nat := if n then 2 ^ (e.1.width - 1) else 0
    (∀ q, stageEncode e.1 (.nan q) = e.2.1) ∧ (∀ n, stageEncode e.1 (.inf n) = sign n + e.2.2.2) ∧
    ∀ n m k, stageEncode e.1 (.fin n m k) =
      if (e.1.round .rne n m k).ovf then sign n + e.2.2.1 else (e.1.round .rne n m k).bits) ∧
  ∀ (r : BitVec 320) (mx : Nat) (m : MemEnc) (w : Nat) (t : RegFmt), ePermitted r = true → mx < 256 → memEnc (rbMenc r) = some (m, w) →
    regFmt (rbRfmt r) = some t →
    let load := loadElem r mx
    let store := storeElem r mx
    (∀ sg, m = .int sg → ∀ x,
      (x < 2 ^ w → load x = if sg = true ∧ 2 ^ (w - 1) ≤ x then 2 ^ 32 - 2 ^ w + x else x) ∧ store x = x % 2 ^ w) ∧
    (∀ f, m = .flt f →
      let scale : Rat := match rbSmode r with | 0 => 1 | 1 => fvRat (Fmt.f32.value (rbScale r)) | _ => 2 ^ ((mx : Int) - 127)
      let noScale := rbSmode r = 2 ∧ mx = 255
      (noScale → ∀ x, load x = t.fmt.nan ∧ store x = f.nan) ∧
      (¬ noScale → ∀ x,
        (∀ n q e, f.value x = .fin n q e → q ≠ 0 → load x = encodeRat t.fmt (fvRat (.fin n q e) * scale)) ∧
        (∀ n q e, t.fmt.value x = .fin n q e → q ≠ 0 → store x = encodeRat f (fvRat (.fin n q e) / scale)) ∧
        (∀ n e, f.value x = .fin n 0 e → load x = t.fmt.sign (n != decide (scale < 0))) ∧
        (∀ n e, t.fmt.value x = .fin n 0 e → store x = f.sign (n != decide (scale < 0))) ∧
        (∀ n, f.value x = .inf n → load x = stageEncode t.fmt (.inf (n != decide (scale < 0)))) ∧
        (∀ n, t.fmt.value x = .inf n → store x = stageEncode f (.inf (n != decide (scale < 0)))) ∧
        ((f.value x).isNan = true → load x = t.fmt.nan) ∧ ((t.fmt.value x).isNan = true → store x = f.nan))) ∧
    (∀ sg, m = .norm sg →
      let den : Nat := if sg then 2 ^ (w - 1) - 1 else 2 ^ w - 1
      let least : Rat := if sg then -1 else 0
      (∀ x : Nat, x < 2 ^ w → x ≠ 0 →
        let v : Int := if sg = true ∧ 2 ^ (w - 1) ≤ x then (x : Int) - 2 ^ w else x
        load x = encodeRat .f32 (max least (v / den))) ∧ load 0 = 0 ∧
      (∀ x, (Fmt.f32.value x).isNan = true → store x = 0) ∧
      (∀ x, Fmt.f32.value x = .inf false → store x = den) ∧ (∀ x, Fmt.f32.value x = .inf true → store x = if sg then 2 ^ w - den else 0) ∧
      ∀ x n q e, Fmt.f32.value x = .fin n q e →
        let y : Rat := max least (min 1 (fvRat (.fin n q e))) * den
        ∃ z : Int, store x = (z % 2 ^ w).toNat ∧ |(z : Rat) - y| ≤ 1 / 2 ∧ (|(z : Rat) - y| = 1 / 2 → z % 2 = 0))

/-- R118, R120, R121: the registers that element bytes load into, and the bytes that registers store to, element by element. -/
def Sys2Proof.Machine.ElementRegisters : Prop :=
  ∀ (r : BitVec 320) (mx : Nat) (bs : List Byte) (data : Nat) (t : RegFmt), ePermitted r = true → regFmt (rbRfmt r) = some t →
    bs.length = eTotal r → mx < 256 →
    let w := eWidth r
    let el (j : Nat) : Nat := loadElem r mx (leNat bs / 2 ^ (w * j) % 2 ^ w)
    let ws := loadConvert r mx bs
    let reg (j : Nat) : Nat := match t with | .f64 => data / 2 ^ (64 * j) % 2 ^ 64 | .pk16 | .pkb16 => data / 2 ^ (16 * j) % 2 ^ 16 | _ => data / 2 ^ (32 * j) % 2 ^ 32
    ws.length = eRegs r ∧
    (∀ k < eRegs r, ws.getD k 0 = BitVec.ofNat 32 (match t with
      | .f64 => el (k / 2) / 2 ^ (32 * (k % 2))
      | .pk16 | .pkb16 => el (2 * k) + 65536 * el (2 * k + 1)
      | _ => el k)) ∧
    (storeConvert r mx data).length = eTotal r ∧
    ∀ j < rbEpa r, leNat (storeConvert r mx data) / 2 ^ (w * j) % 2 ^ w = storeElem r mx (reg j)

/-- R73, R74, R120, R121, R167: a .E load reads its bytes in their parts, the scale byte last, and then converts; a .E store reads its scale byte first, and
then writes all its parts or none. That no other agent is seen between the parts of a store is the model's choice (notes/assumptions/69.md). -/
def Sys2Proof.Machine.ElementsServed : Prop :=
  (∀ (b w : Nat) (s : State) (o : AsyncOp) (l : LaneOp) (i : Instr) (rc : BitVec 320), Served s b w o l i →
    let a := whoOf s b w o l
    let total := eTotal rc
    let done := l.res.length
    let ia := l.aux.getD done 0
    let write (mx : Nat) : Prop :=
      Delivers i s a l.va
        (s.storeParts a (rbPolicy rc) (eParts rc (l.aux.take total) (storeConvert rc mx l.data.toNat) (total + 1) 0))
        fun _ s1 => s1.lanePerformed a []
    (o.kind = .loadE rc →
      Delivers i s a l.va (s.loadLine a ia (if done < total then eChunk rc l.aux total done else 1) (rbPolicy rc) true) fun bs s1 =>
        let r := s1.sameBytes a ia bs
        let got := l.res ++ r.1.map fun (x : Byte) => x.setWidth 32
        if got.length < total + (if rbSmode rc = 2 then 1 else 0) then r.2.modLane b w o.id l.lane fun x => { x with res := got }
        else
          let bytes : List Byte := got.map fun (x : Word) => x.setWidth 8
          r.2.lanePerformed a (loadConvert rc (bytes.getD total 0).toNat (bytes.take total))) ∧
    (o.kind = .storeE rc →
      (rbSmode rc ≠ 2 → write 0) ∧ (∀ mx rest, rbSmode rc = 2 → l.res = mx :: rest → write mx.toNat) ∧
      (rbSmode rc = 2 → l.res = [] → Delivers i s a l.va (s.loadLine a (l.aux.getD total 0) 1 (rbPolicy rc) true) fun bs s1 =>
        s1.modLane b w o.id l.lane fun x => { x with res := [(bs.getD 0 0).setWidth 32] }))) ∧
  (∀ (rc : BitVec 320) (elems : List Nat) (bytes : List Byte), ePermitted rc = true → elems.length = eTotal rc → bytes.length = eTotal rc →
    (rbIlv rc ≠ 0 → ∀ j < rbEpa rc, ∀ k < eWidth rc / 8, elems.getD (j * (eWidth rc / 8) + k) 0 = elems.getD (j * (eWidth rc / 8)) 0 + k) →
    (eParts rc elems bytes (eTotal rc + 1) 0).flatMap (fun p => p.2.zipIdx.map fun e => (p.1 + e.2, e.1)) = elems.zip bytes) ∧
  (∀ (s : State) (a : Who) (policy : Nat),
    s.storeParts a policy [] = .ok () s ∧
    (∀ ia bs, s.storeParts a policy [(ia, bs)] = s.storeLine a ia bs policy) ∧
    (∀ p ps s1 s2, s.storeLine a p.1 p.2 policy = .ok () s1 → s1.storeParts a policy ps = .ok () s2 →
      s.storeParts a policy (p :: ps) = .ok () s2) ∧
    -- all the parts, or what one part alone meets before any is written
    ∀ parts, (∃ t, s.storeParts a policy parts = .ok () t) ∨ s.storeParts a policy parts = .wait s ∨
      ∃ q ∈ parts, s.storeParts a policy parts = s.storeLine a q.1 q.2 policy) ∧
  ElementPlaces ∧ ElementValues ∧ ElementRegisters

/-- R106, R182, R311, R428: RST, RLD and RATOM: in HBM as an ST, LD or scope-3 ATOM of their record; in host or peer memory the line's L2 copy
goes first, and the access takes effect at the port's target. -/
def Sys2Proof.Machine.RemoteServed : Prop :=
  ∀ (b w : Nat) (s s1 : State) (o : AsyncOp) (l : LaneOp) (i : Instr) (pa : Nat), Served s b w o l i →
    let a := whoOf s b w o l
    let op : AtomOp := [AtomOp.add, .minS, .maxS, .minN, .maxN, .and, .or, .exch].getD (l.data.toNat / 2 ^ 32 % 8) .exch
    let store := match o.kind with | .remLoad _ _ => false | _ => true
    let remote := (∃ n p, o.kind = .remStore n p) ∨ (∃ n p, o.kind = .remLoad n p) ∨ ∃ p, o.kind = .remAtomic p
    (remote → ∀ f ia, s.reach a l.ia store = .fault f ia s1 → exec i s = .next (s1.laneFault a l.va f ia)) ∧
    (remote → s.reach a l.ia store = .wait s1 → exec i s = .next s1) ∧
    (remote → s.reach a l.ia store = .ok pa s1 → paFar pa = false →
      (∀ n p, o.kind = .remStore n p → Delivers i s a l.va (s1.storeLine a l.ia (natBytes n l.data.toNat) p) fun _ t => t.lanePerformed a []) ∧
      (∀ n p, o.kind = .remLoad n p → Delivers i s a l.va (s1.loadLine a l.ia n p false) fun bs t =>
        (t.sameBytes a l.ia bs).2.lanePerformed a (loadWords n false (t.sameBytes a l.ia bs).1)) ∧
      (∀ p r, o.kind = .remAtomic p → s1.atomicAt a l.ia op false 3 p l.data.toNat false = .acc r →
        Delivers i s a l.va r fun old t => t.lanePerformed a [BitVec.ofNat 32 old])) ∧
    (remote → s.reach a l.ia store = .ok pa s1 → paFar pa = true →
      let s2 := s1.toPort a.world l.ia
      (s1.portFor a.world pa = .none → exec i s = .next (s1.laneFault a l.va (fTrans 3) l.ia)) ∧
      (s1.portFor a.world pa = .train → exec i s = .next s1) ∧
      (s1.portFor a.world pa = .ok → s2.bad (iaRegion l.ia) pa = true →
        exec i s = .next ((s2.log 5 (some 0x14) none a.world pa).laneFault a l.va (fData 7) l.ia)) ∧
      (s1.portFor a.world pa = .ok → s2.bad (iaRegion l.ia) pa = false →
        (∀ n p, o.kind = .remStore n p →
          ((s2.heapOk a.world l.ia).1 = false → exec i s = .next ((s2.heapOk a.world l.ia).2.laneFault a l.va (fTrans 3) l.ia)) ∧
          ((s2.heapOk a.world l.ia).1 = true →
            let s3 := (s2.heapOk a.world l.ia).2
            exec i s = .next (({ s3 with mem := memPut s3.mem pa (natBytes n l.data.toNat) } : State).lanePerformed a []))) ∧
        (∀ n p, o.kind = .remLoad n p →
          let r := s2.sameBytes a l.ia (memBytes s2.mem pa n)
          exec i s = .next (r.2.lanePerformed a (loadWords n false r.1))) ∧
        (∀ p, o.kind = .remAtomic p →
          (paKind pa = .host → op ≠ .add → op ≠ .exch → exec i s = .next (s2.modLane b w o.id l.lane fun x => { x with st := .port })) ∧
          (paKind pa ≠ .host ∨ op = .add ∨ op = .exch →
            let old := leNat (memBytes s2.mem pa 4)
            ∀ x, atomNew op false old l.data.toNat = some x →
              exec i s = .next (({ s2 with mem := memPut s2.mem pa (natBytes 4 x) } : State).lanePerformed a [BitVec.ofNat 32 old])))))

/-- R180: EVICT of a line whose access would fault, or whose check fails, does nothing; else the line comes home, is written back, and is in
neither L2 nor the core's L1 afterwards. -/
def Sys2Proof.Machine.EvictServed : Prop :=
  ∀ (b w : Nat) (s s1 : State) (o : AsyncOp) (l : LaneOp) (i : Instr), Served s b w o l i → o.kind = .evict →
    let a := whoOf s b w o l
    let line := l.ia / 128
    (s.reach a l.ia false = .wait s1 → exec i s = .next s1) ∧
    (∀ f ia, s.reach a l.ia false = .fault f ia s1 → exec i s = .next (s1.lanePerformed a [])) ∧
    ∀ pa, s.reach a l.ia false = .ok pa s1 →
      (s1.readsBad l.ia pa = true → exec i s = .next (s1.lanePerformed a [])) ∧
      (s1.readsBad l.ia pa = false → ∃ t : State, exec i s = .next (t.lanePerformed a []) ∧ t.l2line line = none ∧
        (∀ e ∈ (t.core a.core).l1, e.1 ≠ line) ∧
        { t with cores := s1.cores } = { (s1.recall a.world line).writeBack a.world line with cores := s1.cores, l2 := t.l2 })

/-- R105: an access that waited for the end of ownership and is no longer wanted leaves the queue. -/
def Sys2Proof.Machine.WaitsLeave : Prop :=
  ∀ (s : State) (line b w id lane : Nat) (o : AsyncOp), s.isOwned line = false →
    (s.ownWait.find? fun e => e.1 == line) = some (line, b, w, id, lane) → (s.wv b w).op? id = some o →
    (o.lanes.find? fun l => l.lane == lane && l.st == .pending) = none →
    exec (.ownedLineServe line) s = .next { s with ownWait := s.ownWait.filter fun e => e ≠ (line, b, w, id, lane) }

/-- R98, R105 to R107, R119 to R121, R167, R171 to R182, R428: a request of a lane, and one that waited for the end of a copy unit's
ownership, is served in its turn. Readings of the model: where a streak and a cluster unit's ties stand (log entry 67); a .E store is seen
whole (log entry 69). -/
def Obligations.RequestsServed : Prop :=
  PlainServed ∧ LoadValues ∧ AtomValues ∧ AtomicsServed ∧ ElementsServed ∧ RemoteServed ∧ EvictServed ∧ WaitsLeave

/-- R66, R111, R160, R428, R430: the walk of an access that waits takes place; a way or a bank that has woken holds nobody any longer; a
compare-and-swap loop at the host port ends with its value, tries again, or gives DATA after 64 tries; a flit is tried again until its
third failure, when the accesses it carries receive DATA (a lane, a copy, the fetch of a path) and its link retrains; a link that has
retrained carries flits again. Readings of the model: a port sends its flits one after another (log entry 69); what a failed flit gives to
what it carries (log entry 61); a walk is an event of its own, in an order that is free (log entry 5). -/
def Obligations.MemoryEvents : Prop :=
  (∀ (world ia : Nat) (store : Bool) (s s1 : State) (r : Trans) (b w : Nat) (o : AsyncOp) (l : LaneOp),
    (s.wv b w).op? o.id = some o → l ∈ o.lanes → l.st = .pending → (l.ia = ia ∨ ia ∈ l.aux) → iaRegion ia = world →
    o.kind.walks = true → (store = true → o.kind.writesGlobal = true) → s.translate world ia store = (s1, r) →
    exec (.translationWalk world ia store) s = .next s1) ∧
  (∀ (slice way : Nat) (s : State), ∃ t, exec (.wayWakeComplete slice way) s = .next t ∧
    { t with wakingWays := s.wakingWays, wakeWait := s.wakeWait } = s ∧ (slice, way) ∉ t.wakingWays ∧
    (∀ e, e ≠ (slice, way) → (e ∈ t.wakingWays ↔ e ∈ s.wakingWays)) ∧ ∀ e, e ∈ t.wakeWait ↔ e ∈ s.wakeWait ∧ e.1 ≠ slice) ∧
  (∀ (core bank : Nat) (s : State), ∃ t, exec (.bankWakeComplete core bank) s = .next t ∧ bank ∉ (t.core core).waking ∧
    { t with cores := s.cores, blocks := s.blocks } = s ∧ (∀ k, k ≠ core → t.core k = s.core k) ∧
    ∀ b, (t.blk b).waking = if (s.blk b).core = core then (s.blk b).waking.filter (· ≠ bank) else (s.blk b).waking) ∧
  (∀ (b w lane : Nat) (s s1 : State) (o : AsyncOp) (l : LaneOp) (pa : Nat) (op : AtomOp) (wide : Bool) (sc : Nat) (ret : Bool) (pol : Nat),
    (s.wv b w).op? o.id = some o → o.kind = .atomic op wide sc ret pol → o.lanes.find? (fun l => l.lane == lane && l.st == .port) = some l →
    s.translate (s.launchOf b).world l.ia true = (s1, .pa pa) →
    let a : Who := { b, w, op := o.id, lane, core := (s.blk b).core, world := (s.launchOf b).world }
    let tried (e : Nat × Nat × Nat × Nat × Nat) : Bool := (e.1, e.2.1, e.2.2.1, e.2.2.2.1) == (b, w, o.id, lane)
    let tries := ((s.casTries.find? tried).map fun e => e.2.2.2.2).getD 0
    let clear (s : State) : State := { s with casTries := s.casTries.filter fun e => !tried e }
    (∀ old s2, s1.rmwFar a.world l.ia pa op wide l.data.toNat = .ok old s2 →
      exec (.portCasLoop b w o.id lane true) s = .next ((clear s2).atomDone a o l wide ret old)) ∧
    (tries + 1 < 64 → ∃ t, exec (.portCasLoop b w o.id lane false) s = .next t ∧ { t with casTries := s1.casTries } = s1 ∧
      (b, w, o.id, lane, tries + 1) ∈ t.casTries) ∧
    (64 ≤ tries + 1 → exec (.portCasLoop b w o.id lane false) s = .next ((clear s1).laneFault a l.va (fData 7) l.ia))) ∧
  (∀ (port : Nat) (carried : List (Nat × Nat × Nat × Nat)) (s : State), port < 16 →
    let tries := SMap.get 0 s.flitTries port
    let n := if (port, carried) ∈ s.flitNow then tries + 1 else 1
    let sent : State := { s with
      flitTries := SMap.put 0 s.flitTries port n, flitNow := (port, carried) :: s.flitNow.filter fun e => e.1 != port }
    (tries ≠ 3 → n < 3 → exec (.flitTagFailure port carried) s = .next sent) ∧
    (n = 3 → ∀ b w p, carried = [(b, w, p, 33)] → ((s.wv b w).path p).st = .run → ((s.wv b w).path p).blocked = some .fetch →
      ((s.wv b w).path p).again = false →
      exec (.flitTagFailure port carried) s =
        .next (((sent.ctxAt b w p).fetchFault (fData 7) ((s.wv b w).path p).pc 0 sent).log 4 none (some port) 15 0)) ∧
    (n = 3 → ∀ b w x, carried = [(b, w, x.id, 34)] → s.copy? x.id = some x → x.wave = b * 32 + w → x.st = .pinned →
      ∃ t y, exec (.flitTagFailure port carried) s = .next t ∧ t.copy? x.id = some y ∧
        (y.st = .moved ∧ y.code = 2 ∧ y.cause = 0x14 ∧ y.sub = 7) ∧ t.mem = s.mem ∧ t.blocks = s.blocks) ∧
    (n = 3 → (∀ e ∈ carried, e.2.2.2 < 32) →
      ∃ t, exec (.flitTagFailure port carried) s = .next t ∧ SMap.get 0 t.flitTries port = 3 ∧ t.mem = s.mem ∧
      ∀ e ∈ carried, ∀ o l, (s.wv e.1 e.2.1).op? e.2.2.1 = some o →
        o.lanes.find? (fun l => l.lane == e.2.2.2 && l.open_) = some l →
        ∃ o', (t.wv e.1 e.2.1).op? e.2.2.1 = some o' ∧ ∃ l' ∈ o'.lanes, l'.lane = l.lane ∧ l'.st = .faulted 0x14 7 l.va l.ia) ∧
    (tries = 3 → ∃ t, exec (.linkRetrain port) s = .next t ∧ SMap.get 0 t.flitTries port = 0 ∧
      { t with flitTries := s.flitTries, flitNow := s.flitNow } = s))

/-! ### Deferred faults -/

/-- R73, R74, R80: some but not all lanes of a plain RUN path received a deferred fault. They count as returned, and go with the
path's PC to a new FAULT path, whose parent it is, in the lowest entry that is free; the other lanes stay as they were. -/
def Sys2Proof.Machine.FaultedLanesSplit : Prop :=
  ∀ (b w i j : Nat) (rest : List Nat) (s : State) (o : AsyncOp),
    let v := s.wv b w
    let bad := o.lanes.filter fun l => l.fault?.isSome
    let m := maskOf fun ln => bad.any fun l => l.lane == ln
    v.op? o.id = some o → v.st = .live → v.ra = none → v.tinfo.getLsbD 31 = false → v.paths.length = 8 → o.once = false →
    i < 8 → (v.path i).st = .run → (v.path i).mode = .plain → bad ≠ [] → m ≠ (v.path i).full →
    (∀ l ∈ bad, l.lane < 32 ∧ bitAt (v.path i).full l.lane = true ∧
      ∀ k < 8, k ≠ i → (v.path k).live = true → bitAt (v.path k).full l.lane = false) →
    (∀ k < 8, (v.path k).isFault = false) → (∀ d ∈ v.deferred, d.path ≠ j) → freeEntries v.paths = j :: rest →
    SMap.wf none (s.core (s.blk b).core).wait = true → (∀ e ∈ (s.core (s.blk b).core).wait, ∀ x, e.2 = some x → x.replayed = 0) →
    ∃ t, exec (.deferredFaultSplit b w o.id) s = .next t ∧ t.mem = s.mem ∧
      (t.wv b w).path i = { v.path i with full := (v.path i).full &&& ~~~m, exm := (v.path i).exm &&& ~~~m } ∧
      (let x := (t.wv b w).path j
       x.st = .fault ∧ x.full = m ∧ x.exm = (v.path i).exm &&& m ∧ x.pc = (v.path i).pc ∧ x.cpos = (v.path i).cpos ∧
        x.hdr = (v.path i).hdr ∧ x.parent = some i ∧ x.mode = .plain) ∧
      (∀ k < 8, k ≠ i → k ≠ j → (t.wv b w).path k = v.path k) ∧
      (∃ d ∈ (t.wv b w).deferred, d.path = j ∧ d.op = { o with lanes := bad } ∧ d.recorded = false) ∧
      (t.wv b w).g = v.g ∧ (t.wv b w).q = v.q ∧
      (if o.lanes.all (fun l => l.fault?.isSome || l.st == .returned) then
         (t.wv b w).op? o.id = none ∧ (t.wv b w).ctr o.ctr = v.ctr o.ctr - 1
       else (t.wv b w).ctr o.ctr = v.ctr o.ctr)

/-- An entry of the wait table of wave `w` of block `b` that has not been replayed keeps deferred access `d` (R80, R81). -/
def Sys2Proof.Machine.Awaited (s : State) (b : Nat) (d : Deferred) : Prop :=
  ∃ i ∈ d.keys, ∃ x, SMap.get none (s.core (s.blk b).core).wait i = some x ∧ x.replayed = 0

/-- R76 to R79: at its delivery point a wave is checkpointed, and its lowest-numbered FAULT path runs ahead; when run-ahead has ended and
nothing of it is to come, registers, predicates, rename tables and the path that ran ahead are those of the checkpoint, and what the other
paths have met meanwhile stands (the model's reading, log entry 69); with the last record written every FAULT path whose accesses have
theirs parks, but one whose entries have all been replayed meanwhile is released. -/
def Sys2Proof.Machine.RunAheadEvents : Prop :=
  (∀ (b w p : Nat) (s : State),
    let v := s.wv b w
    v.st = .live → v.ra = none → v.delivering = false → v.atRest = true → (∀ x ∈ v.paths, x.retrying = false) → (s.blk b).stopping = false →
    b < s.blocks.length → w < (s.blk b).waves.length → v.unrecorded ≠ [] →
    p < 8 → (v.path p).st = .fault → (∀ k < p, (v.path k).st ≠ .fault) →
    ∃ t r, exec (.deliveryPoint b w) s = .next t ∧ OnlyWave s t b w ∧ (t.wv b w).ra = some r ∧ (t.wv b w).delivering = true ∧
      r.path = p ∧ r.count = 0 ∧ r.pend = [] ∧ r.found = [] ∧
      r.savedG = v.g ∧ r.savedQ = v.q ∧ r.savedPaths = v.paths ∧ r.savedRename = v.rename ∧
      (t.wv b w).path p = { v.path p with st := .run, waitOn := .none, acq := none, blocked := none, phase := 0 } ∧
      ∀ k, k ≠ p → (t.wv b w).path k = v.path k) ∧
  (∀ (b w : Nat) (s : State) (r : RunAhead), (s.wv b w).ra = some r → r.ended = true → r.pend = [] → r.woken = [] →
    r.path < (s.wv b w).paths.length →
    let back (k : Nat) : Path := if k = r.path then r.savedPaths.getD k default else (s.wv b w).path k
    (∀ d ∈ (s.wv b w).deferred, (back d.path).wtFull = false → Awaited s b d) →
    ∃ t, exec (.runAheadEnd b w) s = .next t ∧ (t.wv b w).ra = none ∧ (t.wv b w).g = r.savedG ∧ (t.wv b w).q = r.savedQ ∧
      (t.wv b w).rename = r.savedRename ∧ (t.wv b w).fflags = (s.wv b w).fflags ∧
      ∀ k, { (t.wv b w).path k with parked := (back k).parked, parkedAt := (back k).parkedAt } = back k) ∧
  (∀ (b w : Nat) (s s1 : State) (x : BitVec 512), (s.wv b w).ringWait = [x] →
    s.writeRecord (s.launchOf b).world x = (.done, s1) → ∃ t, exec (.faultRingSpaceFreed b w) s = .next t ∧
      (t.wv b w).ringWait = [] ∧ (t.wv b w).delivering = false ∧ t.mem = s1.mem ∧ t.l2 = s1.l2 ∧
      ∀ k, ((t.wv b w).path k).isFault = true → ((t.wv b w).path k).retrying = false →
        (∀ d ∈ (s.wv b w).deferred, d.path = k → d.recorded = true) → ((t.wv b w).path k).parked = true)

/-- R81, R82, R86: a REPLAY reaches a core, after the fault reports that came before it, and marks the entries it names as replayed; SC falls
in its wave once every core has applied it. A FAULT path whose re-issued accesses have all returned without a fault goes on where it
stopped, and its word is fetched again. -/
def Sys2Proof.Machine.ReplayEvents : Prop :=
  (∀ (core b w id : Nat) (rest : List (Nat × Nat × Nat)) (s : State) (o : AsyncOp) (ctl : Word),
    (s.core core).replays = (b, w, id) :: rest → (∀ x ∈ s.wavesOn core, ∀ o ∈ (s.wv x.1 x.2).ops, ∀ l ∈ o.lanes, l.fault? = none) →
    (s.wv b w).op? id = some o → o.kind = .replay ctl → ctl.getLsbD 16 = false → (s.wv b w).ra = none →
    let key : WaitKey := .granule (fld ctl 15 12) ((o.lanes.headD {}).addr.toNat / 65536)
    ∃ t, exec (.replayApply core) s = .next t ∧ (t.core core).replays = rest ∧ t.mem = s.mem ∧
      (∀ e ∈ (t.core core).wait, ∀ x, e.2 = some x → x.key = key → x.replayed = if ctl.getLsbD 17 then 2 else 1) ∧
      (if o.phase ≤ 1 then (t.wv b w).op? id = none ∧ ((b, w) ∉ s.wavesOn core → (t.wv b w).ctr o.ctr = (s.wv b w).ctr o.ctr - 1)
       else ∃ o', (t.wv b w).op? id = some o' ∧ o'.phase = o.phase - 1)) ∧
  (∀ (b w p : Nat) (s : State),
    let x := (s.wv b w).path p
    p < 8 → p < (s.wv b w).paths.length → x.st = .fault → x.retrying = true → x.waitOn = .none →
    (s.wv b w).retryLeft p = false → (∀ d ∈ (s.wv b w).deferred, d.path ≠ p) →
    ∃ t, exec (.faultPathResume b w p) s = .next t ∧ t.mem = s.mem ∧
      (let y := (t.wv b w).path p
       y.st = .run ∧ y.retrying = false ∧ y.blocked = some .fetch ∧ y.again = true ∧ y.pc = x.pc ∧ y.cpos = x.cpos ∧ y.full = x.full ∧ y.exm = x.exm))

/-- R73, R76 to R81, R86: the split of the lanes that fault, the delivery point and run-ahead, the records, REPLAY and resumption.
Readings of the model: what ends a run-ahead (log entry 16), a full wait table (log entry 17), re-issue (log entry 18), faults that come
apart in time (log entry 66), and of single rules (log entry 69). -/
def Obligations.DeferredFaultEvents : Prop := FaultedLanesSplit ∧ RunAheadEvents ∧ ReplayEvents

/-! ### Copies -/

/-- What the start of a segment leaves: it waits or is refused with nothing taken; it holds every pin and every line of the segment;
or the copy has stopped with a CODE and owns nothing. -/
def Sys2Proof.Machine.Started (s t : State) (x : Copy) : Prop :=
  (∃ y, t.copy? x.id = some y ∧ y.st ∈ [CopySt.queued, .refused] ∧ t.pins = s.pins ∧ t.owned = s.owned) ∨
  (∃ y, t.copy? x.id = some y ∧ y.st = .pinned ∧ t.pins = y.pins.foldl (fun m g => SMap.put 0 m g (SMap.get 0 m g + 1)) s.pins ∧
    t.owned = s.owned ++ y.owned.map fun line => (line, (s.blk (x.wave / 32)).core, x.id)) ∨
  (∃ y, t.copy? x.id = some y ∧ y.st = .done ∧ y.code ≠ 0 ∧ t.owned = s.owned.filter fun e => e.2.2 ≠ x.id)

/-- What a part of a segment's move leaves: pins and the lines of other copies stand; at least one unit of the destination that was left has
been written or given up, no line is taken, and what has been read stays read; the segment has moved where nothing is left, or where a
check has stopped the copy. -/
def Sys2Proof.Machine.MovedOn (s t : State) (x : Copy) : Prop :=
  t.pins = s.pins ∧ (∀ e ∈ t.owned, e ∈ s.owned) ∧ (∀ e ∈ s.owned, e.2.2 ≠ x.id → e ∈ t.owned) ∧
    ∃ y, t.copy? x.id = some y ∧ y.next = x.next ∧ y.pins = x.pins ∧ y.gmap = x.gmap ∧ (y.st = .pinned ∨ y.st = .moved) ∧
      (∀ e ∈ x.lines, e ∈ y.lines) ∧ (∀ u ∈ x.put, u ∈ y.put) ∧ (∀ u ∈ y.put, u ∈ x.put ∨ u ∈ x.left) ∧
      (x.left ≠ [] → ∃ u ∈ x.left, u ∈ y.put) ∧
      (y.st = .moved → y.code = 2 ∨ ∀ u ∈ x.left, u ∈ y.put)

/-- R71, R125, R127, R128: a segment starts once no earlier copy of its wave is unfinished, or is tried again after a refusal, and takes
all of its pins and lines or none; it moves by lines, or by bytes of the scratchpad, in any order (from the highest down where a global copy overlaps upward,
and recalled lines first), unless a line keeps it waiting, and for a local destination puts each source byte in its place; its completion gives up what it still holds and goes on to the next segment. -/
def Sys2Proof.Machine.CopySegmentEvents : Prop :=
  ∀ (b w : Nat) (s : State) (x : Copy), s.copy? x.id = some x → x.wave = b * 32 + w → w < 32 → (s.blk b).st = .resident → (s.blk b).stopping = false →
    (s.launchOf b).cancelled = false →
    (x.code = 0 → x.next < x.segs.length → s.inUnit x = true →
      (x.st = .queued → s.copyBehind x = false → s.batchStopped x = false →
        ∃ t, exec (.copySegmentStart b w x.id) s = .next t ∧ Started s t x) ∧
      (x.st = .refused → ∃ t, exec (.pinRetry b w x.id) s = .next t ∧ Started s t x)) ∧
    (x.st = .pinned → ∃ t, exec (.copySegmentMove b w x.id) s = .next t ∧
      (t = s ∨ (∃ ia, t = s.parkWait (s.copyWho x) ia) ∨ MovedOn s t x)) ∧
    (x.st = .pinned → (s.blk b).waking ≠ [] → exec (.copySegmentMove b w x.id) s = .next s) ∧
    (x.st = .pinned → x.fn = 0 → b < s.blocks.length →
      let seg := x.segs.getD x.next (0, 0)
      let ia (i : Nat) : Nat := iaOf x.gmap ((x.src + seg.1 + i) % 2 ^ 64)
      let place (i : Nat) : Nat := (x.dst + seg.1 + i) % 2 ^ 64
      seg.2 ≤ 2 ^ 32 → ∃ t y, exec (.copySegmentMove b w x.id) s = .next t ∧ t.copy? x.id = some y ∧
        ((∀ e ∈ y.lines, e.2.isSome) →
          (∀ i < seg.2 - seg.1,
            if place i ∈ y.put ∧ place i ∉ x.put then
              ∃ k d, (y.lines.find? fun e => e.1 == ia i / 128) = some (k, some d) ∧ (t.blk b).sByte (place i) = lineByte d (ia i % 128)
            else (t.blk b).sByte (place i) = (s.blk b).sByte (place i)) ∧
          ∀ a, (∀ i < seg.2 - seg.1, a ≠ place i) → (t.blk b).sByte a = (s.blk b).sByte a)) ∧
    (x.st = .moved → ∃ t, exec (.copySegmentComplete b w x.id) s = .next t ∧
      t.pins = x.pins.foldl (fun m g => SMap.put 0 m g (SMap.get 0 m g - 1)) s.pins ∧
      t.owned = s.owned.filter (fun e => e.2.2 ≠ x.id) ∧
      (let ends := x.code ≠ 0 ∨ x.segs.length ≤ x.next + 1
       t.copy? x.id = some
        { x with pins := [], owned := [], gmap := [], put := [], lines := if ends then [] else x.lines
                 next := if x.code = 0 then x.next + 1 else x.next, st := if ends then .done else .queued }) ∧
      { t with pins := s.pins, owned := s.owned, copies := s.copies } = s)

/-- R124, R129: a wave's oldest closed batch completes once each of its copies has; BATCHDONE is its number, the first batch that ends
with a CODE is latched with it, and its copies are gone. -/
def Sys2Proof.Machine.BatchCompletes : Prop :=
  ∀ (b w : Nat) (s : State),
    let v := s.wv b w
    let n := v.openBatch - v.openBatches
    let mine := s.copies.filter fun c => c.wave == b * 32 + w && c.batch == n
    b < s.blocks.length → w < (s.blk b).waves.length → (s.blk b).st = .resident → v.openBatches ≠ 0 → (∀ x ∈ mine, x.st = .done) →
    (v.batches.find? fun x => x.num == n).bind Batch.comp = none →
    ∃ t, exec (.batchComplete b w) s = .next t ∧ (t.wv b w).batchDone = BitVec.ofNat 32 n ∧
      (∀ x, x ∈ t.copies ↔ x ∈ s.copies ∧ x ∉ mine) ∧ { t with copies := s.copies, blocks := s.blocks } = s ∧
      (v.latch.isSome → (t.wv b w).latch = v.latch) ∧
      (v.latch = none → (∀ x ∈ mine, x.code = 0 ∧ x.skipped = []) → (t.wv b w).latch = none) ∧
      (v.latch = none → ∀ x ∈ mine, x.code ≠ 0 → (∀ y ∈ mine, y.code ≠ 0 → y ≠ x → x.pos < y.pos) → (t.wv b w).latch = some (n, x.code))

/-! ### Matrix units -/

/-- R240, R242, R247, R248: a quorum of which every member is held at the same MMA is released: the operation enters the core's queue
with the fragments of every member, and each member goes on past its MMA with MC one higher. At the head of the queue a TZERO clears its
tile, and a TLD has read it. -/
def Sys2Proof.Machine.MatrixUnitEvents : Prop :=
  (∀ (core b w : Nat) (s : State) (x : Word × Word × Word),
    let ms := qrMembers (s.wv b w).quorum
    (s.wavesOn core).find? (fun bw =>
      let v := s.wv bw.1 bw.2
      !(s.blk bw.1).stopping && v.st == .live && v.atLatch &&
        (qrMembers v.quorum).all fun w => (s.wv bw.1 w).st == .live && (s.wv bw.1 w).atLatch) = some (b, w) →
    (∀ m ∈ ms, (s.wv b m).saddle = some x) → w ∈ ms → ms.Nodup → (s.core core).matq.length < 16 →
    (∀ m ∈ ms, ∃ p, (s.wv b m).saddlePath = some p ∧ (s.wv b m).ra = none ∧ p < (s.wv b m).paths.length ∧ ((s.wv b m).path p).mode = .plain) →
    ∃ t q, exec (.saddleRelease core) s = .next t ∧ (t.core core).matq = (s.core core).matq ++ [q] ∧
      q.block = b ∧ q.waves.map Prod.fst = ms ∧
      q.kind = .mma (fld x.1 23 21) x.2.1 (fld x.1 13 7) (fld x.1 6 0) x.2.2 ∧ q.frags.length = ms.length ∧
      ∀ m ∈ ms, (t.wv b m).saddle = none ∧ (t.wv b m).mc = (s.wv b m).mc + 1 ∧
        ∀ p, (s.wv b m).saddlePath = some p → ((t.wv b m).path p).pc = ((s.wv b m).path p).pc + 4 ∧ ((t.wv b m).path p).blocked = none) ∧
  (∀ (core w id : Nat) (s : State) (m : MatOp) (rest : List MatOp) (o : AsyncOp),
    let b := m.block
    (s.core core).matq = m :: rest → s.matAccept core = s → m.waves = [(w, id)] → (s.wv b w).op? id = some o → (s.wv b w).ra = none →
    (∀ desc rows cols, m.kind = .tzero desc rows cols → 4 * tdCol desc + 4 * cols ≤ 1024 →
      ∃ t, exec (.matrixOpApply core) s = .next t ∧ (t.core core).matq = rest ∧ (t.wv b w).op? id = none ∧
        (t.wv b w).ctr o.ctr = (s.wv b w).ctr o.ctr - 1 ∧
        ∀ k, SMap.get 0 (t.blk b).tile k =
          if tdRow desc ≤ k / 1024 ∧ k / 1024 < tdRow desc + rows ∧ 4 * tdCol desc ≤ k % 1024 ∧ k % 1024 < 4 * tdCol desc + 4 * cols
          then 0 else SMap.get 0 (s.blk b).tile k) ∧
    (∀ desc n, m.kind = .tld desc n →
      ∃ t o', exec (.matrixOpApply core) s = .next t ∧ (t.core core).matq = rest ∧ (t.blk b).tile = (s.blk b).tile ∧
        (t.wv b w).op? id = some o' ∧ ∀ l ∈ o'.lanes, l.st = .ready ∧ l.res.length = n ∧
          ∀ j < n, l.res.getD j 0 = BitVec.ofNat 32 (leNat ((s.blk b).tRead (tdPos desc l.lane j).1 (4 * (tdPos desc l.lane j).2) 4))))

/-- The accumulator element at a tile position (row, column), and a byte of the tile store (R238). -/
def Sys2Proof.Machine.tileCell (k : Block) (pos : Nat × Nat) : Nat := leNat (k.tRead pos.1 (4 * pos.2) 4)
def Sys2Proof.Machine.tileByte (k : Block) (row byte : Nat) : Nat := (SMap.get 0 k.tile (row * 1024 + byte)).toNat

/-- Only bytes of the tile rows for which `p` holds may have changed. -/
def Sys2Proof.Machine.TileElsewhere (k k' : Block) (p : Nat → Nat → Prop) : Prop := ∀ row byte, byte < 1024 → ¬ p row byte → tileByte k' row byte = tileByte k row byte

/-- R200: one K-block on one FP32 accumulator: NaN where an operand or a scale is NaN, a product is 0 × ∞ or infinite products of both signs
meet; infinite where a product is; else the exact sum of the exact products and the accumulator, rounded once. -/
def Sys2Proof.Machine.Accumulated (f : Fmt) (c c' : Nat) (as bs : List Nat) (sa sb : Nat) : Prop :=
  let ps := (as.zip bs).map fun e => (f.value e.1, f.value e.2)
  let isInf (x : FV) : Prop := ∃ n, x = .inf n
  let infinite (n : Bool) : Prop := ∃ e ∈ ps, (isInf e.1 ∨ isInf e.2) ∧ (e.1.neg != e.2.neg) = n
  let bad := sa = 255 ∨ sb = 255 ∨ (∃ e ∈ ps, e.1.isNan = true ∨ e.2.isNan = true ∨ (isInf e.1 ∧ e.2.isZero = true) ∨ (e.1.isZero = true ∧ isInf e.2)) ∨
    (infinite false ∧ infinite true)
  let scale : Rat := (2 : Rat) ^ ((sa : Int) - 127) * (2 : Rat) ^ ((sb : Int) - 127)
  let sum : Rat := (ps.map fun e => fvRat e.1 * fvRat e.2 * scale).sum
  let acc := Fmt.f32.value c
  if bad ∨ acc.isNan = true then c' = 0x7FC00000
  else if infinite false ∨ infinite true then
    (∀ n, infinite n → acc = .inf (!n) → c' = 0x7FC00000) ∧ ∀ n, infinite n → acc ≠ .inf (!n) → Fmt.f32.value c' = .inf n ∧ c' < 2 ^ 32
  else if isInf acc then c' = c
  else if sum = 0 then c' = if c = 0x80000000 then 0 else c
  else (sum + fvRat acc = 0 → c' = 0) ∧
    ∀ neg m e, m ≠ 0 → fvRat (.fin neg m e) = sum + fvRat acc → c' = (Fmt.f32.round .rne neg m e).bits

/-- R243 to R245: element `k` of row `i` of A (or column `i` of B) of a member whose run was read as `rows`, and its scale for a
K-block, 127 where the type has none. -/
def Sys2Proof.Machine.fragBits (w p : Nat) (rows : List Row) (i k : Nat) : Nat :=
  ((rows.getD (8 * (i / 32) + k / p) zeroRow).getD (i % 32) 0).toNat / 2 ^ (w * (k % p)) % 2 ^ w
def Sys2Proof.Machine.fragScaleByte (mx : Bool) (rows : List Row) (i blk : Nat) : Nat :=
  if mx then ((rows.getD 16 zeroRow).getD (i % 32) 0).toNat / 256 ^ (2 * blk + i / 32) % 256 else 127

/-- R200, R201, R243 to R250: an MMA at the head of the queue accumulates every element of its tile by one K-block, or two for E2M1, in the
type of its fn; nothing else of the tile store changes; its members' MC falls, and each one's MXSKIP counts the products whose A element is zero,
of rows and columns that are eligible. -/
def Sys2Proof.Machine.MatrixMultiplyApplies : Prop :=
  ∀ (core fn : Nat) (desc q : Word) (ra rb : Nat) (s : State) (m : MatOp) (rest : List MatOp), (s.core core).matq = m :: rest → s.matAccept core = s →
    m.kind = .mma fn desc ra rb q → (m.waves.map Prod.fst).Nodup →
    ∀ e ∈ [(0, some Fmt.e4m3, 8, 4, false), (1, some .e5m2, 8, 4, false), (2, some .bf16, 16, 2, false), (3, some .f16, 16, 2, false),
        (4, some .e4m3, 8, 4, true), (5, some .e2m3, 6, 4, true), (6, some .e2m1, 4, 8, true), (7, none, 8, 4, false)],
    e.1 = fn →
    let fmt := e.2.1
    let w := e.2.2.1
    let p := e.2.2.2.1
    let mx := e.2.2.2.2
    let na := (qrA q).length
    let nb := (qrB q).length
    tdCol desc + 64 * (if tdT desc then na else nb) ≤ 256 →
    let blocks := if fn = 6 then 2 else 1
    let len := if fn = 2 ∨ fn = 3 then 16 else 32
    let A (i : Nat) : List Row := m.frags.getD (i / 64) []
    let B (j : Nat) : List Row := m.frags.getD (na + j / 64) []
    let as (i blk : Nat) : List Nat := (List.range len).map fun k => fragBits w p (A i) (i % 64) (32 * blk + k)
    let bs (j blk : Nat) : List Nat := (List.range len).map fun k => fragBits w p (B j) (j % 64) (32 * blk + k)
    let sa (i blk : Nat) : Nat := fragScaleByte mx (A i) (i % 64) blk
    let sb (j blk : Nat) : Nat := fragScaleByte mx (B j) (j % 64) blk
    let signed (x : Nat) : Int := if x < 128 then x else (x : Int) - 256
    let zero (x : Nat) : Bool := match fmt with | some f => (f.value x).isZero | none => x == 0
    let eligible (i j blk : Nat) : Bool := match fmt with
      | some f => sa i blk ≠ 255 && sb j blk ≠ 255 && (bs j blk).all fun x => !(f.value x).isNan && !(f.value x).isInf
      | none => true
    let skipped : Nat := ((List.range blocks).map fun blk => ((List.range (64 * na)).map fun i => ((List.range (64 * nb)).map fun j =>
      if eligible i j blk then ((as i blk).filter zero).length else 0).sum).sum).sum
    ∃ t, exec (.matrixOpApply core) s = .next t ∧ (t.core core).matq = rest ∧
      (m.block < s.blocks.length → ∀ i < 64 * na, ∀ j < 64 * nb,
        let c := tileCell (s.blk m.block) (tdPos desc i j)
        let c' := tileCell (t.blk m.block) (tdPos desc i j)
        match fmt with
        | none => (c' : Int) = (c + (((as i 0).zip (bs j 0)).map fun x => signed x.1 * signed x.2).sum) % 2 ^ 32
        | some f => ∃ c1, Accumulated f c c1 (as i 0) (bs j 0) (sa i 0) (sb j 0) ∧
            if blocks = 1 then c' = c1 else Accumulated f c1 c' (as i 1) (bs j 1) (sa i 1) (sb j 1)) ∧
      TileElsewhere (s.blk m.block) (t.blk m.block) (fun row byte => ∃ i < 64 * na, ∃ j < 64 * nb, tdPos desc i j = (row, byte / 4)) ∧
      ∀ x ∈ m.waves, x.1 < (s.blk m.block).waves.length →
        (t.wv m.block x.1).mxskip = (s.wv m.block x.1).mxskip + BitVec.ofNat 32 skipped ∧
        ∀ o, (s.wv m.block x.1).op? x.2 = some o → (s.wv m.block x.1).ra = none →
          (t.wv m.block x.1).op? x.2 = none ∧ (t.wv m.block x.1).ctr o.ctr = (s.wv m.block x.1).ctr o.ctr - 1

/-- R252, R256: a TST writes the registers of its lanes, as its issue has read them, to their elements; a TCVT encodes its whole source region
and writes it, with zeros in what is left of the last column. Both then lower their wave's MC. -/
def Sys2Proof.Machine.TileStoresApply : Prop :=
  ∀ (core w id : Nat) (s : State) (m : MatOp) (rest : List MatOp) (o : AsyncOp),
    let b := m.block
    (s.core core).matq = m :: rest → s.matAccept core = s → m.waves = [(w, id)] → (s.wv b w).op? id = some o → (s.wv b w).ra = none →
    b < s.blocks.length →
    let ends (t : State) : Prop := exec (.matrixOpApply core) s = .next t ∧ (t.core core).matq = rest ∧ (t.wv b w).op? id = none ∧
      (t.wv b w).ctr o.ctr = (s.wv b w).ctr o.ctr - 1
    (∀ desc n, m.kind = .tst desc n → (m.lanes.map LaneOp.lane).Nodup →
      (∀ l ∈ m.lanes, tdCol desc + (if tdT desc then l.lane + 1 else n) ≤ 256) →
      ∃ t, ends t ∧ (∀ l ∈ m.lanes, ∀ j < n, tileCell (t.blk b) (tdPos desc l.lane j) = l.data.toNat / 2 ^ (32 * j) % 2 ^ 32) ∧
        TileElsewhere (s.blk b) (t.blk b) fun row byte => ∃ l ∈ m.lanes, ∃ j < n, tdPos desc l.lane j = (row, byte / 4)) ∧
    (∀ dst src rows cols fmt sat, m.kind = .tcvt dst src rows cols fmt sat →
      let f : Fmt := match fmt with | 0 => .bf16 | 1 => .f16 | 2 => .e4m3 | _ => .e5m2
      let n := if fmt < 2 then 2 else 1
      let wide := 4 * ((n * cols + 3) / 4)
      tdCol src + cols ≤ 256 → 4 * tdCol dst + wide ≤ 1024 →
      ∃ t, ends t ∧ (∀ r < rows, ∀ i < wide, tileByte (t.blk b) (tdRow dst + r) (4 * tdCol dst + i) =
          if i < n * cols then
            (f.encode .rne sat (Fmt.f32.value (tileCell (s.blk b) (tdRow src + r, tdCol src + i / n)))).1 / 256 ^ (i % n) % 256
          else 0) ∧
        TileElsewhere (s.blk b) (t.blk b) fun row byte =>
          tdRow dst ≤ row ∧ row < tdRow dst + rows ∧ 4 * tdCol dst ≤ byte ∧ byte < 4 * tdCol dst + wide)

/-- R254: the bytes that a TLDG or TSTG moves: byte `i` of row `r` at VA + r * PITCH + i, in spans of one 128-byte line. -/
def Sys2Proof.Machine.TileSpansCover : Prop :=
  ∀ (desc : Word) (rows cols pitch va : Nat) (gmap : List (Nat × Nat)), 0 < cols → cols ≤ 256 → va < 2 ^ 64 → va % 4 = 0 → pitch % 4 = 0 →
    let spans := tileSpans desc rows cols pitch va gmap
    (∀ e ∈ spans, ∃ r < rows, ∃ i < 4 * cols, e.1 = tdRow desc + r ∧ e.2.1 = 4 * tdCol desc + i ∧ e.2.2.1 = (va + r * pitch + i) % 2 ^ 64 ∧
      e.2.2.2.1 = iaOf gmap e.2.2.1 ∧ 0 < e.2.2.2.2 ∧ i + e.2.2.2.2 ≤ 4 * cols ∧ e.2.2.1 % 128 + e.2.2.2.2 ≤ 128) ∧
    ∀ r < rows, ∀ i < 4 * cols, ∃ e ∈ spans, e.1 = tdRow desc + r ∧ e.2.1 ≤ 4 * tdCol desc + i ∧ 4 * tdCol desc + i < e.2.1 + e.2.2.2.2

/-- R166, R168, R254, R300: a TLDG or TSTG in its turn moves its spans in order: each line is read, or merged as a store, as L2 and the line's translation
allow; a line that fails is left out, with one fault for each granule; one that must wait is the first to be tried again, and what has been
moved is not moved again. When no span is left the wave's MC falls, or the operation is deferred. That it goes to L2 and not to L1 is the
model's reading (log entry 54). -/
def Sys2Proof.Machine.TileCopiesApply : Prop :=
  ∀ (core w id rows cols pitch : Nat) (desc : Word) (store : Bool) (s : State) (m : MatOp) (rest : List MatOp) (op : AsyncOp),
    let b := m.block
    let o := m.lanes.headD {}
    let a : Who := { b, w, op := id, lane := o.lane, core, world := (s.launchOf b).world }
    let spans := (tileSpans desc rows cols pitch o.addr.toNat (pairsOf o.aux)).drop m.moved
    (s.core core).matq = m :: rest → s.matAccept core = s → m.waves = [(w, id)] → (s.wv b w).op? id = some op →
    m.kind = (if store then .tstg desc rows cols pitch else .tldg desc rows cols pitch) →
    let turn := (s.wv b w).mayPerform op o = true ∧ s.shadeTurn (s.wv b w) op o = true
    (¬ turn → exec (.matrixOpApply core) s = .next s) ∧
    (∀ s1, turn → s.tileMove a store spans m.fails = (s1, [], 0) → (s.wv b w).ra = none →
      ∃ t, exec (.matrixOpApply core) s = .next t ∧ t.mem = s1.mem ∧ t.l2 = s1.l2 ∧ (t.blk b).tile = (s1.blk b).tile ∧
        (t.core core).matq = (s1.core core).matq.tail) ∧
    (∀ s1 f fs, turn → s.tileMove a store spans m.fails = (s1, f :: fs, 0) →
      ∃ t, exec (.matrixOpApply core) s = .next t ∧ t.mem = s1.mem ∧ (t.blk b).tile = (s1.blk b).tile ∧
        ∀ x, (s1.wv b w).op? id = some x → w < (s1.blk b).waves.length → b < s1.blocks.length → (t.wv b w).op? id = some
          { x with lanes := (f :: fs).map fun f => { o with st := .faulted f.1 f.2.1 f.2.2.1 f.2.2.2 } }) ∧
    (∀ s1 fs left, turn → left ≠ 0 → s.tileMove a store spans m.fails = (s1, fs, left) →
      exec (.matrixOpApply core) s = .next (s1.modCore core fun k => { k with
        matq := { m with moved := m.moved + (spans.length - left), fails := fs } :: k.matq.tail })) ∧
    ∀ (r c va ia n : Nat) (t : List (Nat × Nat × Nat × Nat × Nat)) (f : List (Nat × Nat × DWord × Nat)),
      let go (s : State) (f : List (Nat × Nat × DWord × Nat)) := s.tileMove a store ((r, c, va, ia, n) :: t) f
      let noted (g : WalkFault) (s : State) : State := if g = (0x14, 6) then s.noteData g a.world ia else s
      let joined (g : WalkFault) := if f.any fun y => y.2.2.2 / 65536 == ia / 65536 then f else f ++ [(g.1, g.2, BitVec.ofNat 64 va, ia)]
      (store = true →
        (∀ s1, s.storeLine a ia ((s.blk b).tRead r c n) 0 = .ok () s1 → go s f = s1.tileMove a store t f) ∧
        (∀ g x s1, s.storeLine a ia ((s.blk b).tRead r c n) 0 = .fault g x s1 → go s f = (noted g s1).tileMove a store t (joined g)) ∧
        (∀ s1, s.storeLine a ia ((s.blk b).tRead r c n) 0 = .wait s1 → go s f = (s1, f, t.length + 1))) ∧
      (store = false →
        (∀ bs s1, s.loadLine a ia n 0 false = .ok bs s1 → go s f = (s1.modBlk b fun k => k.tWrite r c bs).tileMove a store t f) ∧
        (∀ g x s1, s.loadLine a ia n 0 false = .fault g x s1 → go s f = (noted g s1).tileMove a store t (joined g)) ∧
        (∀ s1, s.loadLine a ia n 0 false = .wait s1 → go s f = (s1, f, t.length + 1)))

/-! ### Feedback and notices -/

/-- R276, R279, R316: the core's oldest feedback report is appended to the world's feedback ring or dropped, and its lane is answered; the core's oldest
notice gives every wave that waits for its token, and holds an entry for it, the outcome: 0 where the tile has been published, 6 where
it has been aborted. -/
def Sys2Proof.Machine.FeedbackAndNoticeEvents : Prop :=
  (∀ (core b w op lane key : Nat) (entry : BitVec 128) (s s1 : State),
    (s.core core).reports.head? = some (b, w, op, lane, entry, key) →
    let world := (s.launchOf b).world
    let s0 := s.modCore core fun k => { k with reports := k.reports.tail }
    s0.ringAppend world (wrFbia (s.world world).record) 64 65536 4096 16 (fun a => if iaRegion a = world then some a else none)
      (fun tail => natBytes 16 (entry.toNat + tail)) = (.done, s1) →
    ∃ t, exec (.feedbackReportAppend core) s = .next t ∧ t.mem = s1.mem ∧ t.l2 = s1.l2 ∧
      (t.core core).filter = filterUse (s1.core core).filter (world, key) ∧
      (∀ k, k ≠ core → t.core k = s1.core k)) ∧
  (∀ (core tok b w : Nat) (published : Bool) (rest : List (Bool × Nat)) (s : State), (s.core core).notices = (published, tok) :: rest →
    (b, w) ∈ s.wavesOn core → s.hasTokenKey core (s.wv b w) tok = true →
    ∃ t, exec (.tokenNotice core) s = .next t ∧ (t.core core).notices = rest ∧ t.mem = s.mem ∧
      ∀ lane, (lane, tok, none) ∈ (s.wv b w).scwait → (lane, tok, some (if published then 0 else 6)) ∈ (t.wv b w).scwait)

/-- What copies do after issue. That each source line is read once, and each destination line is written whole in an order that is free,
is the model's reading (log entry 58). -/
def Obligations.CopyEvents : Prop := CopySegmentEvents ∧ BatchCompletes

/-- What the matrix unit does after issue. That MC rises at the release is the model's reading (log entry 53), as is that a notice is
taken up by the waves that wait for its token, and the others check again (log entry 27). -/
def Obligations.MatrixEvents : Prop :=
  MatrixUnitEvents ∧ MatrixMultiplyApplies ∧ TileStoresApply ∧ TileSpansCover ∧ TileCopiesApply ∧ FeedbackAndNoticeEvents

/-! ### Dispatch, the end of blocks, pre-emption -/

/-- What R147 and R339 give wave `w` of a block that has just been dispatched. -/
structure Sys2Proof.Machine.FreshWave (r : BitVec 2048) (idx w rank ticket : Nat) (v : Wave) : Prop where
  live : v.st = .live
  g : ∀ k, SMap.get 0 v.g k =
    if k = 1 then BitVec.ofNat 32 idx else if k = 2 then BitVec.ofNat 32 w else if k = 3 then BitVec.ofNat 32 rank
    else if k = 4 then word64 (recArg r) 0 else if k = 5 then word64 (recArg r) 1 else 0
  q : v.q = 1
  counters : v.lc = 0 ∧ v.sc = 0 ∧ v.cc = 0 ∧ v.mc = 0 ∧ v.ops = []
  mode : v.fflags = 0 ∧ v.fctrl = 0 ∧ v.tinfo = 0 ∧ v.quorum = 0 ∧ v.cticket = BitVec.ofNat 32 ticket
  path : (v.path 0).pc = recEntry r ∧ (v.path 0).cpos = 0 ∧ (v.path 0).st = .run ∧ (v.path 0).mode = .plain ∧ (v.path 0).parent = none ∧
    (v.path 0).full = maskOf (fun ln => w * 32 + ln < recThreads r) ∧ (v.path 0).exm = (v.path 0).full
  others : ∀ p, p ≠ 0 → (v.path p).st = .free

/-- R147, R153, R339, R369: the next cluster of a launch is dispatched to the cores chosen for it, on one open ridge: its blocks
follow those of the launch before it, each with its rank, its thread indexes in v0 and its waves as dispatch leaves them; no other
block changes. -/
def Obligations.DispatchResults : Prop :=
  ∀ (world l : Nat) (cores : List Nat) (s : State),
    let x := s.launches.getD l default
    let n := recCluster x.record
    s.restorePending world = false →
    (s.readyOrder world).find? (fun l => (s.openRidges world).any fun r => s.roomOn (s.launches.getD l default) r) = some l →
    s.placement x cores = true → recSV x.record = false → recB x.record ≠ 0 →
    ∃ t, exec (.blockDispatch world cores) s = .next t ∧ t.blocks.length = s.blocks.length + n ∧
      (∀ b, b < s.blocks.length → t.blk b = s.blk b) ∧
      (t.launches.getD l default) = { x with nextBlock := x.nextBlock + n } ∧
      ∃ ticket, (t.clusters.getD s.clusters.length {}).ticket = ticket ∧
        (t.clusters.getD s.clusters.length {}).members = (List.range n).map (s.blocks.length + ·) ∧
        ∀ r < n,
          let k := t.blk (s.blocks.length + r)
          k.st = .resident ∧ k.launch = l ∧ k.idx = x.nextBlock + r ∧ k.rank = r ∧ k.core = cores.getD r 0 ∧
            k.waves.length = recNw x.record ∧ k.scratch = [] ∧ k.tile = [] ∧ k.attach = 0 ∧
            ∀ w < recNw x.record, FreshWave x.record (x.nextBlock + r) w r ticket (k.waves.getD w default) ∧
              ∀ ln < 32, rowGet k.v (vRow (recNw x.record) (recB x.record) (recX x.record) w 0) ln = BitVec.ofNat 32 (w * 32 + ln)

/-- R155, R419, R458: once the waves of a block and of its cluster have ended and nothing of them is outstanding, all that it holds is
free for new dispatches; what stands in its storage stays until then. Its ridge may be lent with it. -/
def Sys2Proof.Machine.BlockRetires : Prop :=
  ∀ (b : Nat) (s : State),
    let k := s.blk b
    b < s.blocks.length → k.st = .resident → (∀ v ∈ k.waves, v.st = .done ∧ v.ops = [] ∧ v.openBatches = 0) →
    (∀ m ∈ (s.clusters.getD k.cluster {}).members, (s.blk m).endCode ≠ 0) →
    ∃ t, exec (.resourceRelease b) s = .next t ∧ (t.blk b).st = .retired ∧ (t.blk b).allFree = true ∧
      (t.blk b).scratch = k.scratch ∧ (t.blk b).tile = k.tile ∧ { t with blocks := s.blocks, ridges := s.ridges } = s ∧
      (∀ r, r ≠ k.core / 8 → t.ridge r = s.ridge r) ∧ ∀ m, m ≠ b → t.blk m = s.blk m

/-- R383, R403: the cluster of a block that may be displaced stops issuing and is marked. -/
def Sys2Proof.Machine.BlockDisplaced : Prop :=
  ∀ (b : Nat) (s : State),
    let ms := (s.mates b).filter fun m => (s.blk m).st == .resident
    b < s.blocks.length → s.displaceable b = true → (∀ m ∈ ms, s.displaceable m = true) → b ∈ ms → (∀ m ∈ ms, m < s.blocks.length) →
    s.hasHeir (s.blk b).launch = true → s.ridgeOpen (s.launchOf b).world ((s.blk b).core / 8) = true → (s.launchOf b).cancelled = false →
    ∃ t, exec (.displaceBlock b) s = .next t ∧ { t with blocks := s.blocks } = s ∧
      (∀ m ∈ ms, (t.blk m).stopping = true ∧ (t.blk m).displaced = true) ∧ ∀ m, m ∉ ms → t.blk m = s.blk m

/-- The registers, the local memory and the positions of the paths of a block are the same in two states. -/
def Sys2Proof.Machine.SameContext (s t : State) (b : Nat) : Prop :=
  (t.blk b).v = (s.blk b).v ∧ (t.blk b).scratch = (s.blk b).scratch ∧ (t.blk b).tile = (s.blk b).tile ∧
    (t.blk b).bars = (s.blk b).bars ∧ ∀ w, (t.wv b w).g = (s.wv b w).g ∧ (t.wv b w).q = (s.wv b w).q ∧
      (t.wv b w).fflags = (s.wv b w).fflags ∧ (t.wv b w).fctrl = (s.wv b w).fctrl

/-- R403, R404: a stopped block that has drained is saved with its registers, scratchpad, tile store and paths as they are, and its
place in the order of saves; restored, its waves have the registers with which they were saved. -/
def Sys2Proof.Machine.SaveAndRestore : Prop :=
  (∀ (b : Nat) (s : State) (place : Option Nat),
    let world := (s.launchOf b).world
    b < s.blocks.length → (s.mates b).filter (fun m => (s.blk m).st == .resident) = [b] → (s.blk b).stopping = true →
    (s.blk b).displaced = false → s.closing (s.blk b).core = false → s.drained b = true → s.saveRoom b = some place →
    (∀ w < (s.blk b).waves.length, (s.wv b w).ringWait = [] ∧ ∀ d ∈ (s.wv b w).deferred, d.recorded = true) → world < s.worlds.length →
    ∃ t, exec (.preemptSave b) s = .next t ∧ (t.blk b).st = .saved (s.world world).saves ∧ (t.world world).saves = (s.world world).saves + 1 ∧
      SameContext s t b ∧ (place = none → t.mem = s.mem) ∧ (∀ m, m ≠ b → t.blk m = s.blk m) ∧
      ∀ w p, ((t.wv b w).path p).pc = ((s.wv b w).path p).pc ∧ ((t.wv b w).path p).full = ((s.wv b w).path p).full ∧
        ((t.wv b w).path p).exm = ((s.wv b w).path p).exm ∧ ((t.wv b w).path p).st = ((s.wv b w).path p).st) ∧
  (∀ (b core order : Nat) (s : State), b < s.blocks.length → (s.blk b).st = .saved order →
    s.ridgeOpen (s.launchOf b).world (core / 8) = true → s.restoreTurn b core = true → s.savedMates b = [b] → s.restorable b core = true →
    core ∈ (s.launchOf b).coresOf (core / 8) → s.contextBad b = false →
    ∃ t, exec (.blockRestore b core) s = .next t ∧ (t.blk b).st = .resident ∧ (t.blk b).core = core ∧
      (t.blk b).v = (s.blk b).v ∧ (t.blk b).scratch = (s.blk b).scratch ∧ (t.blk b).tile = (s.blk b).tile ∧
      ∀ w, (t.wv b w).g = (s.wv b w).g ∧ (t.wv b w).q = (s.wv b w).q)

/-- R384, R447: a wave parked for 1 ms on waits that only other waves end sends a probe; a probe that reaches a wave that awaits others goes on
to them, one that reaches a wave that awaits none is dropped; back with a closed cycle it gives the wait-cycle trap to each of its waves
that was blocked when it came back, even where the trap of one of them ends what another waited for. -/
def Sys2Proof.Machine.ProbeEvents : Prop :=
  (∀ (b w : Nat) (ws : List (Nat × Nat)) (s : State), s.awaited b w = some ws →
    (s.wv b w).followSince + 1000 * cyclesPerUs ≤ s.clk → (s.wv b w).probedAt + 1000 * cyclesPerUs ≤ s.clk →
    ∃ t, exec (.waitcycleProbeSend b w) s = .next t ∧ t.probes = s.probes ++ [{ sender := (b, w), todo := ws, reached := [(b, w)] }] ∧
      (t.wv b w).probedAt = s.clk) ∧
  (∀ (p : Probe) (rest : List Probe) (s : State), s.probes = p :: rest →
    (∀ x todo, p.todo = x :: todo → p.reached.contains x = false →
      (∀ ws, s.awaited x.1 x.2 = some ws →
        exec .waitcycleProbeReceive s = .next { s with probes := { p with todo := todo ++ ws, reached := p.reached ++ [x] } :: rest }) ∧
      (s.awaited x.1 x.2 = none → exec .waitcycleProbeReceive s = .next { s with probes := rest })) ∧
    (∀ x todo, p.todo = x :: todo → p.reached.contains x = true →
      exec .waitcycleProbeReceive s = .next { s with probes := { p with todo } :: rest }) ∧
    (p.todo = [] → (∀ x ∈ p.reached, ∃ ws, s.awaited x.1 x.2 = some ws ∧ ∀ y ∈ ws, y ∈ p.reached) →
      exec .waitcycleProbeReceive s = .next ((({ s with probes := rest } : State)).cycleTraps p.reached
        ((s.blk p.sender.1).core * 256 + (s.wv p.sender.1 p.sender.2).slot + min p.reached.length 255 * 65536))))

/-- R383, R384, R403, R404, R447, R458: resources, displacement, pre-emption, restore and wait-cycle probes. Readings of the model: a
block keeps all it holds until its accesses are gone (log entry 21); a restore takes the model's own copy of the block (log entry 35); a
probe that comes back finds the cycle checked again (log entry 37); a debugger's holds count for it (log entry 69). -/
def Obligations.BlockEvents : Prop := BlockRetires ∧ BlockDisplaced ∧ SaveAndRestore ∧ ProbeEvents

/-! ### The command processor -/

/-- The operation of a wave has its answer: the word `x` for every lane. -/
def Sys2Proof.Machine.Answered (s t : State) (b w op : Nat) (x : Word) : Prop :=
  ∀ o, (s.wv b w).op? op = some o →
    (t.wv b w).op? op = some { o with lanes := o.lanes.map fun l => { l with st := .ready, res := [x] } }

/-- R361, R362, R363: the world's oldest arrival is applied: a counter that is not of its generation, is malformed, has nothing left to count, or
is of the wrong kind diverts it; else its COUNT falls by one; a grid barrier that reaches zero goes to its next generation and releases
its waves, and a counter that reaches zero readies its task, where it is of KIND 2, and arrives on its PARENT, where it has one. -/
def Sys2Proof.Machine.ArrivalApplied : Prop :=
  ∀ (world : Nat) (a : Arrival) (s s1 : State) (o : Counter),
    s.arrivals.find? (fun a => a.world == world) = some a →
    ({ s with arrivals := s.arrivals.erase a } : State).readCounter a.asid a.va = (.ok o, s1) →
    let ok := o.malformed a.va = false ∧ o.gen = a.gen ∧ o.count ≠ 0 ∧ kindFits o.kind a.src = true
    (¬ ok → exec (.counterArrive world) s = .next ((s1.divert a.launch a.va a.gen o.gen).replyArrival a 2)) ∧
    (ok → 1 < o.count → ∀ s2,
      s1.writeCounter a.asid a.va { o with status := max o.status a.status, count := o.count - 1 } = (none, s2) →
      exec (.counterArrive world) s = .next (s2.replyArrival a 0)) ∧
    (ok → o.count = 1 → o.kind = 1 → ∀ s2,
      s1.writeCounter a.asid a.va { o with gen := (o.gen + 1) % 2 ^ 16, count := o.target, status := 0 } = (none, s2) →
      exec (.counterArrive world) s = .next ((s2.releaseGrid a.world a.va a.gen).replyArrival a 1)) ∧
    (ok → o.count = 1 → o.kind = 0 ∨ o.kind = 2 → ∀ s3,
      let status := max (max o.status a.status) 1
      s1.writeCounter a.asid a.va { o with status, count := 0 } = (none, s3) →
      let s2 := if o.kind = 2 then s3.taskReady a.asid (a.va - 224) status else s3
      (o.parent = 0 ∨ a.links = some 0 → exec (.counterArrive world) s = .next (s2.replyArrival a 1)) ∧
      (o.parent ≠ 0 → a.links ≠ some 0 → exec (.counterArrive world) s = .next
        (({ s2 with
            arrivals :=
              { a with va := o.parent, gen := o.pgen, status, src := .parent, links := a.links.map (· - 1) } :: s2.arrivals } : State).replyArrival a 1)))

/-- R361, R366, R369, R371: a task whose DEP has completed is read again. With STATUS 1 it enters the ready queue, where its record
passes R366 and is of no stage; with STATUS 2 or 3 it is not dispatched, and its counter and its successors receive arrivals with that
STATUS. Nothing happens where there is no such pending task, or TCANCEL has dropped it. -/
def Sys2Proof.Machine.TaskReadied : Prop :=
  ∀ (asid va status : Nat) (s : State),
    let waits (l : Nat) : Prop :=
      let x := s.launches.getD l default
      l < s.launches.length ∧ x.st = .pending ∧ x.cancelled = false ∧ recAsid x.record = asid ∧ x.va.toNat = va
    ((∀ l, ¬ waits l) → s.taskReady asid va status = s) ∧
    ∀ l bs s1, waits l → (∀ k, k < l → ¬ waits k) → s.cpRead asid [.load] va 256 = (.ok bs, s1) → s1.launches = s.launches →
      let x := s.launches.getD l default
      let r := BitVec.ofNat 2048 (leNat bs)
      let t := s.taskReady asid va status
      let a (va gen : Nat) : Arrival := { world := x.world, asid := recAsid r, va, gen, status, launch := l, src := .cp }
      (status ≠ 1 → t.launches.getD l default = { x with record := r, st := .done, slot := none } ∧
        t.arrivals = s1.arrivals ++ [{ a (recCntva r) (recCntgen r) with links := some 3 }] ++
          (if recSucc0 r = 0 then [] else [a (recSucc0 r) (recSgen0 r)]) ++ (if recSucc1 r = 0 then [] else [a (recSucc1 r) (recSgen1 r)])) ∧
      (status = 1 → recMalformed x.va r = false → recAsid r / 4096 = x.world → recOcc r ≠ 0 → recCluster r ≤ 8 * recOcc r → recSV r = false →
        let y := t.launches.getD l default
        y.st = .ready ∧ y.record = r ∧ y.prio = min (recPrio r) x.prio ∧ y.nextBlock = 0 ∧ y.slot = none ∧ t.arrivals = s1.arrivals)

/-- R371: TCANCEL of a counter. One that is malformed answers 2 and one with COUNT 0 answers 1, and nothing else happens. Else every
accepted launch and pending task of the space whose chain has the counter is marked, pending ones are dropped, and the waves of marked
launches are stopped; the wave is answered at the end. -/
def Sys2Proof.Machine.CancelBegins : Prop :=
  ∀ (b w : Nat) (s s1 : State) (o : AsyncOp) (l : LaneOp) (bs : List Byte), CarriedOut s b w o l → o.kind = .tcancel → o.phase = 0 →
    s.engRead (s.launchOf b).world l.ia 32 = (.ok bs, s1) →
    let asid := recAsid (s.launchOf b).record
    let va := l.va.toNat
    let ctr := counterOf (BitVec.ofNat 256 (leNat bs))
    let marked (n : Nat) : Prop :=
      let x := s1.launches.getD n default
      n < s1.launches.length ∧ (x.st = .ready ∨ x.st = .pending) ∧ recAsid x.record = asid ∧ va ∈ x.chain
    (ctr.malformed va = true → exec (.asyncResultReturn b w o.id l.lane) s = .next (s1.answer b w o.id 2)) ∧
    (ctr.malformed va = false → ctr.count = 0 → exec (.asyncResultReturn b w o.id l.lane) s = .next (s1.answer b w o.id 1)) ∧
    (ctr.malformed va = false → ctr.count ≠ 0 → ∃ t x, exec (.asyncResultReturn b w o.id l.lane) s = .next t ∧
      t.cancels = s1.cancels ++ [x] ∧ x.block = b ∧ x.wave = w ∧ x.op = o.id ∧ x.va = va ∧ x.asid = asid ∧
      (∀ n, n ∈ x.launches ↔ marked n) ∧ (∀ n, marked n → (t.launches.getD n default).cancelled = true) ∧
      ∀ n, marked n → (s1.launches.getD n default).cancelled = false → (∀ k ∈ s1.blocksOf n, (t.blk k).endCode ≠ 0) ∧
        ((s1.launches.getD n default).st = .pending → (t.launches.getD n default).slot = none))

/-- R370, R371: a launch all of whose blocks were dispatched and are over completes, and arrives on its counter and its successors, with STATUS 3 where
a wave of it ended by a trap, an error completion or an overrun, else 1; a cancellation ends once the blocks it stopped are over. -/
def Sys2Proof.Machine.LaunchEnds : Prop :=
  (∀ (l : Nat) (s : State),
    let x := s.launches.getD l default
    let r := x.record
    let a (va gen status : Nat) : Arrival := { world := x.world, asid := recAsid r, va, gen, status, launch := l, src := .cp }
    let status := if x.nerr ≠ 0 ∨ x.trapEnd = true ∨ x.overrun = true then 3 else 1
    l < s.launches.length → x.st = .ready → x.cancelled = false → (∀ b ∈ s.blocksOf l, s.blockQuiet b = true) → recSV r = false →
    x.nextBlock = recGridX r * recGridY r * recGridZ r →
    ∃ t, exec (.launchComplete l) s = .next t ∧ t.launches.getD l default = { x with st := .done } ∧
      t.arrivals = s.arrivals ++ [{ a (recCntva r) (recCntgen r) status with links := some 3 }] ++
        (if recSucc0 r = 0 then [] else [a (recSucc0 r) (recSgen0 r) status]) ++
        (if recSucc1 r = 0 then [] else [a (recSucc1 r) (recSgen1 r) status]) ∧ t.blocks = s.blocks) ∧
  (∀ (c : Nat) (s : State) (x : Cancel), s.cancels[c]? = some x → (∀ l ∈ x.launches, ∀ b ∈ s.blocksOf l, s.blockQuiet b = true) →
    ∃ t, exec (.cancelFinish c) s = .next t ∧ t.cancels = s.cancels.eraseIdx c ∧ Answered s t x.block x.wave x.op 0 ∧
      ∀ l ∈ x.launches, l < s.launches.length → (t.launches.getD l default).st = .done)

/-- R372, R374, R386: a job is enqueued for the stage of the wave's pipeline that the control word names: 0 where it went in, 1 where the
queue is closed or full, 2 where there is no such stage, 3 with its reason where the job or the queue cannot be reached, and only 1
counts in the stage's window; the command processor learns from a stage's header that its queue is closed; cores of a ridge
that hold a block of a stage stay with it. -/
def Sys2Proof.Machine.StageEvents : Prop :=
  (∀ (b w stage : Nat) (s : State) (o : AsyncOp) (l : LaneOp), (s.wv b w).op? o.id = some o → o.kind = .tlaunchJob stage →
    o.lanes.find? (fun l => l.st == .pending) = some l →
    let me := s.launchOf b
    let target := (List.range s.launches.length).find? fun t =>
      let x := s.launches.getD t default
      x.world == me.world && x.st == .ready && !x.cancelled && recSV x.record && recPipe x.record == recPipe me.record && recSidx x.record == stage
    let mine := (s.blk b).launch
    let window (u : State) (x : Option Nat) : State := u.modLaunch mine fun y => { y with window1 := x }
    (recPipe me.record = 0 ∨ target = none → exec (.stageEnqueue b w o.id) s = .next ((window s none).answer b w o.id 2)) ∧
    (∀ t f s1, recPipe me.record ≠ 0 → target = some t → s.cpRead (recAsid me.record) [.load] l.va.toNat 32 = (.error f, s1) →
      exec (.stageEnqueue b w o.id) s =
        .next ((window (s1.logFault f none me.world l.va.toNat) none).answer b w o.id (3 + 4 * 256))) ∧
    (∀ t job s1 s2, recPipe me.record ≠ 0 → target = some t → s.cpRead (recAsid me.record) [.load] l.va.toNat 32 = (.ok job, s1) →
      let x := s.launches.getD t default
      (s1.enqueueJob x.world (recSqia x.record) job = (.ok true, s2) →
        exec (.stageEnqueue b w o.id) s = .next ((window s2 none).answer b w o.id 0)) ∧
      (s1.enqueueJob x.world (recSqia x.record) job = (.ok false, s2) →
        exec (.stageEnqueue b w o.id) s = .next ((window s2 (some s2.clk)).answer b w o.id 1)) ∧
      ∀ f, s1.enqueueJob x.world (recSqia x.record) job = (.error f, s2) →
        exec (.stageEnqueue b w o.id) s =
          .next ((window (s2.logFault f none x.world (recSqia x.record)) none).answer b w o.id (3 + 4 * 256)))) ∧
  (∀ (l : Nat) (s s1 : State) (q : StageQ),
    let x := s.launches.getD l default
    x.st = .ready → recSV x.record = true → s.stageRead x.world (recSqia x.record) = (.ok q, s1) →
    exec (.stageClosedPoll l) s = .next (s1.modLaunch l fun y => { y with closedSeen := q.closed, closedAt := s1.clk })) ∧
  (∀ (ridge world : Nat) (s : State), (s.ridge ridge).world = some world → (s.ridge ridge).divided + 50 * cyclesPerUs ≤ s.clk →
    ridge < s.ridges.length →
    ∃ t, exec (.stageCoreDivision ridge) s = .next t ∧ { t with launches := s.launches, free := s.free, ridges := s.ridges } = s ∧
      (t.ridge ridge).divided = s.clk ∧ t.launches.length = s.launches.length ∧
      ∀ l < s.launches.length,
        let x := s.launches.getD l default
        let y := t.launches.getD l default
        { y with cores := x.cores } = x ∧
          (∀ c, c / 8 ≠ ridge → (c ∈ y.cores ↔ c ∈ x.cores)) ∧
          (x.world = world → x.st = .ready → recSV x.record = true → ∀ c, c / 8 = ridge → s.coreHolds c l = true → c ∈ y.cores))

/-- R361 to R363, R370 to R372, R374, R386: arrivals, completion, cancellation and stages. Readings of the model: which PARENT links are
followed, and one arrival for the successors of a launch cancelled twice (log entry 26); what a task that becomes ready is checked for
(log entry 24); the answers of TCANCEL and TLAUNCH for what cannot be reached (log entry 25); the moments of a stage's division and of
reading CLOSED (log entry 50). -/
def Obligations.ProcessorEvents : Prop := ArrivalApplied ∧ TaskReadied ∧ CancelBegins ∧ LaunchEnds ∧ StageEvents

/-! ### Debug requests and commands of the PRIV major -/

/-- The rows of R440 for a live path of wave `x`, once the earlier ones do not apply. -/
def Sys2Proof.Machine.HaltResults (s s1 : State) (core b w op : Nat) (o : AsyncOp) (t : Word) (k : Nat) : Prop :=
  let x := fld t 4 0
  let p := fld t 7 5
  let side := fld t 9 8
  let v := s.wv k x
  let pa := v.path p
  let shut := (s.blk k).st = .resident ∧ s.closing (s.blk k).core = true
  let ra := pa.full &&& ~~~pa.side
  let rb := pa.full &&& pa.side
  let whole (s : State) : State := s.modPath k x p fun y => { y with st := .held, hst := y.st }
  let does (t : State) : Prop := exec (.dbghaltApply core) s = .next t
  pa.live = true →
    (o.kind = .dbghalt t → shut → does ((s1.modWv k x fun v => { v with pendDebug := setBit8 v.pendDebug p true }).answer b w op 5)) ∧
    (o.kind = .dbgres t → shut ∨ v.st = .saved →
      does ((s1.modWv k x fun v => { v with pendRes := setBit8 v.pendRes p true }).answer b w op 5)) ∧
    (o.kind = .dbgres t → ¬ shut → v.st ≠ .saved → pa.st ≠ .held → does (s1.answer b w op 2)) ∧
    (o.kind = .dbghalt t → ¬ shut → pa.st ≠ .held →
      (side = 0 ∨ pa.mode ≠ .melded → does ((whole s1).answer b w op 0)) ∧
      (side ≠ 0 → pa.mode = .melded → ra ≠ 0 → rb ≠ 0 →
        (freeEntries v.paths = [] → does ((whole s1).answer b w op 3)) ∧
        ∀ j rest, freeEntries v.paths = j :: rest → v.paths.length = 8 → pa.st = .run → pa.retrying = false →
          (∀ i, i ≠ p → (v.path i).live = true → (v.path i).full &&& pa.full = 0) →
          ∃ u, does u ∧ Answered s1 u b w op 0 ∧
            (let y := (u.wv k x).path p
             let z := (u.wv k x).path j
             let named := if side = 2 then y else z
             let other := if side = 2 then z else y
             y.full = ra ∧ y.mode = .sideA ∧ z.full = rb ∧ z.mode = .sideB ∧ z.parent = some p ∧
               named.st = .held ∧ named.hst = .run ∧ other.st = .run)))

/-- R343, R440: a core's oldest DBGHALT or DBGRES is carried out on the block that its debugger is attached to, and is answered: 4 where
it is attached to none or the block has no such wave, 1 where the path is FREE or DONE, 5 where it is only recorded, 2 where there is
nothing to do. A halt makes the path HELD; one of a side of a melded path splits it, and holds it whole, with 3, where no entry is free.
While the wave runs ahead the request waits (the model's reading, log entry 69). -/
def Sys2Proof.Machine.DebugRequests : Prop :=
  ∀ (core b w op : Nat) (rest : List (Nat × Nat × Nat)) (s : State) (o : AsyncOp), (s.core core).dbg = (b, w, op) :: rest →
    (s.wv b w).op? op = some o →
    let s1 := s.modCore core fun k => { k with dbg := rest }
    (s.target b = none → s.attached b = none → exec (.dbghaltApply core) s = .next (s1.answer b w op 4)) ∧
    (∀ t k, s.target b = some k → (o.kind = .dbghalt t ∨ o.kind = .dbgres t) → s.debugWaits k (fld t 4 0) = true →
      exec (.dbghaltApply core) s = .next s) ∧
    (∀ t k, s.target b = some k → (o.kind = .dbghalt t ∨ o.kind = .dbgres t) → s.debugWaits k (fld t 4 0) = false →
      ((s.blk k).waves.length ≤ fld t 4 0 → exec (.dbghaltApply core) s = .next (s1.answer b w op 4)) ∧
      (fld t 4 0 < (s.blk k).waves.length → ((s.wv k (fld t 4 0)).path (fld t 7 5)).live = false →
        exec (.dbghaltApply core) s = .next (s1.answer b w op 1)) ∧
      (fld t 4 0 < (s.blk k).waves.length → ((s.wv k (fld t 4 0)).path (fld t 7 5)).st = .held → s.closing (s.blk k).core = false →
        (s.wv k (fld t 4 0)).st = .live →
        (o.kind = .dbghalt t → exec (.dbghaltApply core) s = .next (s1.answer b w op 2)) ∧
        (o.kind = .dbgres t → exec (.dbghaltApply core) s = .next ((s1.unholdPath k (fld t 4 0) (fld t 7 5)).answer b w op 0))) ∧
      (fld t 4 0 < (s.blk k).waves.length → HaltResults s s1 core b w op o t k))

/-- R85: an INVR is carried out, then carried out again and acknowledged once nothing in its range is pinned or still under way; one that
names range descriptors loads them again in every core that has them. -/
def Sys2Proof.Machine.InvalidationEvents : Prop :=
  ∀ (b w : Nat) (s : State) (o : AsyncOp) (ctl : Word) (l : LaneOp), (s.wv b w).op? o.id = some o → o.kind = .invr ctl → o.lanes.head? = some l →
    let r := invrRange ctl l.addr.toNat
    let world := fld ctl 15 12
    (fld ctl 17 16 ≠ 1 → o.phase ≠ 0 → s.pinnedIn r.1 r.2 = false → (∀ x ∈ l.aux, x ∉ s.atPort r.1 r.2) →
      exec (.invrAcknowledge b w o.id) s = .next ((s.purgeRange world r.1 r.2).finishOp b w o.id)) ∧
    (fld ctl 17 16 ≠ 1 → o.phase = 0 → ∃ t, exec (.invrAcknowledge b w o.id) s = .next t ∧
      (∃ y, (t.wv b w).op? o.id = some y ∧ y.phase = 1) ∧ ∀ e ∈ t.tlb, e.world = world → e.base < r.2 → r.1 < e.base + e.size →
        s.pinnedIn e.base (e.base + e.size) = true) ∧
    (fld ctl 17 16 = 1 → (s.cores.filter fun e => e.2.ranges.any fun r => r.1 == fld ctl 15 0) = [] →
      exec (.invrAcknowledge b w o.id) s = .next (s.finishOp b w o.id))

/-- R87, R88: the MIGR command at the head of a world's queue: DEMOTE and PROMOTE, where their images lie in the grant, go from frame to
frame and are answered with what is done, COPYF
copies, MAPSET and MAPCLR change the bit of a map; each is answered with its count and its code. -/
def Sys2Proof.Machine.MigrationEvents : Prop :=
  ∀ (world prog : Nat) (s : State) (k : Nat × Nat × Nat) (r : BitVec 256),
    let aux := ((((s.wv k.1 k.2.1).op? k.2.2).getD {}).lanes.headD {}).aux
    (s.migrHead world 1 = some (k, r, prog) →
      (aux = [] → s.inTier world (mgDst r) (imageBytesTo s.free (mgCount r)) true = false →
        exec (.migrDemote world) s = .next (({ s with free := s.free + mgCount r } : State).migrEnd world k 0 4)) ∧
      (∀ use us, aux = use :: us →
        (prog % 65536 = mgCount r → exec (.migrDemote world) s = .next (s.migrEnd world k (prog / 65536 / 16) 0)) ∧
        (∀ f s1, prog % 65536 ≠ mgCount r → s.engRead world (directIA world (mgSrc r + 65536 * (prog % 65536))) 65536 = (.error f, s1) →
          exec (.migrDemote world) s = .next
            ((s1.logFault f none world (mgSrc r + 65536 * (prog % 65536))).migrEnd world k (prog / 65536 / 16) 1)) ∧
        (∀ bs s1, prog % 65536 ≠ mgCount r → s.engRead world (directIA world (mgSrc r + 65536 * (prog % 65536))) 65536 = (.ok bs, s1) →
          let len := imageLen use (prog % 65536)
          let pa := mgDst r + prog / 65536
          world < s1.worlds.length →
          ∃ t, exec (.migrDemote world) s = .next t ∧ (t.world world).migrDone = (prog / 65536 + 16 + len) * 65536 + prog % 65536 + 1 ∧
            ∃ m ∈ t.images, m.pa = pa ∧ m.world = world ∧ m.len = len ∧ m.frame = memPut [] 0 bs))) ∧
    (s.migrHead world 2 = some (k, r, prog) →
      (prog % 65536 = mgCount r → exec (.migrPromote world) s = .next (s.migrEnd world k (prog % 65536) 0)) ∧
      (prog % 65536 = 0 → mgCount r ≠ 0 → s.imagesFit world (mgSrc r) (mgCount r) = false →
        exec (.migrPromote world) s = .next (s.migrEnd world k 0 4)) ∧
      (∀ m s1, prog % 65536 ≠ mgCount r → (prog % 65536 ≠ 0 ∨ s.imagesFit world (mgSrc r) (mgCount r) = true) →
        s.image world (mgSrc r + prog / 65536) = some m →
        s.engWrite world (directIA world (mgDst r + 65536 * (prog % 65536))) (memBytes m.frame 0 65536) = (none, s1) →
        exec (.migrPromote world) s = .next (s1.migrStep world ((prog / 65536 + 16 + m.len) * 65536 + prog % 65536 + 1)))) ∧
    (s.migrHead world 3 = some (k, r, prog) → mgCount r ≤ prog →
      exec (.migrCopyf world) s = .next (s.migrEnd world k prog 0)) ∧
    (s.migrHead world 3 = some (k, r, prog) → prog < mgCount r →
      (mgDst r + mgCount r * 65536 ≤ mgSrc r ∨ mgSrc r + mgCount r * 65536 ≤ mgDst r) →
      ∀ bs s1, s.readFrames world (mgSrc r + 65536 * prog) 1 = ([bs], none, s1) →
        exec (.migrCopyf world) s = .next ((s1.engWrite world (directIA world (mgDst r + 65536 * prog)) bs).2.migrStep world (prog + 1))) ∧
    (∀ op, op = 4 ∨ op = 5 ∧ prog = 0 → s.migrHead world op = some (k, r, prog) → ∀ f s1, s.engRead world (mgMap r / 8) 1 = (.error f, s1) →
      exec (if op = 4 then .migrMapset world else .migrMapclr world) s = .next
        ((s1.logFault f none world (mgMap r / 8)).migrEnd world k 0 (if f.1 = 0x14 then 1 else 5))) ∧
    (s.migrHead world 4 = some (k, r, prog) → ∀ code s1, s.mapBit world (mgMap r) true = (code, s1) →
      exec (.migrMapset world) s = .next (s1.migrEnd world k (if code = 0 then 1 else 0) code)) ∧
    (s.migrHead world 5 = some (k, r, prog) →
      (prog ≠ 0 → s.lookupsOut world = false → exec (.migrMapclr world) s = .next (s.migrEnd world k 1 0)) ∧
      (prog = 0 → ∀ s1, s.mapBit world (mgMap r) false = (0, s1) → exec (.migrMapclr world) s = .next (s1.migrStep world 1)))

/-- R88: a MIGR command that has been read is checked: BADCMD, then PERM, then GRANT; the first that applies is its answer, and the
command leaves the queue. Else it is kept for its turn. -/
def Sys2Proof.Machine.MigrationChecks : Prop :=
  ∀ (b w : Nat) (s s1 : State) (o : AsyncOp) (l : LaneOp) (bs : List Byte), CarriedOut s b w o l → o.kind = .migr → o.phase = 0 →
    let world := (s.launchOf b).world
    s.engRead world l.ia 32 = (.ok bs, s1) →
    let r := BitVec.ofNat 256 (leNat bs)
    let op := fld r 7 0
    let n := fld r 47 32
    let src := fld r 127 64
    let dst := fld r 191 128
    let ia := fld r 246 192 / 8
    let map := op = 4 ∨ op = 5
    let malformed := fld r 255 247 ≠ 0 ∨ fld r 63 48 ≠ 0 ∨ fld r 15 8 ≠ 0 ∨ op = 0 ∨ 5 < op ∨ n = 0 ∨ (op = 1 ∧ 4095 < n) ∨
      ((op = 2 ∨ op = 3) ∧ 32768 < n) ∨ (map ∧ (1 < n ∨ src ≠ 0 ∨ dst ≠ 0)) ∨ (¬ map ∧ (src % 65536 ≠ 0 ∨ dst % 65536 ≠ 0))
    let foreign := fld r 31 16 / 4096 ≠ world ∨ map ∧ (ia / 2 ^ 48 ≠ world ∨ ia / 2 ^ 44 % 16 = 15)
    let outside := (op = 1 ∧ (s1.inTier world src (n * 65536) false = false ∨ s1.inTier world dst 16 true = false)) ∨
      (op = 2 ∧ (s1.inTier world src 16 true = false ∨ s1.inTier world dst (n * 65536) false = false)) ∨
      (op = 3 ∧ (s1.inTier world src (n * 65536) false = false ∨ s1.inTier world dst (n * 65536) false = false))
    let ends (code : Word) : Prop :=
      exec (.asyncResultReturn b w o.id l.lane) s = .next ((s1.answer b w o.id code).migrDrop world (b, w, o.id))
    (malformed → ends 2) ∧ (¬ malformed → foreign → ends 3) ∧ (¬ malformed → ¬ foreign → outside → ends 4) ∧
    (¬ malformed → ¬ foreign → ¬ outside → (s1.wv b w).op? o.id = some o →
      ∃ t o', exec (.asyncResultReturn b w o.id l.lane) s = .next t ∧ (t.wv b w).op? o.id = some o' ∧ o'.phase = 1 ∧
        ∀ x ∈ o'.lanes, x.data = r.setWidth 512)

/-- R85, R87, R88, R440: what becomes of requests of the debug unit and of the PRIV major. Readings of the model: DBGHALT of an
undispatched block and of an empty side (log entry 34); INVR's two discards (log entry 29); MIGR's frames, codes and order of events (log
entry 31), its images (log entry 32); requests that wait while a wave runs ahead (log entry 69). -/
def Obligations.PrivilegedEvents : Prop := DebugRequests ∧ InvalidationEvents ∧ MigrationChecks ∧ MigrationEvents

/-! ### Shutters and heat -/

/-- R411, R413: at the end of the running entry the next one takes effect on all ridges at once: an open ridge whose world stays is not touched,
an idle one opens for its new world, or for the donee to which that lends it, and every other stops for its shutter, with the CLK of the edge. -/
def Sys2Proof.Machine.EntryEdge : Prop :=
  ∀ (s : State), s.slots ≠ [] → s.thermal = false → s.slotEnd ≤ s.clk → s.ridges.length = 32 →
    let next := s.nextEntry
    let e := next.1.getD next.2 0
    ∃ t, exec .slotEntryEdge s = .next t ∧ t.slots = next.1 ∧ t.slotEntry = next.2 ∧ t.slotStart = s.slotEnd ∧ t.slotsNext = none ∧
      t.mem = s.mem ∧ t.l2 = s.l2 ∧
      ∀ r < 32, ((s.ridge r).phase = .open_ → (s.ridge r).world.isSome → (s.ridge r).world ≠ slWorld e r →
          (t.ridge r).phase = .stop ∧ (t.ridge r).incoming = slWorld e r ∧ (t.ridge r).edge = s.slotEnd ∧ (t.ridge r).entry = s.slotEntry ∧
          (t.ridge r).world = (s.ridge r).world) ∧
        ((s.ridge r).phase ≠ .open_ → (t.ridge r).phase = (s.ridge r).phase ∧ (t.ridge r).incoming = slWorld e r) ∧
        ((s.ridge r).phase = .open_ → (s.ridge r).world = slWorld e r → (s.ridge r).world.isSome →
          (t.ridge r).phase = .open_ ∧ (t.ridge r).world = (s.ridge r).world) ∧
        ((s.ridge r).phase = .open_ → (s.ridge r).world = none →
          (t.ridge r).phase = .open_ ∧ ((t.ridge r).world = slWorld e r ∨ (t.ridge r).lent = true))

/-- R413, R418, R420: a shuttering ridge goes from DRAIN to SEAL once nothing on it is outstanding, or at the end of its budget;
from SEAL, with every block that was on it saved or gone, to SCRUB; scrubbed, its cores hold nothing of the outgoing world, and it
opens for the world that waits for it. -/
def Sys2Proof.Machine.ShutterPhases : Prop :=
  ∀ (r : Nat) (s : State), r < 32 → s.ridges.length = 32 →
    ((s.ridge r).phase = .stop ∨ (s.ridge r).phase = .drain →
      ((s.onRidge r).all s.drained = true →
        ∃ t, exec (.shutterDrainComplete r) s = .next t ∧ (t.ridge r).phase = .seal ∧ t.blocks = s.blocks ∧
          (SMap.wf none s.l2 = true → ∀ e ∈ t.l2, ∀ l, e.2 = some l → l.holder ≠ some r)) ∧
      (s.drainEnd r ≤ s.clk → s.onRidge r = [] →
        ∃ t, exec (.drainBudgetExpiry r) s = .next t ∧ (t.ridge r).phase = .seal ∧ (t.ridge r).nrec = 0 ∧ t.blocks = s.blocks)) ∧
    ((s.ridge r).phase = .seal → s.onRidge r = [] →
      ∃ t, exec (.sealComplete r) s = .next t ∧ (t.ridge r).phase = .scrub ∧ t.blocks = s.blocks ∧
        ∀ w, (s.ridge r).world = some w → w < s.worlds.length → (∀ x, x ≠ r → (s.ridge x).world = some w → (s.ridge x).phase = .scrub) →
          (t.world w).isSealed = true ∧ (t.world w).sealedClk = (s.ridge r).edge ∧
            ((16 + w), SMap.get 0 s.meas (16 + w)) ∈ (t.world w).sealedSet) ∧
    ((s.ridge r).phase = .scrub → ∃ t, exec (.scrubComplete r) s = .next t ∧ (t.ridge r).phase = .open_ ∧
      ((t.ridge r).world = (s.ridge r).incoming ∨ (t.ridge r).lent = true) ∧
      ∀ c, c / 8 = r → (t.core c).l1 = [] ∧ (t.core c).icache = [] ∧ (t.core c).recs = [] ∧ (t.core c).ranges = [] ∧ (t.core c).wait = [] ∧
        (t.core c).matq = [] ∧ (t.core c).resid = [])

/-- R416, R417: what an overrun record says of an operation of a wave none of whose accesses is deferred: its KIND; WRITTEN has the
lanes that have taken effect, CANCELLED those that have not; where a result is still due (a load, a returning or local atomic, RLD, RATOM, a
co-processor or matrix result) CANCELLED has every lane that has not returned. That a lane which took effect and whose result is
still due is in both is the model's reading (log entry 36). -/
def Sys2Proof.Machine.OverrunMasks : Prop :=
  ∀ (b w : Nat) (v : Wave) (o : AsyncOp), v.deferred = [] →
    let r := overOf b w v o
    let has (p : LaneSt → Prop) (i : Nat) : Prop := ∃ l ∈ o.lanes, l.lane = i ∧ p l.st
    let out (x : LaneSt) : Prop := x = .ready ∨ x = .returned
    let tells (kind : Nat) (writes due : Bool) : Prop :=
      r.kind = kind ∧ r.pc = o.pc ∧ r.block = b ∧ r.wave = w ∧
      ∀ i < 32, (r.written.getLsbD i = true ↔ writes = true ∧ has out i) ∧
        (r.cancelled.getLsbD i = true ↔ has (fun x => if due then x ≠ .returned else ¬ out x) i)
    match o.kind with
    | .store _ _ | .storeE _ | .storeLocal _ => tells 0 true false
    | .atomic _ _ _ ret _ => tells 1 true ret
    | .atomicLocal _ => tells 1 true true
    | .remStore _ _ => tells 2 true false
    | .remLoad _ _ => tells 3 false true
    | .remAtomic _ => tells 3 true true
    | .tstg _ _ _ _ => tells 5 true false
    | _ => tells 6 false true

/-- R417: a record of KIND at most 6 goes to the overrun log of the launch's world, whose header is laid out as R79 says, in entries of
64 bytes; the fields are those of the table, with TAIL as SEQ. A full log drops it. -/
def Sys2Proof.Machine.OverrunRecords : Prop :=
  ∀ (ridge base total : Nat) (o : Over) (s : State), o.kind ≤ 6 → o.va < 2 ^ 64 → o.segdone < 2 ^ 32 → o.batch < 2 ^ 32 →
    let l := s.launchOf o.block
    let hia := wrOvria (s.world l.world).record
    ∃ rec : Nat → BitVec 512,
      (∀ tail, fld (rec tail) 511 448 = o.va ∧ fld (rec tail) 447 384 = o.pc.toNat ∧ fld (rec tail) 383 352 = o.written.toNat ∧
        fld (rec tail) 351 320 = o.cancelled.toNat ∧ fld (rec tail) 319 288 = o.segdone ∧ fld (rec tail) 287 256 = o.batch ∧
        fld (rec tail) 255 224 = (s.blk o.block).idx % 2 ^ 32 ∧ fld (rec tail) 223 192 = tail % 2 ^ 32 ∧ fld (rec tail) 191 128 = l.va.toNat ∧
        fld (rec tail) 127 64 = (s.ridge ridge).edge % 2 ^ 64 ∧ fld (rec tail) 63 48 = recAsid l.record ∧
        fld (rec tail) 47 40 = (s.blk o.block).core % 256 ∧ fld (rec tail) 39 32 = (s.wv o.block o.wave).slot % 256 ∧
        fld (rec tail) 31 24 = o.kind ∧ fld (rec tail) 23 16 = (s.ridge ridge).entry % 256 ∧ fld (rec tail) 15 8 = base % 256 ∧
        fld (rec tail) 7 0 = min total 255) ∧
      s.writeOvers ridge base total [o] =
        match s.ringAppend l.world hia 64 65536 4096 64 (fun a => if iaRegion a = l.world then some a else none)
          (fun tail => natBytes 64 (rec tail).toNat) with
        | (.full, t) => t.ringDrop l.world hia
        | (_, t) => t

/-- R416, R418: at E + DRAIN a block with an operation in flight that is no run-ahead's is discarded and its launch overrun; nothing of it
runs or is in flight any more, and the ridge goes to SEAL with one record counted for each operation. Here the block is alone on its
ridge and in its cluster, and has no copy and no measurement extension under way. -/
def Sys2Proof.Machine.BudgetOverrun : Prop :=
  ∀ (r b : Nat) (s : State), r < 32 → s.ridges.length = 32 → (s.ridge r).phase = .stop ∨ (s.ridge r).phase = .drain → s.drainEnd r ≤ s.clk →
    s.onRidge r = [b] → s.mates b = [b] → s.copiesOf b = [] → (∀ w, ∀ e ∈ (s.world w).mextq, e.1 ≠ b) →
    (s.blk b).launch < s.launches.length →
    let open_ (v : Wave) : List AsyncOp := v.ops.filter fun o => !v.isRa o.id
    ((s.blk b).waves.any fun v => open_ v ≠ []) = true →
    ∃ t, exec (.drainBudgetExpiry r) s = .next t ∧ (t.ridge r).phase = .seal ∧
      (t.ridge r).nrec = ((s.blk b).waves.map fun v => (open_ v).length).sum ∧ (t.blk b).st = .discarded ∧ (t.launchOf b).overrun = true ∧
      ∀ v ∈ (t.blk b).waves, v.st = .done ∧ v.ops = [] ∧ v.ra = none

/-- R435: heat is logged; a die that is too hot shutters every ridge until the table resumes at its first entry; one that goes on heating
takes the package's power away, with every block that is not sealed. -/
def Sys2Proof.Machine.HeatEvents : Prop :=
  ∀ (die : Nat) (s : State), s.powered = true →
    (∃ t, exec (.thermalWarning die) s = .next t ∧ { t with events := s.events, eventSeq := s.eventSeq, free := s.free } = s ∧
      (s.frozen = false → ∃ e, t.events.head? = some e ∧ e.cls = 3 ∧ e.code = 1 ∧ e.unit = die)) ∧
    (s.ridges.length = 32 → ∃ t, exec (.thermalShutter die) s = .next t ∧ t.thermal = true ∧
      ∀ r < 32, (s.ridge r).phase = .open_ → (s.ridge r).world.isSome → (t.ridge r).phase = .stop ∧ (t.ridge r).incoming = none ∧
        (t.ridge r).edge = s.clk) ∧
    (s.thermal = true → ∃ t, exec .thermalResume s = .next t ∧ t.thermal = false ∧
      (s.slotsNext.getD s.slots ≠ [] → t.slots = s.slotsNext.getD s.slots ∧ t.slotEntry = 0 ∧ t.slotStart = s.clk)) ∧
    (∃ t, exec (.thermalPowerRemove die) s = .next t ∧ t.powered = false ∧ t.cur = none ∧ t.mem = s.mem ∧
      ∀ b, (t.blk b).st = if (s.blk b).st = .resident ∧ b < s.blocks.length then .discarded else (s.blk b).st)

/-- R411, R413, R416, R417, R418, R420, R423, R435: entry edges, shutters, overruns and heat. Readings of the model: an idle ridge opens
without a shutter (log entry 38); what is saved where (log entry 35); what an overrun record says (log entry 36); what loses power
unsealed is discarded (log entry 46); readings of single rules (log entry 69). -/
def Obligations.ShutterEvents : Prop := EntryEdge ∧ ShutterPhases ∧ OverrunMasks ∧ OverrunRecords ∧ BudgetOverrun ∧ HeatEvents

/-! ### The host and its peers -/

/-- The VF and queue numbers that exist, on a booted device. -/
def Sys2Proof.Machine.HostOpen (s : State) (vf q : Nat) : Prop := s.hostUp = true ∧ vf < 96 ∧ q < 4

/-- R425, R426: a doorbell in RUN takes TAIL; with more than CAP slots it leaves TAIL and sets ERR 4; where the TDI is not in RUN it sets
ERR 2. TAIL written with its own value clears ERR 1; TAIL := HEAD clears ERR 1, 3 and 4 and drops every slot from HEAD on. -/
def Sys2Proof.Machine.DoorbellResults (vf q : Nat) (s : State) : Prop :=
  let h := s.queue vf q
  let off := if s.tdiOf vf = .run then 0 else 2
  ∀ tail : BitVec 32,
    (h.err ≠ 0 → h.err ≠ 2 → tail.toNat = h.head → exec (.queueDoorbell vf q tail) s = .next
      { s.setQueue vf q { h with tail := h.head, next := h.head, held := [], err := off } with
        launches := s.launches.map fun (l : Launch) =>
          if l.slot.any fun x => x.1 == vf * 4 + q then { l with slot := none } else l }) ∧
    (h.err = 0 ∨ h.err = 2 ∨ tail.toNat ≠ h.head →
      (h.cap < (tail.toNat + 2 ^ 32 - h.head) % 2 ^ 32 →
        exec (.queueDoorbell vf q tail) s = .next (s.setQueue vf q { h with err := 4 })) ∧
      ((tail.toNat + 2 ^ 32 - h.head) % 2 ^ 32 ≤ h.cap →
        (s.tdiOf vf ≠ .run → exec (.queueDoorbell vf q tail) s = .next (s.setQueue vf q { h with tail := tail.toNat, err := 2 })) ∧
        (s.tdiOf vf = .run → exec (.queueDoorbell vf q tail) s = .next
          (s.setQueue vf q { h with tail := tail.toNat, err := if h.err = 1 ∧ tail.toNat = h.tail then 0 else h.err }))))

/-- R426: what the read of the next slot delivers. A slot of a queue whose slots lie in host memory is the 256 bytes at
BASE + 256 * (n mod CAP) of it, whether they stood there or the host writes them just before; a read that fails, or that meets an
uncorrectable error, which is logged, sets ERR 1 and leaves HEAD; where the TDI is not in RUN it sets ERR 2 and reads nothing. That bus address
a is PA 2^44 + a, and that the outside tells when a read meets a failing link, are the model's choices (log entries 69 and 49). -/
def Sys2Proof.Machine.SlotResults (vf q : Nat) (s : State) : Prop :=
  let h := s.queue vf q
  h.err = 0 → h.next ≠ h.tail → h.cap ≠ 0 →
  (∀ slot, s.tdiOf vf ≠ .run → exec (.cpSlotRead vf q slot) s = .next (s.setQueue vf q { h with err := 2 })) ∧
  ∀ w, s.tdiOf vf = .run → s.vfWorld vf = some w →
    let pa := 2 ^ 44 + (h.base.toNat / 256 * 256 + 256 * (h.next % h.cap))
    let accepted (s1 : State) (bytes : List (BitVec 8)) : State :=
      ((s1.setQueue vf q { h with next := (h.next + 1) % 2 ^ 32, held := h.held ++ [h.next] }).submit w
        (BitVec.ofNat 64 (h.taskva.toNat / 256 * 256 + 256 * (h.next % h.cap))) (BitVec.ofNat 2048 (leNat bytes)) 7
        (h.taskva.toNat ≠ 0 && h.taskva.toNat % 256 = 0) (some (vf * 4 + q, h.next))).2
    exec (.cpSlotRead vf q .failed) s = .next (s.setQueue vf q { h with err := 1 }) ∧
    (pa + 256 ≤ 2 ^ 45 →
      ((s.bad w pa || s.bad w (pa + 128)) = true →
        ∃ t, exec (.cpSlotRead vf q .held) s = .next t ∧ t = (s.log 5 (some 0x14) none w pa).setQueue vf q { h with err := 1 } ∧
          (s.frozen = false → ∃ e, t.events.head? = some e ∧ e.cls = 5 ∧ e.code = 0x14)) ∧
      ((s.bad w pa || s.bad w (pa + 128)) = false → exec (.cpSlotRead vf q .held) s = .next (accepted s (memBytes s.mem pa 256))) ∧
      ∀ r : BitVec 2048, ∃ s1 : State, { s1 with mem := s.mem } = s ∧ memBytes s1.mem pa 256 = natBytes 256 r.toNat ∧
        (∀ x, x < pa ∨ pa + 256 ≤ x → memByte s1.mem x = memByte s.mem x) ∧
        exec (.cpSlotRead vf q (.written r)) s = .next (accepted s1 (natBytes 256 r.toNat)))

/-- R425, R426: the doorbell and the slots that it offers. CAP and BASE change only while the queue is empty, else ERR 3; TASKVA is
written by halves; a write of a read-only field is ignored (BASE at 0 and 4, CAP at 32 and TAIL at 40 have the events above). -/
def Sys2Proof.Machine.QueueEvents : Prop :=
  ∀ (vf q : Nat) (s : State), HostOpen s vf q →
    let h := s.queue vf q
    DoorbellResults vf q s ∧ SlotResults vf q s ∧
    (∀ value : BitVec 64,
      (h.tail = h.head → exec (.queueConfigWrite vf q true value) s = .next (s.setQueue vf q { h with cap := value.toNat % 2 ^ 32 }) ∧
        exec (.queueConfigWrite vf q false value) s = .next (s.setQueue vf q { h with base := value })) ∧
      (∀ cap, h.tail ≠ h.head → exec (.queueConfigWrite vf q cap value) s = .next (s.setQueue vf q { h with err := 3 }))) ∧
    (∀ value : BitVec 32,
      exec (.registerWrite vf (q * 64 + 8) value) s = .next (s.setQueue vf q { h with taskva := setHalf h.taskva 0 value }) ∧
      exec (.registerWrite vf (q * 64 + 12) value) s = .next (s.setQueue vf q { h with taskva := setHalf h.taskva 1 value }) ∧
      ∀ off, off < 64 → off ∉ [0, 4, 8, 12, 32, 40] → exec (.registerWrite vf (q * 64 + off) value) s = .next s)

/-- R422, R423, R426: the states of a TDI: a lock binds an unlocked one and measures its configuration; RUN follows a lock and clears ERR 2;
a stop resets its queues; an integrity failure leads to ERROR. -/
def Sys2Proof.Machine.TdiEvents : Prop :=
  ∀ (vf : Nat) (s : State), s.hostUp = true → vf < 96 →
    (∀ config, s.tdiOf vf = .configUnlocked → (s.vfWorld vf).isSome →
      exec (.tdispLock vf config) s = .next ((s.setTdi vf .configLocked).measure (32 + vf) config)) ∧
    (s.tdiOf vf = .configLocked → ∃ t, exec (.tdiRunResume vf) s = .next t ∧ t.tdiOf vf = .run ∧
      ∀ q < 4, t.queue vf q = { s.queue vf q with err := if (s.queue vf q).err = 2 then 0 else (s.queue vf q).err }) ∧
    (∃ t, exec (.tdispStop vf) s = .next t ∧ t.tdiOf vf = .configUnlocked ∧ ∀ q < 4, t.queue vf q = {}) ∧
    (∃ t, exec (.ideIntegrityFailure vf) s = .next t ∧ t.tdiOf vf = .error ∧ t.mem = s.mem ∧
      (s.frozen = false → ∃ e, t.events.head? = some e ∧ (e.cls = 4 ∨ e.cls = 6)))

/-- R429: an inbound read of a world's granted memory that nothing owns is answered with what the world's direct window holds there, a
write is performed there; one outside the grant or the window, or of nobody's world, fails and changes nothing but the record of events. A
misaligned atomic fails, which is the model's reading (log entry 47), and so does one where no tier lies. -/
def Sys2Proof.Machine.InboundEvents : Prop :=
  ∀ (peer : Bool) (unit world pa : Nat) (act : InAct) (s : State), s.hostUp = true →
    (s.inboundWorld peer unit world = none → ∃ t, exec (.inboundAccess peer unit world pa act) s = .next t ∧
      t.reply = some (false, []) ∧ { t with reply := s.reply, events := s.events, eventSeq := s.eventSeq, free := s.free } = s) ∧
    (∀ w, s.inboundWorld peer unit world = some w → inGrant (s.grant w) pa (inSize act) = false ∨ 2 ^ 44 < pa + inSize act →
      ∃ t, exec (.inboundAccess peer unit world pa act) s = .next t ∧ t.reply = some (false, []) ∧ t.mem = s.mem ∧ t.l2 = s.l2) ∧
    (∀ w, s.inboundWorld peer unit world = some w → inGrant (s.grant w) pa (inSize act) = true → pa + inSize act ≤ 2 ^ 44 → s.owned = [] →
      (∀ e ∈ s.l2, ∀ l, e.2 = some l → l.holder = none) →
      (∀ n bs s1, act = .read n → s.engRead w (directIA w pa) n = (.ok bs, s1) →
        exec (.inboundAccess peer unit world pa act) s = .next { s1 with reply := some (true, bs) }) ∧
      (∀ bs s1, act = .write bs → s.engWrite w (directIA w pa) bs = (none, s1) →
        exec (.inboundAccess peer unit world pa act) s = .next { s1 with reply := some (true, []) }) ∧
      (∀ op wide operand compare, act = .atomic op wide operand compare →
        (pa % (if wide = true ∧ (op = 0 ∨ op = 8) then 8 else 4) ≠ 0 ∨ ∃ s1 f, s.translate w (directIA w pa) true = (s1, .fault f)) →
        ∃ t, exec (.inboundAccess peer unit world pa act) s = .next t ∧ t.reply = some (false, []) ∧ t.mem = s.mem ∧ t.l2 = s.l2))

/-- R422, R423, R425, R426, R429: what the host and its peers do to the device. Readings of the model: where a queue's slots lie (log
entry 23), the order of a queue's errors (log entry 48), the events that come only from outside (log entry 49), the record of refused
accesses and misaligned atomics (log entry 47), and readings of single rules (log entry 69). -/
def Obligations.HostEvents : Prop := QueueEvents ∧ TdiEvents ∧ InboundEvents

/-! ### Shethar and the management core -/

/-- R410, R411, R431: a command is answered once the boot is complete: a world is created, set or destroyed, a table of slots accepted,
where no rule is broken; else the command is refused and nothing changes. -/
def Sys2Proof.Machine.WorldCommands : Prop :=
  ∀ (s : State), s.bootStep = 0 → s.powered = true →
    (∀ (w : Nat) (r : BitVec 4096), w < 12 → w < s.worlds.length →
      (wrV (s.world w).record = false → s.recordOk w r = true →
        ∃ t, exec (.wcreate w r) s = .next t ∧ t.reply = some (true, []) ∧ t.world w = { record := withV r } ∧
          SMap.get 0 t.meas (16 + w) = extend (SMap.get 0 s.meas (16 + w)) (natBytes 512 r.toNat)) ∧
      (wrV (s.world w).record = true → s.recordOk w r = true → s.worldBusy w = false → s.vfLocked w = false →
        ∃ t, exec (.wset w r) s = .next t ∧ t.reply = some (true, []) ∧ (t.world w).record = withV r ∧ t.meas = s.meas) ∧
      (wrV (s.world w).record = true ∨ s.recordOk w r = false → exec (.wcreate w r) s = .next { s with reply := some (false, []) }) ∧
      (wrV (s.world w).record = false ∨ s.recordOk w r = false ∨ s.worldBusy w = true ∨ s.vfLocked w = true →
        exec (.wset w r) s = .next { s with reply := some (false, []) }) ∧
      (let named := s.slots.any fun e => (slNames e).contains w || (List.range 12).any fun x => slDonee e x == w
       (named = true ∨ s.vfLocked w = true → exec (.wdestroy w) s = .next { s with reply := some (false, []) }) ∧
       (named = false → s.vfLocked w = false → ∃ t, exec (.wdestroy w) s = .next t ∧ t.reply = some (true, []) ∧ t.world w = {} ∧
         (∀ b, (s.launchOf b).world = w → b < s.blocks.length → (t.blk b).st ≠ .resident ∧ ∀ n, (t.blk b).st ≠ .saved n) ∧
         ∀ a ∈ t.arrivals, a.world ≠ w))) ∧
    (∀ (table t : List (BitVec 512)), tableRun table = some t →
      (t.any s.entryBad = true → exec (.slots table) s = .next { s with reply := some (false, []) }) ∧
      (t.any s.entryBad = false → s.slots ≠ [] →
        exec (.slots table) s = .next { s.measure 4 (table.flatMap fun e => natBytes 64 e.toNat) with slotsNext := some t, reply := some (true, []) }))

/-- R294, R295, R308, R110, R159, R427, R431: the heap, its objects, routes and gates. -/
def Sys2Proof.Machine.DeviceCommands : Prop :=
  ∀ (s : State), s.bootStep = 0 → s.powered = true →
    (∀ hslots heapia otia objcount clockw : Nat,
      (∀ w < 12, wrV (s.world w).record = false ∨ wrHeapva (s.world w).record = 0) → hslots ≤ 8388608 → heapia % 2 ^ 21 = 0 →
      heapia / 2 ^ 48 = 12 → otia / 2 ^ 48 = 12 → clockw ≤ 11 →
      exec (.heap hslots heapia otia objcount clockw) s =
        .next { s with shade := { hslots, heapia, otia, objcount, clockw }, reply := some (true, []) }) ∧
    (∀ (h : Nat) (r old : BitVec 256) (s1 : State), h < s.shade.objcount → s.readObject h = (some old, s1) →
      (objectForm r = true → obValid old = false → ∀ s2, s1.writeObject h (setFld r 37 37 1) = (true, s2) →
        exec (.objset h r) s = .next { s2 with reply := some (true, []) }) ∧
      (objectForm r = true → obValid old = true → obOwner r = obOwner old → obTfmt r = obTfmt old →
        ∀ s2, s1.writeObject h (setFld (setFld r 37 37 1) 15 0 (obEpoch old)) = (true, s2) →
        exec (.objset h r) s = .next { s2 with reply := some (true, []) }) ∧
      (objectForm r = true → obValid old = true → obOwner r ≠ obOwner old ∨ obTfmt r ≠ obTfmt old → exec (.objset h r) s = .next { s1 with reply := some (false, []) }) ∧
      (∀ s2, s1.writeObject h (setFld old 37 37 0) = (true, s2) →
        (∀ e ∈ s2.shade.tags, ∀ t, e.2 = some t → t.key % 2 ^ 24 = h → t.st ≠ .inflight) →
        exec (.objclr h) s = .next { s2.modShade fun x => x.dropHandle h with reply := some (true, []) })) ∧
    (∀ (p : Nat) (ports : List Nat), (∀ q ∈ ports, q < 16) →
      exec (.route p ports) s = .next { s with routes := (p, ports) :: s.routes.filter fun e => e.1 ≠ p, reply := some (true, []) }) ∧
    (∀ slice way, slice < 128 → way < 16 → ∃ t, exec (.gate false slice way true) s = .next t ∧ t.reply = some (true, []) ∧
      (slice, way) ∈ t.gatedWays ∧ (slice, way) ∉ t.wakingWays ∧
      (SMap.wf none s.l2 = true → ∀ e ∈ t.l2, ∀ l, e.2 = some l → l.slice = slice → l.way ≠ way)) ∧
    (∀ core bank, core < 256 → bank < 96 → bank ∈ (s.core core).gated → ∃ t, exec (.gate true core bank false) s = .next t ∧
      t.reply = some (true, []) ∧ bank ∉ (t.core core).gated ∧ bank ∈ (t.core core).waking)

/-- R423, R424: the answer to a request for a world's register, or for that of a VF of the world: the live register with STATE 0 and SEALCLK 0 while the
world runs on a ridge, its STOP and DRAIN included; the sealed one with the edge of its last SEAL and STATE 1, or 2 where every ridge of it is
power-gated; during that SEAL itself, what the SEAL will store. That STOP and DRAIN count as running, and the last, are the model's
readings (log entry 44). -/
def Sys2Proof.Machine.EvidenceResults : Prop :=
  ∀ (i w : Nat) (s : State), s.powered = true → s.bootStep = 0 → s.measWorld i = some w →
    (16 ≤ i ∧ i < 28 ∧ w = i - 16) ∨ (32 ≤ i ∧ i < 128 ∧ (wrVfs (s.world w).record).testBit (i - 32) = true) →
    let answers (reg : BitVec 512) (clk state : Nat) : Prop := exec (.measurementRequest i) s = .next
      { s with reply := some (true, natBytes 64 reg.toNat ++ natBytes 16 (clk % 2 ^ 64 * 2 ^ 64 + w * 256 + state)) }
    let at_ (p : RPhase → Prop) : Prop := ∃ r ∈ s.ridges, r.world = some w ∧ p r.phase
    let runs := at_ fun p => p = .open_ ∨ p = .stop ∨ p = .drain
    let seals := at_ fun p => p = .overrun ∨ p = .seal
    (runs → answers (SMap.get 0 s.meas i) 0 0) ∧
    (∀ edge, ¬ runs → seals → (∀ r ∈ s.ridges, r.world = some w → r.phase = .overrun ∨ r.phase = .seal → r.edge = edge) →
      answers (SMap.get 0 s.meas i) edge 1) ∧
    (∀ reg, ¬ runs → ¬ seals → (s.world w).isSealed = true → ((s.world w).sealedSet.find? fun e => e.1 == i) = some (i, reg) →
      answers reg (s.world w).sealedClk (if s.powerGated w then 2 else 1))

/-- R432, R433: a boot that completes, and one that fails, from power-on (where nothing is held) or a warm reset (where memory, measurements and
events are kept): measurements 1 to 3 are extended in the boot's order as far as it comes, and BOOTSTATE says where it stopped; a completed
boot gives region 12 its table, its ways and its grant, whose frames then read as 0 under its key. What the boot meets comes from
outside (log entry 49). -/
def Sys2Proof.Machine.BootResults : Prop :=
  ∀ (s : State), s.powered = true → ∀ (warm : Bool) (shared : SharedRegion) (fw cfg sh : List (BitVec 8)),
    let boot (how : BootEnd) : Instr := if warm then .warmReset how fw cfg sh else .powerOn how fw cfg sh
    let old (i : Nat) : BitVec 512 := if warm then SMap.get 0 s.meas i else 0
    let fresh (t : State) : Prop := t.blocks = [] ∧ t.worlds = State.reset.worlds ∧ t.clk = State.reset.clk ∧
      t.events = (if warm then s.events else []) ∧ SMap.get 0 t.meas 1 = extend (old 1) fw
    (∃ t, exec (boot (.up shared)) s = .next t ∧ fresh t ∧ t.bootStep = 0 ∧ t.bootCode = 0 ∧ t.bootRecord = 0 ∧
      SMap.get 0 t.meas 2 = extend (old 2) cfg ∧ SMap.get 0 t.meas 3 = extend (old 3) sh ∧
      t.sharedRoot = shared.root ∧ t.sharedWays = shared.ways.toNat ∧ t.sharedGrant = sharedRanges shared ∧
      (warm = false → t.mem = []) ∧
      ∀ a, memByte t.mem a = if warm = true ∧ inRanges (sharedRanges shared) a = false then memByte s.mem a else 0) ∧
    (∀ fail : BootFail, ∃ t, exec (boot (.failed fail)) s = .next t ∧ fresh t ∧ SMap.get 0 t.meas 3 = old 3 ∧ t.sharedGrant = [] ∧
      t.mem = (if warm then s.mem else []) ∧
      match fail with
      | .signature r => t.bootStep = 2 ∧ t.bootCode = 1 ∧ t.bootRecord = r.toNat ∧ SMap.get 0 t.meas 2 = old 2
      | .unreadable r => t.bootStep = 2 ∧ t.bootCode = 2 ∧ t.bootRecord = r.toNat ∧ SMap.get 0 t.meas 2 = old 2
      | .image => t.bootStep = 4 ∧ t.bootCode = 3 ∧ t.bootRecord = 0 ∧ SMap.get 0 t.meas 2 = extend (old 2) cfg
      | .mismatch => t.bootStep = 4 ∧ t.bootCode = 4 ∧ t.bootRecord = 0 ∧ SMap.get 0 t.meas 2 = extend (old 2) cfg)

/-- R432, R433: until the boot is complete no command but EVENTS is answered, and no VF is reached. -/
def Sys2Proof.Machine.UnbootedAnswersNothing : Prop :=
  ∀ (s : State), s.bootStep ≠ 0 →
    (∀ w r, exec (.wcreate w r) s = .next s ∧ exec (.wset w r) s = .next s ∧ exec (.wdestroy w) s = .next s) ∧
    (∀ table, exec (.slots table) s = .next s) ∧ (∀ a b c d e, exec (.heap a b c d e) s = .next s) ∧
    (∀ h r, exec (.objset h r) s = .next s ∧ exec (.objclr h) s = .next s) ∧ (∀ p ports, exec (.route p ports) s = .next s) ∧
    (∀ k u x on, exec (.gate k u x on) s = .next s) ∧ (∀ i, exec (.measurementRequest i) s = .next s) ∧
    (∀ vf q tail, exec (.queueDoorbell vf q tail) s = .next s) ∧ (∀ p u w pa act, exec (.inboundAccess p u w pa act) s = .next s)

/-- R393, R424, R432, R433, R434: the record of events is read whatever the boot has reached, and unfrozen; a measurement register that exists is
reported with its state; a measurement-extension request extends its world's register while the world holds a ridge; what a boot leaves. -/
def Sys2Proof.Machine.ManagementEvents : Prop :=
  ∀ (s : State), s.powered = true →
    (exec .eventsUnfreeze s = .next { s with frozen := false, reply := some (true, []) }) ∧
    (∀ offset : BitVec 32, offset ≠ 0xFFFFFFFF#32 → ∃ bs, bs.length = 4096 ∧ exec (.events offset) s = .next { s with reply := some (true, bs) } ∧
      ∀ i < 128, offset.toNat % 32 = 0 → (bs.drop (32 * i)).take 32 = s.eventEntry ((offset.toNat / 32 + i) % 8192)) ∧
    (∀ i, s.bootStep = 0 → measIndex i = false → exec (.measurementRequest i) s = .next { s with reply := some (false, []) }) ∧
    (∀ i, s.bootStep = 0 → 1 ≤ i → i ≤ 4 → exec (.measurementRequest i) s = .next
      { s with reply := some (true, natBytes 64 (SMap.get 0 s.meas i).toNat ++ natBytes 16 (0xFF * 256)) }) ∧
    (∀ (world b w : Nat) (val : Option (BitVec 512)) (rest : List (Nat × Nat × Option (BitVec 512))), (s.world world).mextq = (b, w, val) :: rest →
      b < s.blocks.length → w < (s.blk b).waves.length →
      let on := s.ridges.any fun r => r.world == some world
      ∃ t, exec (.mextResponse world) s = .next t ∧ (t.world world).mextq = rest ∧
        (t.wv b w).mext = (if val.isNone then 3 else if on then 1 else 2) ∧
        SMap.get 0 t.meas (16 + world) = (match val with
          | some x => if on then extend (SMap.get 0 s.meas (16 + world)) (natBytes 64 x.toNat) else SMap.get 0 s.meas (16 + world)
          | none => SMap.get 0 s.meas (16 + world)))

/-- A lane of an STL of `n` bytes that is next to be performed through the debug window: by a wave of S mode, of a block none of whose
banks still wakes and that is not being saved. -/
structure Sys2Proof.Machine.WindowStore (s : State) (b w n : Nat) (o : AsyncOp) (l : LaneOp) : Prop where
  kind : o.kind = .storeLocal n
  next : CarriedOut s b w o l
  turn : (s.wv b w).mayPerform o l = true
  smode : (s.ctxAt b w o.path).smode = true
  awake : (s.blk b).waking = []
  running : s.sealing b = false
  block : b < s.blocks.length

/-- R437, R444: what an STL.128 to bytes 0 to 15 of the attachment record leaves: LAUNCH, BLOCKIDX, ATTACHED by whether an accepted
launch of the world that has not completed lies at LAUNCH, the rest of the record as it was, and the reserved field at zero (log entry 67); and
what an STL to the profiling control leaves: its bytes there, in the control of the launch to which the block is attached, and nothing
where it is attached to none. -/
def Sys2Proof.Machine.WindowStores : Prop :=
  ∀ (b w n : Nat) (s : State) (o : AsyncOp) (l : LaneOp), WindowStore s b w n o l →
    (n = 16 → l.va.toNat = 0x64040000 →
      ∃ t, exec (.debugAttach b w o.id l.lane) s = .next t ∧ t.mem = s.mem ∧ t.launches = s.launches ∧
        let x := (t.blk b).attach
        fld x 63 0 = l.data.toNat % 2 ^ 64 ∧ fld x 95 64 = 0 ∧ fld x 127 96 = l.data.toNat / 2 ^ 96 % 2 ^ 32 ∧ fld x 255 132 = fld (s.blk b).attach 255 132 ∧
        (fld x 128 128 = 1 ↔ l.data.toNat % 2 ^ 64 ≠ 0 ∧ ∃ k ∈ s.launches, k.world = (s.launchOf b).world ∧
          k.va.toNat = l.data.toNat % 2 ^ 64 ∧ (k.st = .pending ∨ k.st = .ready))) ∧
    (0x64040020 ≤ l.va.toNat → l.va.toNat + n ≤ 0x64040040 → n ≠ 0 →
      ∃ t, exec (.profilingControlWrite b w o.id l.lane) s = .next t ∧ t.mem = s.mem ∧ (t.blk b).attach = (s.blk b).attach ∧
        t.launches.length = s.launches.length ∧
        ∀ k < s.launches.length, let old := s.launches.getD k default
          if s.attached b = some k then ∃ p, t.launches.getD k default = { old with profile := p } ∧
            ∀ i < 32, fld p (8 * i + 7) (8 * i) = if l.va.toNat ≤ 0x64040020 + i ∧ 0x64040020 + i < l.va.toNat + n
              then l.data.toNat / 256 ^ (0x64040020 + i - l.va.toNat) % 256 else fld old.profile (8 * i + 7) (8 * i)
          else t.launches.getD k default = old)

/-- R437, R444, R445: a store through the debug window attaches, or writes the profiling control, when it is performed; a launch that samples is sampled
when its period comes round, at most once in a CLK. -/
def Sys2Proof.Machine.ProfilingEvents : Prop :=
  (∀ (b w lane : Nat) (s : State) (o : AsyncOp) (l : LaneOp), (s.wv b w).op? o.id = some o → l ∈ o.lanes → l.lane = lane →
    (l.attachLane o.kind = true → exec (.debugAttach b w o.id lane) s = .next (s.performLocal b w o.id lane)) ∧
    (l.profLane o.kind = true → exec (.profilingControlWrite b w o.id lane) s = .next (s.performLocal b w o.id lane))) ∧
  (∀ (l : Nat) (s : State), l < s.launches.length → s.sampleDue l = true →
    ∃ t, exec (.traceSample l) s = .next t ∧ (t.launches.getD l default).sampled = s.clk ∧ t.sampleDue l = false ∧ t.blocks = s.blocks ∧
      (fld (s.launches.getD l default).profile 63 0 = 0 → { t with launches := s.launches } = s))

/-- R393, R410, R411, R424, R431 to R434, R437, R444, R445: Shethar's commands, the management core, debug stores and samples. Readings of
the model: what a command checks and drops (log entries 39 to 42), EVENTS (43), evidence (44), measurements and a warm reset (45), what a
boot meets (49), the attachment's reserved field (67). -/
def Obligations.ManagementResults : Prop :=
  WorldCommands ∧ DeviceCommands ∧ ManagementEvents ∧ EvidenceResults ∧ BootResults ∧ UnbootedAnswersNothing ∧ WindowStores ∧ ProfilingEvents

/-! ### Steps, words and what every step keeps -/

/-- R27, R33, R338: how a step goes on once its path's next word is settled: the meaning of `i` at `t`, then what every step of a
path settles, its issue slot among it, and time that may pass. -/
def Sys2Proof.Machine.StepGoesOn (s : State) (c : Ctx) (i : Instr) (t : State) : Prop :=
  step s = andThen (exec i t) fun u => (State.afterIssue exec s u c.b c.w c.p ((t.ctxAt c.b c.w c.p).slot i)).tick 0

/-- R338: how a step goes on whose path has met something else than an instruction. -/
def Sys2Proof.Machine.StepMoves (s : State) (c : Ctx) (t : State) : Prop :=
  step s = .next ((State.afterIssue exec s t c.b c.w c.p (1, 64 + c.wv.pair / 16, none)).tick 0)

/-- R34, R49: the step of a path whose next word is `w`: the instruction to which it decodes, or ILL. -/
def Sys2Proof.Machine.WordIssues (s : State) (c : Ctx) (w : Word) (t : State) : Prop :=
  (∀ i, decode w = .ok i → StepGoesOn s c (c.resolve i) t) ∧ (∀ e, decode w = .error e → StepMoves s c (c.raiseIll w t))

/-- R27, R28, R33, R44, R49: where a path is to issue and nothing comes first, a step is `exec` of the instruction that the word at the path's
PC decodes to, as its clause's issue has fetched it, or of the word it is held at, or of the clause's header; a
word that is no instruction raises ILL. A word that the clause's issue could not fetch is fetched now, with the rest of the clause,
which is checked before it issues: a misplaced word there raises CLAUSE at the header's address, and the word's own fetch may trap, fault or
wait. That what comes from outside is taken first, and that a free time may pass after a word, is the model's choice
(log entry 5), as is that what follows a word whose fetch fails is checked with it (log entry 13). -/
def Obligations.StepRunsDecodedInstruction : Prop :=
  (∀ (s : State) (c : Ctx), s.agenda = [] → s.powered = true → s.urgent = none → s.ctx = some c → s.waveOpen c.b c.w = true →
    c.wv.qualifies c.p = true →
    let here (words : List (Option Word)) : Option Word := words.getD (c.pa.cpos - 1) none
    let with_ (w : Word) (t : State) : State := t.modPath c.b c.w c.p fun x => { x with word := w }
    let waits (t : State) : State := t.modPath c.b c.w c.p fun x => { x with blocked := some .fetch, again := false }
    (c.pa.cpos = 0 → StepGoesOn s c .clauseIssue s) ∧
    (∀ r, c.pa.cpos ≠ 0 → c.pa.blocked = some r → r ≠ .fetch → WordIssues s c c.pa.word s) ∧
    (c.pa.cpos ≠ 0 → (c.pa.blocked = none ∨ c.pa.blocked = some .fetch) →
      (∀ w, here c.pa.words = some w → WordIssues s c w (with_ w s)) ∧
      (here c.pa.words = none →
        (∀ s1, c.clauseRest s = .bad s1 → StepMoves s c (c.raiseTrap { code := 0x02, pc := c.hdrPc } s1)) ∧
        (∀ s1, c.clauseRest s = .park s1 → StepMoves s c (waits s1)) ∧
        ∀ words s1, c.clauseRest s = .ok words s1 →
          (∀ w, here words = some w → WordIssues s c w (with_ w s1)) ∧
          (here words = none →
            (∀ code s2, c.fetch s1 c.pa.pc = .trap code s2 → StepMoves s c (c.raiseTrap (c.trap code none c.pa.pc) s2)) ∧
            (∀ f ia s2, c.fetch s1 c.pa.pc = .fault f ia s2 → StepMoves s c (c.fetchFault f c.pa.pc ia s2)) ∧
            ∀ s2, (c.fetch s1 c.pa.pc = .park s2 ∨ ∃ w, c.fetch s1 c.pa.pc = .ok w s2) → StepMoves s c (waits s2))))) ∧
  ∀ (s : State) (i : Instr) (rest : List Instr), s.agenda = i :: rest →
    step s = andThen (exec i { s with agenda := rest }) (State.settle exec s)

/-- Words written out in the spec (after R50, in R222, R235, R348, R349) decode to the instructions they stand for. -/
def Obligations.WordsDecode : Prop :=
  ∀ e ∈ [((0x00014409 : Word), Instr.add false false 5 8 9), (0x110C17FD, .addi false false 6 5 0x3FD), (0x150E0000, .lit32 false false 7),
      (0x511227FF, .addi false true 9 9 0x3FF), (0x45204480, .icmpNe false true 1 9 0), (0x2B27FFF8, .brQ false 1 0x3FFF8),
      (0x00214473, .sub false false 5 8 0x73), (0x40450A96, .minS false true 20 21 22), (0x00C14409, .absdS false false 5 8 9),
      (0x02E28609, .sarW false false 10 12 9), (0x16E28628, .sarWi false false 10 12 40), (0x0361_4409, .mad false false 5 8 9),
      (0x04E14409, .prmt false false 5 8 9), (0x05438409, .icmpLtS false false 14 8 9), (0x06828409, .lea8 false false 10 8 9),
      (0x07A28400, .zext32 false false 10 8), (0x53122600, .ori false true 9 9 0x200), (0x17614409, .shflXor false 5 8 9),
      (0x17A1FF00, .vset false 7 14), (0x58608A15, .mtest false 2 20 21), (0x19017980, .mov false 5 0x73),
      (0x08014409, .fadd false false 5 8 9), (0x10014408, .cvtbE4m3 false 5 8 1 0), (0x2C27BA00, .call false 30 4),
      (0x2C600F00, .ret false 30)],
    decode e.1 = .ok e.2

/-- The instruction the decoder gives for an instruction's word: where two share their word, the first. -/
noncomputable def Sys2Proof.Machine.firstTwin (i : Instr) : Instr :=
  match i with
  | .invrRangedesc y a b => .invr y a b
  | .replayByToken y a b => .replayByPage y a b
  | .tlaunchJob y d a b => .tlaunch y d a b
  | _ => i

/-- R34, R38, R45: the encoder's word of every well-formed instruction decodes to it, or to the first of the rows that share the word:
INVR, REPLAY and TLAUNCH have rows that only their control registers tell apart (the model's reading, log entry 8). -/
def Obligations.EncodeDecodeRoundTrip : Prop :=
  ∀ (i : Instr) (w : Word) (rest : List Byte), i.wellFormed = true → encodeWord i = some w →
    decode w = .ok (firstTwin i) ∧ decodeBytes (encode i ++ rest) = .ok (firstTwin i, rest)

/-- R5, R34, R49: a word that decodes is the encoder's word of its instruction: no bit of it is ignored, and no two words are one
instruction. -/
def Obligations.DecodeEncodeRoundTrip : Prop := ∀ (w : Word) (i : Instr), decode w = .ok i → encodeWord i = some w

/-- R392, R409, R411, R413: at reset CLK is 0, no world exists, no slot table is in force, every ridge is idle, nothing is cached,
no launch is known and no wave issues. That memory lists nothing, and reads 0, is the model's choice (notes/assumptions/3.md). -/
def Sys2Proof.Machine.ResetValues : Prop :=
  let s := State.reset
  s.clk = 0 ∧ s.worlds.length = 12 ∧ (∀ w ∈ s.worlds, w.record.getLsbD 4 = false) ∧ s.slots = [] ∧
    s.ridges.length = 32 ∧ (∀ r ∈ s.ridges, r.world = none) ∧ s.l2 = [] ∧ s.tlb = [] ∧ s.launches = [] ∧ s.blocks = [] ∧ s.cur = none ∧
    (∀ a, memByte s.mem a = 0) ∧ ∀ b w p, (s.ctxAt b w p).wv.fflags = 0

/-- Memory is in its canonical form at reset; the form, and that an unlisted byte reads 0, is the model's choice (notes/assumptions/3.md). -/
def Sys2Proof.Machine.ResetMemoryCanonical : Prop := Memory.wf State.reset.mem

/-- The machine at reset. -/
def Obligations.ResetState : Prop := ResetValues ∧ ResetMemoryCanonical

/-- Every step keeps memory in its canonical form: addresses strictly rising, no byte listed that an unlisted one reads as. The form, and that
an unlisted byte reads 0, is the model's choice (notes/assumptions/3.md). -/
def Obligations.StepKeepsMemoryCanonical : Prop := ∀ s t : State, Memory.wf s.mem → step s = .next t → Memory.wf t.mem

/-- R42, R240, R282, R285, R291, R301, R315, R355, R356, R377, R379, R394: the ILL conditions that descriptions of single words add to those of
every word: several targets or a word that makes, ends or awaits something in handler mode, a rename pair in use, a melded region where the word may stand in
none, a run of registers that the word's operands name. -/
def Sys2Proof.Machine.OwnIll (c : Ctx) (i : Instr) : Prop :=
  let several (a : Field) : Prop :=
    c.inHandler = true ∧ ∃ l ∈ activeLanes c, ∃ m ∈ activeLanes c, c.opnd64 false a l ≠ c.opnd64 false a m
  let run (a b : Field) (n : Nat) : Prop := ∃ f, c.wv.roleRun c.w a.toNat b.toNat = some f ∧ c.wordRunIll (info i) f n false = true
  match i with
  | .calli _ _ a | .ret _ a | .jmpi _ a => several a
  | .psplit _ _ _ | .barSync _ _ | .barArr _ _ | .barWait _ _ | .cbarSync _ _ | .cbarArr _ _ | .cbarWait _ _ => c.inHandler = true
  | .meld _ _ p _ => c.inHandler = true ∨ c.pa.cpos ≠ fld c.pa.hdr 26 23 ∨ c.wv.pairInUse p.toNat = true
  | .pren _ a _ p _ b => c.wv.pairInUse p.toNat = true ∨ c.B + c.X ≤ a.toNat ∨ c.B + c.X ≤ b.toNat
  | .samp _ _ a _ => c.quadIll 0 a = true
  | .sampb _ _ a _ => c.quadIll 2 a = true
  | .stkinit _ d _ b => c.pa.mode ≠ .plain ∨ c.runIll d.toNat (fld (c.bc b) 4 0 + 1) false = true
  | .frag _ _ _ | .ordbPx _ | .ordbSmp _ | .orde _ | .scpub _ _ _ | .scabort _ _ _ | .sctick _ | .scwait _ _ _ => c.pa.mode ≠ .plain
  | .mmaE4m3 _ _ a b | .mmaE5m2 _ _ a b | .mmaBf16 _ _ a b | .mmaF16 _ _ a b | .mmaS8 _ _ a b => run a b 16
  | .mmaMxe4m3 _ _ a b | .mmaMxe2m3 _ _ a b | .mmaMxe2m1 _ _ a b => run a b 17
  | _ => False

/-- R50, R388: the checks every instruction word meets at issue, in their order, and the trap of the first that fails: ILL, by the word itself or
by what its description adds; PRIV in U mode; CLASS; ROLE; XREG. -/
def Obligations.IssueChecks : Prop :=
  ∀ (i : Instr) (w : Word) (s : State) (c : Ctx), encodeWord i = some w → At s c →
    let u (code : Nat) : State := s.takeTrap c.b c.w c.p (c.trap code)
    let traps (code : Nat) : Prop := exec i s = .next (u code) ∨
      -- an MMA leaves its quorum broken with it (R241)
      fld w 29 24 = 0x25 ∧ exec i s = .next (((u code).modWv c.b c.w fun v => { v with saddle := none }).quorumBreak c.b 64 [c.w])
    let xreg := ((info i).uses.any fun u => match useRun u with | some (f, n, _) => c.runXreg f n | none => false) = true ∨
      c.holdsLock = false ∧ ∃ r ∈ c.shflRegs (info i), c.B ≤ r
    let ill := c.ill (info i) = true ∨ OwnIll c i
    let priv := needsS i = true ∧ c.smode = false
    (ill → traps 0x01) ∧ (¬ill → priv → traps 0x04) ∧ (¬ill → ¬priv → c.classErr (info i) = true → traps 0x03) ∧
    (¬ill → ¬priv → c.classErr (info i) = false → c.roleAllows (info i).cls = false → traps 0x07) ∧
    (¬ill → ¬priv → c.classErr (info i) = false → c.roleAllows (info i).cls = true → xreg → traps 0x05)

/-- R190, R191: rounding a non-zero finite value gives a finite pattern of the format, the nearest or the next in the mode's direction,
with NX where it is inexact; on overflow every finite value of the format is smaller in magnitude, and OF and NX are raised. -/
def Sys2Proof.Machine.RoundsToFormat : Prop :=
  ∀ (f : Fmt) (mode : RMode) (neg : Bool) (m : Nat) (e : Int), m ≠ 0 →
    let x := fvRat (.fin neg m e)
    let r := f.round mode neg m e
    let finite (n : Nat) : Prop := n < 2 ^ f.width ∧ ∃ a b k, f.value n = .fin a b k
    let val (n : Nat) : Rat := fvRat (f.value n)
    (r.ovf = false → finite r.bits ∧ (f.value r.bits).neg = neg ∧ (r.flags.getLsbD 0 = decide (val r.bits ≠ x)) ∧
      ∀ n, finite n →
        match mode with
        | .rne => |val r.bits - x| ≤ |val n - x| ∧ (|val r.bits - x| = |val n - x| → val n = val r.bits ∨ r.bits % 2 = 0)
        | .rna => |val r.bits - x| ≤ |val n - x| ∧ (|val r.bits - x| = |val n - x| → val n = val r.bits ∨ |val n| < |val r.bits|)
        | .rz => |val r.bits| ≤ |x| ∧ (|val n| ≤ |x| → |val n| ≤ |val r.bits|)
        | .ru => x ≤ val r.bits ∧ (x ≤ val n → val r.bits ≤ val n)
        | .rd => val r.bits ≤ x ∧ (val n ≤ x → val n ≤ val r.bits)) ∧
    (r.ovf = true → r.flags = fOF ||| fNX ∧ r.bits = f.overflow mode neg ∧ ∀ n, finite n → |val n| < |x|)

/-- R198: the flags raised are ORed into FFLAGS[4:0], and those newly raised whose trap is enabled into FFLAGS[12:8]; no other bit
changes. -/
def Sys2Proof.Machine.FlagsAccumulate : Prop :=
  ∀ (fflags fctrl : Word) (raised : Raised) (k : Nat), k < 32 →
    bitAt (applyRaised fflags fctrl raised) k =
      (bitAt fflags k || (decide (k < 5) && raised.getLsbD k) ||
        (decide (8 ≤ k ∧ k < 13) && raised.getLsbD (k - 8) && !bitAt fflags (k - 8) && bitAt fctrl k))

/-- Rounding, and the flags that results raise. -/
def Obligations.RoundingDelivers : Prop := RoundsToFormat ∧ FlagsAccumulate

/-- No meaning stops while a path issues, and no step stops, unless an instruction word waits among the inputs from outside. -/
def Obligations.StepNeverStops : Prop :=
  (∀ (i : Instr) (s : State), s.ctx ≠ none → ∃ t, exec i s = .next t) ∧
  ∀ s : State, (∀ i ∈ s.agenda, encodeWord i = none ∧ i ≠ .clauseIssue ∧ (∀ y g d, i ≠ .clkloRead y g d ∧ i ≠ .mextRequest y g d)) →
    ∃ t, step s = .next t

/-- R33: a fetch leaves every block, wave and path, every launch and the clock as they were; of each core only the instruction cache
changes. -/
def Sys2Proof.Machine.FetchFrame : Prop :=
  ∀ (s s1 : State) (c : Ctx) (va : DWord) (w : Word), c.fetch s va = .ok w s1 →
    s1.blocks = s.blocks ∧ s1.launches = s.launches ∧ s1.clusters = s.clusters ∧ s1.copies = s.copies ∧ s1.cur = s.cur ∧
      s1.clk = s.clk ∧ s1.agenda = s.agenda ∧ s1.ridges = s.ridges ∧ s1.slots = s.slots ∧
      (∀ k, (s1.world k).record = (s.world k).record) ∧
      ∀ k, { s1.core k with icache := (s.core k).icache } = s.core k ∧ (k ≠ c.blk.core → s1.core k = s.core k)

/-- R27, R33, R35, R44, R338, R358: what a fetch leaves, and what a done word leaves. -/
def Obligations.FetchAndIssueFrames : Prop := FetchFrame ∧ LeaveFrame

/-! ### Where each event completes -/

/-- R73, R76, R77, R79, R81, R86: a deferred fault of all lanes of a path, the delivery point, the end of run-ahead, room in the fault ring,
a REPLAY at a core on which no path waits for it, and the end of a path's re-issued accesses: where each of them happens, and its effect. -/
def Sys2Proof.Machine.FaultEventsComplete : Prop :=
  (∀ (b w i : Nat) (s : State) (o : AsyncOp),
    let v := s.wv b w
    let bad := o.lanes.filter fun l => l.fault?.isSome
    v.op? o.id = some o → v.st = .live → v.ra = none → o.once = false → i < 8 → i < v.paths.length →
    (v.path i).st = .run → (v.path i).mode = .plain → bad ≠ [] → (maskOf fun ln => bad.any fun l => l.lane == ln) = (v.path i).full →
    (∀ l ∈ bad, l.lane < 32 ∧ ∀ k < 8, k ≠ i → (v.path k).live = true → bitAt (v.path k).full l.lane = false) →
    (∀ k < 8, (v.path k).isFault = false) → (∀ d ∈ v.deferred, d.path ≠ i) → (s.core (s.blk b).core).wait = [] →
    ∃ t, exec (.deferredFaultSplit b w o.id) s = .next t ∧ ((t.wv b w).path i).st = .fault ∧
      ((t.wv b w).path i).pc = (v.path i).pc ∧ ((t.wv b w).path i).full = (v.path i).full ∧
      ∃ d ∈ (t.wv b w).deferred, d.path = i ∧ d.op = { o with lanes := bad }) ∧
  (∀ (b w : Nat) (s : State),
    let v := s.wv b w
    v.st = .live → v.ra = none → v.delivering = false → v.atRest = true → (∀ x ∈ v.paths, x.retrying = false) →
    (s.blk b).stopping = false → v.unrecorded ≠ [] → v.lowestFault ≠ none →
    ∃ t r, exec (.deliveryPoint b w) s = .next t ∧ (t.wv b w).delivering = true ∧ (t.wv b w).ra = some r ∧
      v.lowestFault = some r.path ∧ r.savedG = v.g ∧ r.savedQ = v.q ∧ r.savedPaths = v.paths) ∧
  (∀ (b w : Nat) (s : State) (r : RunAhead), (s.wv b w).ra = some r → r.ended = true → r.pend = [] → r.woken = [] →
    (∀ d ∈ (s.wv b w).deferred,
      (if d.path = r.path then r.savedPaths.getD d.path default else (s.wv b w).path d.path).wtFull = false → Awaited s b d) →
    ∃ t, exec (.runAheadEnd b w) s = .next t ∧ (t.wv b w).ra = none ∧ (t.wv b w).g = r.savedG ∧ (t.wv b w).q = r.savedQ) ∧
  (∀ (b w : Nat) (s : State) (x : BitVec 512), (s.wv b w).ringWait = [x] → (s.writeRecord (s.launchOf b).world x).1 ≠ .full →
    ∃ t, exec (.faultRingSpaceFreed b w) s = .next t ∧ (t.wv b w).ringWait = [] ∧ (t.wv b w).delivering = false) ∧
  (∀ (core : Nat) (x : Nat × Nat × Nat) (rest : List (Nat × Nat × Nat)) (s : State), (s.core core).replays = x :: rest →
    (∀ y ∈ s.wavesOn core, (s.wv y.1 y.2).ra = none ∧ (∀ o ∈ (s.wv y.1 y.2).ops, ∀ l ∈ o.lanes, l.fault? = none) ∧
      ∀ p < 8, ((s.wv y.1 y.2).path p).isFault = false) →
    ∃ t, exec (.replayApply core) s = .next t ∧ (t.core core).replays = rest ∧ t.mem = s.mem) ∧
  (∀ (b w p : Nat) (s : State),
    let x := (s.wv b w).path p
    p < 8 → p < (s.wv b w).paths.length → x.st = .fault → x.retrying = true → x.waitOn = .none →
    (s.wv b w).retryLeft p = false → (∀ d ∈ (s.wv b w).deferred, d.path ≠ p) →
    ∃ t, exec (.faultPathResume b w p) s = .next t ∧ ((t.wv b w).path p).st = .run ∧ ((t.wv b w).path p).retrying = false)

/-- A copy that may begin its next segment, and a segment of it from global to local memory of which every granule is mapped and reached:
its granule map. -/
def Sys2Proof.Machine.MayStart (s : State) (x : Copy) (gmap : List (Nat × Nat)) : Prop :=
  let y := { x with gmap }
  s.copy? x.id = some x ∧ s.copyRuns x = true ∧ (s.launchOf (x.wave / 32)).cancelled = false ∧ x.fn = 0 ∧
    (∀ v ∈ lowestIn 65536 x.reads, ∃ pa, s.translate (s.launchOf (x.wave / 32)).world (iaOf gmap v) false = (s, .pa pa) ∧ s.portFor (s.launchOf (x.wave / 32)).world pa = .ok) ∧
    s.segRoom y = true

/-- R71, R124, R127: the start of a segment, its second try, a part of its move once its source lines have been read, its completion, and
the completion of a batch. -/
def Sys2Proof.Machine.CopyEventsComplete : Prop :=
  (∀ (b w : Nat) (s : State) (x : Copy) (gmap : List (Nat × Nat)), MayStart s x gmap → x.wave = b * 32 + w → w < 32 →
    let y := { x with gmap }
    let Pinned (t : State) : Prop := ∃ z, t.copy? x.id = some z ∧ z.st = .pinned ∧ z.pins = y.pinning ∧
      t.pins = y.pinning.foldl (fun m g => SMap.put 0 m g (SMap.get 0 m g + 1)) s.pins
    (x.st = .queued → s.copyBehind x = false → s.batchStopped x = false → x.code = 0 → x.next < x.segs.length → s.segMap x = .ok gmap →
      ∃ t, exec (.copySegmentStart b w x.id) s = .next t ∧ Pinned t) ∧
    (x.st = .refused → x.gmap = gmap → ∃ t, exec (.pinRetry b w x.id) s = .next t ∧ Pinned t)) ∧
  (∀ (b w : Nat) (s : State) (x : Copy), s.copy? x.id = some x → x.wave = b * 32 + w → w < 32 → (s.blk b).st = .resident → (s.blk b).waking = [] → x.st = .pinned →
    x.fn = 0 → x.left ≠ [] → (∀ u ∈ x.left, ∀ a ∈ x.feeds [u / 128], ∃ d, (x.lines.find? fun e => e.1 == a) = some (a, some d)) →
    ∃ t y, exec (.copySegmentMove b w x.id) s = .next t ∧ t.copy? x.id = some y ∧ (∀ u ∈ x.put, u ∈ y.put) ∧ ∃ u ∈ x.left, u ∈ y.put) ∧
  (∀ (b w : Nat) (s : State) (x : Copy), s.copy? x.id = some x → x.wave = b * 32 + w → x.st = .moved →
    ∃ t y, exec (.copySegmentComplete b w x.id) s = .next t ∧ t.copy? x.id = some y ∧ (y.st = .done ∨ y.st = .queued) ∧ y.pins = [] ∧
      t.owned = s.owned.filter fun e => e.2.2 ≠ x.id) ∧
  (∀ (b w : Nat) (s : State),
    let v := s.wv b w
    let n := v.openBatch - v.openBatches
    b < s.blocks.length → w < (s.blk b).waves.length → (s.blk b).st = .resident → v.openBatches ≠ 0 →
    (∀ x ∈ s.copies, x.wave = b * 32 + w → x.batch = n → x.st = .done) →
    ∃ t, exec (.batchComplete b w) s = .next t ∧ (t.wv b w).batchDone = BitVec.ofNat 32 n ∧
      ∀ x ∈ t.copies, ¬ (x.wave = b * 32 + w ∧ x.batch = n))

/-- R240, R248, R276, R316: the release of a quorum whose members hold the same word, descriptor and QUORUM; a TZERO or a TLD at the head of
the core's queue; the oldest feedback report, and the oldest notice, of a core. -/
def Sys2Proof.Machine.UnitEventsComplete : Prop :=
  (∀ (core b w : Nat) (s : State) (x : Word × Word × Word),
    let ms := qrMembers (s.wv b w).quorum
    (s.wavesOn core).find? (fun bw =>
      let v := s.wv bw.1 bw.2
      !(s.blk bw.1).stopping && v.st == .live && v.atLatch &&
        (qrMembers v.quorum).all fun w => (s.wv bw.1 w).st == .live && (s.wv bw.1 w).atLatch) = some (b, w) →
    (∀ m ∈ ms, (s.wv b m).saddle = some x) → w ∈ ms → (s.core core).matq.length < 16 →
    ∃ t q, exec (.saddleRelease core) s = .next t ∧ (t.core core).matq = (s.core core).matq ++ [q] ∧ q.block = b ∧ q.waves.map Prod.fst = ms) ∧
  (∀ (core : Nat) (s : State) (m : MatOp) (rest : List MatOp), (s.core core).matq = m :: rest → s.matAccept core = s →
    (∃ desc rows cols, m.kind = .tzero desc rows cols) ∨ (∃ desc n, m.kind = .tld desc n) →
    ∃ t, exec (.matrixOpApply core) s = .next t ∧ (t.core core).matq = rest ∧ t.mem = s.mem) ∧
  (∀ (core : Nat) (x : Nat × Nat × Nat × Nat × BitVec 128 × Nat) (rest : List (Nat × Nat × Nat × Nat × BitVec 128 × Nat)) (s : State),
    (s.core core).reports = x :: rest →
    ∃ t, exec (.feedbackReportAppend core) s = .next t ∧ (t.core core).reports = rest) ∧
  (∀ (core tok : Nat) (published : Bool) (rest : List (Bool × Nat)) (s : State), (s.core core).notices = (published, tok) :: rest →
    ∃ t, exec (.tokenNotice core) s = .next t ∧ (t.core core).notices = rest ∧ t.mem = s.mem ∧ t.l2 = s.l2)

/-- Where the events of waves, copies, matrix units and graphics units complete. That each is one step, in an order that is free, is the
model's choice (log entry 5). -/
def Obligations.WaveEventsComplete : Prop := FaultEventsComplete ∧ CopyEventsComplete ∧ UnitEventsComplete

/-- R147, R369, R383, R384, R403, R404, R458: the release of a block's resources, the dispatch of a cluster, displacement, the save and the
restore of a block, and the two ends of a wait-cycle probe. -/
def Sys2Proof.Machine.BlockEventsComplete : Prop :=
  (∀ (b : Nat) (s : State), b < s.blocks.length → (s.blk b).st = .resident →
    (∀ v ∈ (s.blk b).waves, v.st = .done ∧ v.ops = [] ∧ v.openBatches = 0) →
    (∀ m ∈ (s.clusters.getD (s.blk b).cluster {}).members, (s.blk m).endCode ≠ 0) →
    ∃ t, exec (.resourceRelease b) s = .next t ∧ (t.blk b).st = .retired ∧ (t.blk b).allFree = true) ∧
  (∀ (world l : Nat) (cores : List Nat) (s : State),
    let x := s.launches.getD l default
    s.restorePending world = false →
    (s.readyOrder world).find? (fun l => (s.openRidges world).any fun r => s.roomOn (s.launches.getD l default) r) = some l →
    s.placement x cores = true → recSV x.record = false →
    ∃ t, exec (.blockDispatch world cores) s = .next t ∧ t.blocks.length = s.blocks.length + recCluster x.record ∧
      (t.launches.getD l default).nextBlock = x.nextBlock + recCluster x.record ∧
      ∀ r < recCluster x.record, (t.blk (s.blocks.length + r)).st = .resident ∧ (t.blk (s.blocks.length + r)).launch = l ∧
        (t.blk (s.blocks.length + r)).core = cores.getD r 0) ∧
  (∀ (b : Nat) (s : State), b < s.blocks.length → s.displaceable b = true → (s.mates b).filter (fun m => (s.blk m).st == .resident) = [b] →
    s.hasHeir (s.blk b).launch = true → s.ridgeOpen (s.launchOf b).world ((s.blk b).core / 8) = true → (s.launchOf b).cancelled = false →
    ∃ t, exec (.displaceBlock b) s = .next t ∧ (t.blk b).stopping = true ∧ (t.blk b).displaced = true) ∧
  (∀ (b : Nat) (s : State) (place : Option Nat), b < s.blocks.length →
    (s.mates b).filter (fun m => (s.blk m).st == .resident) = [b] → (s.blk b).stopping = true → (s.blk b).displaced = false →
    s.closing (s.blk b).core = false → s.drained b = true → s.saveRoom b = some place →
    ∃ t n, exec (.preemptSave b) s = .next t ∧ (t.blk b).st = .saved n ∧ (t.blk b).spill = place ∧ (t.blk b).v = (s.blk b).v) ∧
  (∀ (b core order : Nat) (s : State), b < s.blocks.length → (s.blk b).st = .saved order →
    s.ridgeOpen (s.launchOf b).world (core / 8) = true → s.restoreTurn b core = true → s.savedMates b = [b] → s.restorable b core = true →
    core ∈ (s.launchOf b).coresOf (core / 8) → s.contextBad b = false →
    ∃ t, exec (.blockRestore b core) s = .next t ∧ (t.blk b).st = .resident ∧ (t.blk b).core = core ∧ (t.blk b).v = (s.blk b).v) ∧
  (∀ (b w : Nat) (ws : List (Nat × Nat)) (s : State), s.awaited b w = some ws →
    (s.wv b w).followSince + 1000 * cyclesPerUs ≤ s.clk → (s.wv b w).probedAt + 1000 * cyclesPerUs ≤ s.clk →
    ∃ t, exec (.waitcycleProbeSend b w) s = .next t ∧ t.probes = s.probes ++ [{ sender := (b, w), todo := ws, reached := [(b, w)] }]) ∧
  (∀ (p : Probe) (rest : List Probe) (x : Nat × Nat) (todo ws : List (Nat × Nat)) (s : State), s.probes = p :: rest → p.todo = x :: todo →
    p.reached.contains x = false → s.awaited x.1 x.2 = some ws →
    exec .waitcycleProbeReceive s = .next { s with probes := { p with todo := todo ++ ws, reached := p.reached ++ [x] } :: rest })

/-- R361, R370 to R374, R386: an arrival that leaves its counter above zero, the end of a launch, the end of a cancellation, a job that a
stage queue takes, the reading of CLOSED, and the division of a ridge's cores. -/
def Sys2Proof.Machine.TaskEventsComplete : Prop :=
  (∀ (world : Nat) (a : Arrival) (s s1 s2 : State) (o : Counter), s.arrivals.find? (fun a => a.world == world) = some a →
    ({ s with arrivals := s.arrivals.erase a } : State).readCounter a.asid a.va = (.ok o, s1) →
    o.malformed a.va = false → o.gen = a.gen → 1 < o.count → kindFits o.kind a.src = true →
    s1.writeCounter a.asid a.va { o with status := max o.status a.status, count := o.count - 1 } = (none, s2) →
    exec (.counterArrive world) s = .next (s2.replyArrival a 0)) ∧
  (∀ (l : Nat) (s : State),
    let x := s.launches.getD l default
    l < s.launches.length → x.st = .ready → x.cancelled = false → (∀ b ∈ s.blocksOf l, s.blockQuiet b = true) → recSV x.record = false →
    x.nextBlock = recGridX x.record * recGridY x.record * recGridZ x.record →
    ∃ t, exec (.launchComplete l) s = .next t ∧ (t.launches.getD l default).st = .done ∧ t.blocks = s.blocks) ∧
  (∀ (c : Nat) (s : State) (x : Cancel), s.cancels[c]? = some x → (∀ l ∈ x.launches, ∀ b ∈ s.blocksOf l, s.blockQuiet b = true) →
    ∃ t, exec (.cancelFinish c) s = .next t ∧ t.cancels = s.cancels.eraseIdx c) ∧
  (∀ (b w stage : Nat) (s : State) (o : AsyncOp) (l : LaneOp) (n : Nat) (job : List Byte) (s1 s2 : State),
    (s.wv b w).op? o.id = some o → o.kind = .tlaunchJob stage → o.lanes.find? (fun l => l.st == .pending) = some l →
    let me := s.launchOf b
    let x := s.launches.getD n default
    recPipe me.record ≠ 0 →
    (List.range s.launches.length).find? (fun t =>
      let x := s.launches.getD t default
      x.world == me.world && x.st == .ready && !x.cancelled && recSV x.record && recPipe x.record == recPipe me.record &&
        recSidx x.record == stage) = some n →
    s.cpRead (recAsid me.record) [.load] l.va.toNat 32 = (.ok job, s1) → s1.enqueueJob x.world (recSqia x.record) job = (.ok true, s2) →
    ∃ t, exec (.stageEnqueue b w o.id) s = .next t ∧ t.mem = s2.mem ∧ t.l2 = s2.l2) ∧
  (∀ (l : Nat) (s s1 : State) (q : StageQ),
    let x := s.launches.getD l default
    l < s.launches.length → x.st = .ready → recSV x.record = true → s.stageRead x.world (recSqia x.record) = (.ok q, s1) →
    ∃ t, exec (.stageClosedPoll l) s = .next t ∧ (t.launches.getD l default).closedSeen = q.closed) ∧
  (∀ (ridge world : Nat) (s : State), (s.ridge ridge).world = some world → ridge < s.ridges.length →
    (s.ridge ridge).divided + 50 * cyclesPerUs ≤ s.clk →
    ∃ t, exec (.stageCoreDivision ridge) s = .next t ∧ (t.ridge ridge).divided = s.clk ∧
      ∀ l < s.launches.length, let x := s.launches.getD l default
        x.world = world → x.st = .ready → recSV x.record = true →
        ∀ c, c / 8 = ridge → s.coreHolds c l = true → c ∈ (t.launches.getD l default).cores)

/-- R85, R87, R88, R440: a DBGRES of a held path, an INVR that has been carried out and for which nothing is pinned or under way, and one
step of each MIGR command. -/
def Sys2Proof.Machine.PrivilegedEventsComplete : Prop :=
  (∀ (core b w op t k : Nat) (ctl : Word) (rest : List (Nat × Nat × Nat)) (s : State) (o : AsyncOp), (s.core core).dbg = (b, w, op) :: rest →
    (s.wv b w).op? op = some o → o.kind = .dbgres ctl → t = fld ctl 4 0 → (s.modCore core fun k => { k with dbg := rest }).target b = some k →
    t < (s.blk k).waves.length → ((s.wv k t).path (fld ctl 7 5)).st = .held → s.debugWaits k t = false → s.closing (s.blk k).core = false → (s.wv k t).st = .live →
    exec (.dbghaltApply core) s = .next
      (((s.modCore core fun k => { k with dbg := rest }).unholdPath k t (fld ctl 7 5)).answer b w op 0)) ∧
  (∀ (b w : Nat) (s : State) (o : AsyncOp) (ctl : Word) (l : LaneOp), (s.wv b w).op? o.id = some o → o.kind = .invr ctl → o.lanes.head? = some l →
    let r := invrRange ctl l.addr.toNat
    fld ctl 17 16 ≠ 1 → o.phase ≠ 0 → s.pinnedIn r.1 r.2 = false → (∀ x ∈ l.aux, x ∉ s.atPort r.1 r.2) →
    exec (.invrAcknowledge b w o.id) s = .next ((s.purgeRange (fld ctl 15 12) r.1 r.2).finishOp b w o.id)) ∧
  (∀ (world prog : Nat) (s : State) (k : Nat × Nat × Nat) (r : BitVec 256),
    (s.migrHead world 1 = some (k, r, prog) → ((((s.wv k.1 k.2.1).op? k.2.2).getD {}).lanes.headD {}).aux ≠ [] → prog % 65536 = mgCount r →
      exec (.migrDemote world) s = .next (s.migrEnd world k (prog / 65536 / 16) 0)) ∧
    (s.migrHead world 2 = some (k, r, prog) → prog % 65536 = mgCount r →
      exec (.migrPromote world) s = .next (s.migrEnd world k (prog % 65536) 0)) ∧
    (s.migrHead world 3 = some (k, r, prog) → mgCount r ≤ prog → exec (.migrCopyf world) s = .next (s.migrEnd world k prog 0)) ∧
    (s.migrHead world 4 = some (k, r, prog) → (s.mapBit world (mgMap r) true).1 = 0 →
      exec (.migrMapset world) s = .next ((s.mapBit world (mgMap r) true).2.migrEnd world k 1 0)) ∧
    (s.migrHead world 5 = some (k, r, prog) → prog ≠ 0 → s.lookupsOut world = false →
      exec (.migrMapclr world) s = .next (s.migrEnd world k 1 0)))

/-- Where the events of blocks, of the command processor and of privileged requests complete. The readings of BlockEvents, ProcessorEvents
and PrivilegedEvents hold here too (log entries 21, 24 to 26, 29, 31, 34, 35, 37, 50, 69); that each event is one step, in an order that
is free, is the model's choice (log entry 5). -/
def Obligations.ProcessorEventsComplete : Prop := BlockEventsComplete ∧ TaskEventsComplete ∧ PrivilegedEventsComplete

/-- R411, R413, R420, R435: an edge of the slot table, the phases of a shutter on a ridge on which no block is left, and the events of
heat. -/
def Sys2Proof.Machine.ShutterEventsComplete : Prop :=
  (∀ s : State, s.slots ≠ [] → s.thermal = false → s.slotEnd ≤ s.clk →
    ∃ t, exec .slotEntryEdge s = .next t ∧ t.slots = s.nextEntry.1 ∧ t.slotEntry = s.nextEntry.2 ∧ t.slotStart = s.slotEnd) ∧
  (∀ (r : Nat) (s : State), r < s.ridges.length →
    ((s.ridge r).phase = .stop ∨ (s.ridge r).phase = .drain → (s.onRidge r).all s.drained = true →
      ∃ t, exec (.shutterDrainComplete r) s = .next t ∧ (t.ridge r).phase = .seal ∧ t.blocks = s.blocks) ∧
    ((s.ridge r).phase = .stop ∨ (s.ridge r).phase = .drain → s.drainEnd r ≤ s.clk → s.onRidge r = [] →
      ∃ t, exec (.drainBudgetExpiry r) s = .next t ∧ (t.ridge r).phase = .seal ∧ t.blocks = s.blocks) ∧
    ((s.ridge r).phase = .seal → s.onRidge r = [] →
      ∃ t, exec (.sealComplete r) s = .next t ∧ (t.ridge r).phase = .scrub ∧ t.blocks = s.blocks) ∧
    ((s.ridge r).phase = .scrub → ∃ t, exec (.scrubComplete r) s = .next t ∧ (t.ridge r).phase = .open_ ∧
      ∀ c, c / 8 = r → (t.core c).l1 = [] ∧ (t.core c).icache = [])) ∧
  (∀ (die : Nat) (s : State), s.powered = true →
    (s.frozen = false → ∃ t e, exec (.thermalWarning die) s = .next t ∧ t.events.head? = some e ∧ e.cls = 3 ∧ e.code = 1 ∧ e.unit = die) ∧
    (∃ t, exec (.thermalShutter die) s = .next t ∧ t.thermal = true) ∧
    (s.thermal = true → ∃ t, exec .thermalResume s = .next t ∧ t.thermal = false) ∧
    (∃ t, exec (.thermalPowerRemove die) s = .next t ∧ t.powered = false ∧ t.cur = none))

/-- R422, R425, R426, R429: writes of a queue's registers and the reading of a slot, the transitions of a TDI, and an inbound access that is
not allowed. -/
def Sys2Proof.Machine.HostEventsComplete : Prop :=
  ∀ (vf q : Nat) (s : State), HostOpen s vf q →
    (∀ tail : BitVec 32, s.tdiOf vf = .run → (s.queue vf q).err = 0 →
      (tail.toNat + 2 ^ 32 - (s.queue vf q).head) % 2 ^ 32 ≤ (s.queue vf q).cap →
      ∃ t, exec (.queueDoorbell vf q tail) s = .next t ∧ t.queue vf q = { s.queue vf q with tail := tail.toNat }) ∧
    (∀ (cap : Bool) (value : BitVec 64), (s.queue vf q).tail = (s.queue vf q).head →
      ∃ t, exec (.queueConfigWrite vf q cap value) s = .next t ∧
        t.queue vf q = if cap then { s.queue vf q with cap := value.toNat % 2 ^ 32 } else { s.queue vf q with base := value }) ∧
    (∀ value : BitVec 32, ∃ t, exec (.registerWrite vf (q * 64 + 8) value) s = .next t ∧
      t.queue vf q = { s.queue vf q with taskva := setHalf (s.queue vf q).taskva 0 value }) ∧
    ((s.queue vf q).err = 0 → (s.queue vf q).next ≠ (s.queue vf q).tail → (s.queue vf q).cap ≠ 0 → s.tdiOf vf = .run →
      ∀ w : Nat, s.vfWorld vf = some w →
        let h := s.queue vf q
        let pa := 2 ^ 44 + (h.base.toNat / 256 * 256 + 256 * (h.next % h.cap))
        pa + 256 ≤ 2 ^ 45 → (s.bad w pa || s.bad w (pa + 128)) = false →
        exec (.cpSlotRead vf q .held) s = .next
          ((s.setQueue vf q { h with next := (h.next + 1) % 2 ^ 32, held := h.held ++ [h.next] }).submit w
            (BitVec.ofNat 64 (h.taskva.toNat / 256 * 256 + 256 * (h.next % h.cap))) (BitVec.ofNat 2048 (leNat (memBytes s.mem pa 256))) 7
            (h.taskva.toNat ≠ 0 && h.taskva.toNat % 256 = 0) (some (vf * 4 + q, h.next))).2) ∧
    (∀ config, s.tdiOf vf = .configUnlocked → (s.vfWorld vf).isSome →
      ∃ t, exec (.tdispLock vf config) s = .next t ∧ t.tdiOf vf = .configLocked ∧
        SMap.get 0 t.meas (32 + vf) = extend (SMap.get 0 s.meas (32 + vf)) config) ∧
    (s.tdiOf vf = .configLocked → ∃ t, exec (.tdiRunResume vf) s = .next t ∧ t.tdiOf vf = .run) ∧
    (∃ t, exec (.tdispStop vf) s = .next t ∧ t.tdiOf vf = .configUnlocked ∧ t.queue vf q = {}) ∧
    (∃ t, exec (.ideIntegrityFailure vf) s = .next t ∧ t.tdiOf vf = .error) ∧
    (∀ (peer : Bool) (unit world pa : Nat) (n w : Nat) (bs : List Byte) (s1 : State), s.inboundWorld peer unit world = some w →
      inGrant (s.grant w) pa n = true → pa + n ≤ 2 ^ 44 → s.owned = [] → (∀ e ∈ s.l2, ∀ l, e.2 = some l → l.holder = none) →
      s.engRead w (directIA w pa) n = (.ok bs, s1) →
      exec (.inboundAccess peer unit world pa (.read n)) s = .next { s1 with reply := some (true, bs) })

/-- R410, R411, R423, R424, R431, R434, R437, R444, R445: a command of Shethar that its rules allow, requests of the management core, stores of
the debug window and samples. -/
def Sys2Proof.Machine.ManagementEventsComplete : Prop :=
  ∀ s : State, s.powered = true →
    (s.bootStep = 0 →
      (∀ (w : Nat) (r : BitVec 4096), w < 12 → w < s.worlds.length → s.recordOk w r = true →
        (wrV (s.world w).record = false → ∃ t, exec (.wcreate w r) s = .next t ∧ t.reply = some (true, []) ∧ t.world w = { record := withV r }) ∧
        (wrV (s.world w).record = true → s.worldBusy w = false → s.vfLocked w = false →
          ∃ t, exec (.wset w r) s = .next t ∧ t.reply = some (true, []) ∧ (t.world w).record = withV r)) ∧
      (∀ w, w < 12 → w < s.worlds.length → (s.slots.any fun e => (slNames e).contains w || (List.range 12).any fun x => slDonee e x == w) = false → s.vfLocked w = false →
        ∃ t, exec (.wdestroy w) s = .next t ∧ t.reply = some (true, []) ∧ t.world w = {}) ∧
      (∀ table t, tableRun table = some t → t.any s.entryBad = false → s.slots ≠ [] →
        ∃ u, exec (.slots table) s = .next u ∧ u.reply = some (true, []) ∧ u.slotsNext = some t) ∧
      (∀ hslots heapia otia objcount clockw : Nat, (∀ w < 12, wrV (s.world w).record = false ∨ wrHeapva (s.world w).record = 0) →
        hslots ≤ 8388608 → heapia % 2 ^ 21 = 0 → heapia / 2 ^ 48 = 12 → otia / 2 ^ 48 = 12 → clockw ≤ 11 →
        exec (.heap hslots heapia otia objcount clockw) s =
          .next { s with shade := { hslots, heapia, otia, objcount, clockw }, reply := some (true, []) }) ∧
      (∀ (h : Nat) (r old : BitVec 256) (s1 s2 : State), h < s.shade.objcount → s.readObject h = (some old, s1) →
        (objectForm r = true → obValid old = false → s1.writeObject h (setFld r 37 37 1) = (true, s2) →
          exec (.objset h r) s = .next { s2 with reply := some (true, []) }) ∧
        (s1.writeObject h (setFld old 37 37 0) = (true, s2) →
          ∃ t, exec (.objclr h) s = .next t ∧ t.reply = some (true, []) ∧ t.mem = s2.mem ∧ t.l2 = s2.l2)) ∧
      (∀ (p : Nat) (ports : List Nat), (∀ q ∈ ports, q < 16) →
        exec (.route p ports) s = .next { s with routes := (p, ports) :: s.routes.filter fun e => e.1 ≠ p, reply := some (true, []) }) ∧
      (∀ slice way, slice < 128 → way < 16 → ∃ t, exec (.gate false slice way true) s = .next t ∧ t.reply = some (true, []) ∧
        (slice, way) ∈ t.gatedWays)) ∧
    (∀ offset : BitVec 32, offset ≠ 0xFFFFFFFF#32 → ∃ bs, bs.length = 4096 ∧ exec (.events offset) s = .next { s with reply := some (true, bs) }) ∧
    (exec .eventsUnfreeze s = .next { s with frozen := false, reply := some (true, []) }) ∧
    (∀ i, s.bootStep = 0 → 1 ≤ i → i ≤ 4 → exec (.measurementRequest i) s = .next
      { s with reply := some (true, natBytes 64 (SMap.get 0 s.meas i).toNat ++ natBytes 16 (0xFF * 256)) }) ∧
    (∀ (world b w : Nat) (x : BitVec 512) (rest : List (Nat × Nat × Option (BitVec 512))), (s.world world).mextq = (b, w, some x) :: rest →
      s.ridges.any (fun r => r.world == some world) = true →
      ∃ t, exec (.mextResponse world) s = .next t ∧ (t.world world).mextq = rest ∧
        SMap.get 0 t.meas (16 + world) = extend (SMap.get 0 s.meas (16 + world)) (natBytes 64 x.toNat)) ∧
    (∀ (shared : SharedRegion) (fw cfg sh : List (BitVec 8)),
      (∃ t, exec (.powerOn (.up shared) fw cfg sh) s = .next t ∧ t.bootStep = 0 ∧ t.mem = [] ∧ t.blocks = []) ∧
      (∃ t, exec (.warmReset (.up shared) fw cfg sh) s = .next t ∧ t.bootStep = 0 ∧ t.events = s.events ∧ t.blocks = [])) ∧
    (∀ (b w lane : Nat) (o : AsyncOp) (l : LaneOp), (s.wv b w).op? o.id = some o → l ∈ o.lanes → l.lane = lane →
      (l.attachLane o.kind = true → exec (.debugAttach b w o.id lane) s = .next (s.performLocal b w o.id lane)) ∧
      (l.profLane o.kind = true → exec (.profilingControlWrite b w o.id lane) s = .next (s.performLocal b w o.id lane))) ∧
    (∀ l, l < s.launches.length → s.sampleDue l = true →
      ∃ t, exec (.traceSample l) s = .next t ∧ (t.launches.getD l default).sampled = s.clk)

/-- Where the events of shutters, heat, the host, Shethar and the management core complete. The readings of ShutterEvents, HostEvents and
ManagementResults hold here too (log entries 23, 35, 36, 38 to 49, 67, 69); that each event is one step, in an order that is free, is the
model's choice (log entry 5). -/
def Obligations.DeviceEventsComplete : Prop := ShutterEventsComplete ∧ HostEventsComplete ∧ ManagementEventsComplete

/-! ### What units carry out -/

/-- The event that carries out lane `l` of a local access whose turn it is: an LDL's or ATOML's result, or the acknowledgement of an STL. -/
def Sys2Proof.Machine.LocalTurn (s : State) (b w : Nat) (o : AsyncOp) (l : LaneOp) (i : Instr) : Prop :=
  (s.wv b w).op? o.id = some o ∧ (o.lanes.find? fun x => x.lane == l.lane && x.st == .pending) = some l ∧ (s.wv b w).mayPerform o l = true ∧
    ((i = .asyncResultReturn b w o.id l.lane ∧ (o.lanes.find? fun x => x.lane == l.lane) = some l ∧ ∀ n, o.kind ≠ .storeLocal n) ∨
      (i = .storeAcknowledge b w o.id ∧ o.ctr = .sc ∧ (∃ n, o.kind = .storeLocal n) ∧
        (o.lanes.find? fun x => x.st == .pending && !x.attachLane o.kind && !x.profLane o.kind && (s.wv b w).mayPerform o x) = some l))

/-- R151, R152, R160, R167, R179: a lane of LDL, STL or ATOML is performed at its local address: in the own scratchpad, in that of the
block of a rank, or in a register of a wave. While a bank of the block wakes, or it is being saved (R436), the lane waits; a word that fails its check gives DATA. -/
def Sys2Proof.Machine.LocalServed : Prop :=
  ∀ (b w : Nat) (s : State) (o : AsyncOp) (l : LaneOp) (i : Instr) (t : LTgt) (n : Nat), LocalTurn s b w o l i →
    (match o.kind with | .loadLocal m _ | .storeLocal m => n = m | .atomicLocal _ => n = 4 | _ => False) →
    (s.ctxAt b w o.path).localAt s l.va.toNat n (match o.kind with | .atomicLocal _ => true | _ => false) = some t →
    (∀ off, t ≠ .debug off) →
    let a := whoOf s b w o l
    let home := (s.localWords b t n).1
    let bad := (s.localWords b t n).2.any fun x => (s.blk home).badWords.contains x
    let awake := (s.blk home).waking = [] ∧ s.sealing home = false ∧ s.ranAhead ((s.wv b w).isRa o.id) home t = false
    let read := s.localRead b t n
    (¬ awake → exec i s = .next s) ∧
    (awake → bad = true → exec i s = .next ((s.log 5 (some 0x14) (some a.core) a.world l.va.toNat).modLane b w o.id l.lane fun l =>
      { l with st := .faulted 0x14 7 l.va 0 })) ∧
    (awake → bad = false →
      (∀ m sg, o.kind = .loadLocal m sg →
        exec i s = .next ((s.sameLocal a l.va.toNat read).2.lanePerformed a (loadWords n sg (s.sameLocal a l.va.toNat read).1)) ∧
          ∀ k < n, (s.sameLocal a l.va.toNat read).1.getD k 0 =
            ((o.seen.find? fun x => x.1 == l.va.toNat + k).map Prod.snd).getD (read.getD k 0)) ∧
      (∀ m, o.kind = .storeLocal m → exec i s = .next ((s.localWrite b t (natBytes n l.data.toNat)).lanePerformed a [])) ∧
      (∀ op, o.kind = .atomicLocal op →
        exec i s = .next ((match atomNew op false (leNat read) l.data.toNat with
          | some x => s.localWrite b t (natBytes 4 x)
          | none => s).lanePerformed a [BitVec.ofNat 32 (leNat read)])))

/-- R151, R152: the bytes at a local target, and what a write there changes. The registers of a wave that is DONE read 0 and take no write. -/
def Sys2Proof.Machine.LocalBytes : Prop :=
  ∀ (s : State) (b : Nat), b < s.blocks.length →
    let peer (rank : Nat) : Nat := (s.clusters.getD (s.blk b).cluster {}).members.getD rank 0
    let row (w reg : Nat) : Nat := vRow (recNw (s.launchOf b).record) (recB (s.launchOf b).record) (recX (s.launchOf b).record) w reg
    let at_ (t : LTgt) (off home : Nat) : Prop :=
      (∀ n, s.localRead b t n = (List.range n).map fun k => (s.blk home).sByte (off + k)) ∧
      ∀ bs, home < s.blocks.length →
        let u := s.localWrite b t bs
        { u with blocks := s.blocks } = s ∧ (∀ k, k ≠ home → u.blk k = s.blk k) ∧
          { u.blk home with scratch := (s.blk home).scratch } = s.blk home ∧
          ∀ x, (u.blk home).sByte x = if off ≤ x ∧ x < off + bs.length then bs.getD (x - off) 0 else (s.blk home).sByte x
    (∀ off, at_ (.own off) off b) ∧ (∀ rank off, at_ (.cluster rank off) off (peer rank)) ∧
    ∀ w reg ln byte,
      (((s.blk b).waves.getD w default).st = .done →
        (∀ n, s.localRead b (.reg w reg ln byte) n = List.replicate n 0) ∧ ∀ bs, s.localWrite b (.reg w reg ln byte) bs = s) ∧
      (((s.blk b).waves.getD w default).st ≠ .done → byte < 4 →
        (∀ n, s.localRead b (.reg w reg ln byte) n = (List.range n).map fun k =>
          (rowGet (s.blk b).v (row w reg) (ln + (byte + k) / 4)).extractLsb' (8 * ((byte + k) % 4)) 8) ∧
        ∀ x y : Word, ln + 1 < 32 →
          let u := s.localWrite b (.reg w reg ln 0) (natBytes 4 x.toNat ++ natBytes 4 y.toNat)
          { u with blocks := s.blocks } = s ∧ (∀ k, k ≠ b → u.blk k = s.blk k) ∧ { u.blk b with v := (s.blk b).v } = s.blk b ∧
            ∀ r k, k < 32 → rowGet (u.blk b).v r k =
              if r = row w reg ∧ k = ln then x else if r = row w reg ∧ k = ln + 1 then y else rowGet (s.blk b).v r k)

/-- R285: a push writes its register of the stack run, or its word of the spill area; a pop reads it. A spill into the shading heap takes
its turn (R300). -/
def Sys2Proof.Machine.StackServed : Prop :=
  ∀ (b w : Nat) (s : State) (o : AsyncOp) (l : LaneOp), CarriedOut s b w o l → (s.wv b w).unitTurn o l.lane = true →
    let i := Instr.asyncResultReturn b w o.id l.lane
    let a := whoOf s b w o l
    let c := s.ctxAt b w 0
    (o.kind = .stkPush → s.shadeTurn (s.wv b w) o l = true →
      (∀ r, l.aux = [r] → b < s.blocks.length → w < (s.blk b).waves.length → l.lane < 32 → ∃ t : State, exec i s = .next (t.lanePerformed a []) ∧
        { t with blocks := s.blocks } = s ∧ (∀ k, k ≠ b → t.blk k = s.blk k) ∧
        ∀ q ln, ln < 32 → rowGet (t.blk b).v q ln =
          if q = vRow c.nw c.B c.X w r ∧ ln = l.lane then l.data.setWidth 32 else rowGet (s.blk b).v q ln) ∧
      (l.aux = [] → Delivers i s a l.va (s.storeLine a l.ia (natBytes 4 l.data.toNat) 0) fun _ t =>
        (t.l1Update a.core l.ia (natBytes 4 l.data.toNat)).lanePerformed a [])) ∧
    (o.kind = .stkPop →
      (∀ r, l.aux = [r] → exec i s = .next (s.lanePerformed a [(s.ctxAt b w o.path).vraw l.lane r])) ∧
      (l.aux = [] → Delivers i s a l.va (s.loadLine a l.ia 4 0 true) fun bs t => t.lanePerformed a [BitVec.ofNat 32 (leNat bs)]))

/-- The value of an FP32 word. -/
def Sys2Proof.Machine.num32 (x : Word) : Rat := fvRat (Fmt.f32.value x.toNat)
def Sys2Proof.Machine.finite32 (x : Word) : Prop := ∃ n m e, Fmt.f32.value x.toNat = .fin n m e

/-- R283: over a finite ray and finite boxes, a child is hit where a point of the ray with tmin ≤ t ≤ tmax lies in its box; its distance
is the least such t, rounded down; hits come in the order of their distances, and of children at the same distance. -/
def Sys2Proof.Machine.BoxValues : Prop :=
  ∀ ray node : List Word, ray.length = 8 → node.length = 48 → (∀ x ∈ ray ++ node, finite32 x) → rayOk ray = true →
    let at_ (l : List Word) (k : Nat) : Rat := num32 (l.getD k 0)
    let within (c : Nat) (t : Rat) : Prop := at_ ray 6 ≤ t ∧ t ≤ at_ ray 7 ∧ ∀ k < 3,
      at_ node (6 * c + k) ≤ at_ ray k + t * at_ ray (3 + k) ∧ at_ ray k + t * at_ ray (3 + k) ≤ at_ node (6 * c + 3 + k)
    let hit (c : Nat) : Prop := c < 8 ∧ ∃ t, within c t
    let res := boxTest ray node
    let count := fld (res.getD 0 0) 11 8
    let child (k : Nat) : Nat := (res.getD 1 0).toNat / 16 ^ k % 16
    res.length = 10 ∧ (res.getD 0 0).toNat < 2 ^ 12 ∧ (∀ c, hit c ↔ c < 8 ∧ bitAt (res.getD 0 0) c = true) ∧
    (∀ k < count, hit (child k)) ∧ (∀ c, hit c → ∃ k < count, child k = c) ∧
    (∀ k < 8, count ≤ k → child k = 15 ∧ res.getD (2 + k) 0 = 0x7F800000) ∧
    ∃ dist : Nat → Rat, (∀ c, hit c → within c (dist c) ∧ ∀ t, within c t → dist c ≤ t) ∧
      (∀ k < count, res.getD (2 + k) 0 = extRound .rd (.fin (dist (child k)))) ∧
      ∀ j k, j < k → k < count → dist (child j) < dist (child k) ∨ dist (child j) = dist (child k) ∧ child j < child k

/-- The determinant of three vectors. -/
def Sys2Proof.Machine.detRat (a b c : Nat → Rat) : Rat :=
  a 0 * (b 1 * c 2 - b 2 * c 1) - a 1 * (b 0 * c 2 - b 2 * c 0) + a 2 * (b 0 * c 1 - b 1 * c 0)

/-- R284: the five conditions of a hit over a finite ray and triangle, and the result of a hit and of a miss. -/
def Sys2Proof.Machine.TriangleValues : Prop :=
  ∀ ray tri : List Word, ray.length = 8 → 9 ≤ tri.length → (∀ x ∈ ray ++ tri.take 9, finite32 x) → rayOk ray = true →
    let org (k : Nat) : Rat := num32 (ray.getD k 0)
    let dir (k : Nat) : Rat := num32 (ray.getD (3 + k) 0)
    let v (i k : Nat) : Rat := num32 (tri.getD (3 * i + k) 0)
    let a (i k : Nat) : Rat := v i k - org k
    let W (i : Nat) : Rat := detRat dir (a ((i + 1) % 3)) (a ((i + 2) % 3))
    let D := W 0 + W 1 + W 2
    let t := detRat (fun k => v 1 k - v 0 k) (fun k => v 2 k - v 0 k) (a 0) / D
    let before (i j : Nat) : Prop := v i 0 < v j 0 ∨ v i 0 = v j 0 ∧ (v i 1 < v j 1 ∨ v i 1 = v j 1 ∧ v i 2 < v j 2)
    let included (i j : Nat) : Prop := (∃ k < 3, v i k ≠ v j k) ∧ (before i j ↔ ¬ D < 0)
    let hits : Prop := D ≠ 0 ∧ (∀ i < 3, 0 ≤ W i * D) ∧ (∀ i < 3, W i = 0 → included ((i + 1) % 3) ((i + 2) % 3)) ∧
      num32 (ray.getD 6 0) ≤ t ∧ t ≤ num32 (ray.getD 7 0)
    (hits → triTest ray tri =
      [if D < 0 then 3 else 1, extRound .rne (.fin t), extRound .rne (.fin (W 1 / D)), extRound .rne (.fin (W 2 / D))]) ∧
    (¬ hits → triTest ray tri = [0, 0x7F800000, 0, 0])

/-- R282 to R284: BOXT and TRIT read their node or triangle and answer with its test; an empty ray hits nothing. -/
def Sys2Proof.Machine.TraversalServed : Prop :=
  (∀ (b w : Nat) (s : State) (o : AsyncOp) (l : LaneOp), CarriedOut s b w o l → (s.wv b w).unitTurn o l.lane = true →
    let i := Instr.asyncResultReturn b w o.id l.lane
    let a := whoOf s b w o l
    let c := s.ctxAt b w o.path
    (o.kind = .boxt → Delivers i s a l.va (s.coRead a c l.va.toNat 4 192) fun bs t =>
      t.lanePerformed a (boxTest (l.words 8) (bytesWords bs))) ∧
    (o.kind = .trit → Delivers i s a l.va (s.coRead a c l.va.toNat 3 36) fun bs t =>
      t.lanePerformed a (triTest (l.words 8) (bytesWords bs)))) ∧
  (∀ ray node : List Word, rayOk ray = false →
    boxTest ray node = [0, 0xFFFFFFFF] ++ List.replicate 8 0x7F800000 ∧ triTest ray node = [0, 0x7F800000, 0, 0]) ∧
  BoxValues ∧ TriangleValues

/-- R267, R268, R271 to R274, R281: a lane's lookup is its result, with the status word after the data for FETCHF; a lookup with pages to report
waits for their replies. A texel fetch of an image without residency reads its texel at the address of R268, or takes the border beyond the image; indices
wrap, clamp, leave for the border or mirror; the weights of a footprint sum to 1. That a channel of UN8 is its exact u / 255 until the result is rounded is
the model's inference (notes/assumptions/67.md). -/
def Sys2Proof.Machine.TextureServed : Prop :=
  (∀ (b w : Nat) (s : State) (o : AsyncOp) (l : LaneOp) (fn : Nat) (r : BitVec 320), CarriedOut s b w o l →
    (s.wv b w).unitTurn o l.lane = true → o.kind = .tex fn r → l.aux = [] →
    let i := Instr.asyncResultReturn b w o.id l.lane
    let a := whoOf s b w o l
    let c := s.ctxAt b w o.path
    (∀ x s1, s.texLookup a c r fn (l.words 14) = .ok x s1 → x.report = [] →
      ∃ t, exec i s = .next t ∧ { t with blocks := s1.blocks } = s1 ∧
        ∀ o1, (s1.wv b w).op? o.id = some o1 → (t.wv b w).op? o.id = some { o1 with lanes := o1.lanes.map fun e =>
          if e.lane = l.lane then { e with st := .ready, addr := BitVec.ofNat 64 x.status, aux := [0],
                                           res := x.data ++ if fn = 4 then [BitVec.ofNat 32 x.status] else [] }
          else e }) ∧
    (∀ f ia s1, s.texLookup a c r fn (l.words 14) = .fault f ia s1 → exec i s = .next (s1.laneFault a l.va f ia)) ∧
    ∀ s1, s.texLookup a c r fn (l.words 14) = .wait s1 → exec i s = .next s1) ∧
  (∀ (s : State) (a : Who) (c : Ctx) (r : BitVec 320) (ws : List Word), ∀ fn ∈ [3, 4],
    let x := (ws.getD 0 0).toNat
    let y := (ws.getD 1 0).toNat
    let l := (ws.getD 2 0).toNat
    let inside := l < imLevels r ∧ x < imW r l ∧ y < imH r l
    let white (v : FV) : Word := texResult (imTfmt r) [(v, 2 ^ 24)]
    (¬ inside → s.texLookup a c r fn ws = .ok ⟨(texBorder r).map white, 2 ^ 12 + l % 16 * 17, []⟩ s) ∧
    (inside → imLod r = false → ∀ bs s1, (s.texFeet r fn l ws).2.coRead a c (imVa r l x y) 2 (texShape (imTfmt r)).1 = .ok bs s1 →
      s.texLookup a c r fn ws =
        .ok ⟨(List.range 4).map fun i => white ((texChans (imTfmt r) bs).getD i (.fin false 0 0)), l % 16 * 17, []⟩ s1)) ∧
  (∀ (r : BitVec 320) (l x y : Nat),
    let page (pw ph : Nat) : Nat := imLp r l + y / ph * ((imW r l + pw - 1) / pw) + x / pw
    let at_ (n pw ph : Nat) : Nat := rbBase r + page pw ph * 65536 + (y % ph * pw + x % pw) * n
    imVa r l x y = match imTfmt r with | 4 => at_ 8 128 64 | 5 => at_ 16 64 64 | _ => at_ 4 128 128) ∧
  (∀ (S : Nat) (i : Int), 0 < S →
    (∃ k < S, wrapIndex 0 S i = some k ∧ ((k : Int) - i) % S = 0) ∧
    wrapIndex 1 S i = some (if i < 0 then 0 else if (S : Int) ≤ i then S - 1 else i.toNat) ∧
    wrapIndex 2 S i = (if 0 ≤ i ∧ i < S then some i.toNat else none) ∧
    wrapIndex 3 S (i + 2 * S) = wrapIndex 3 S i ∧ wrapIndex 3 S (-1 - i) = wrapIndex 3 S i ∧
    (0 ≤ i → i < S → wrapIndex 3 S i = some i.toNat)) ∧
  (∀ (r : BitVec 320) (l : Nat) (u v : Word) (bilinear : Bool), ((texFoot r bilinear false l u v).map Prod.snd).sum = 65536) ∧
  ∀ (t : Nat) (terms : List (FV × Nat)), (∀ e ∈ terms, ∃ n m x, e.1 = .fin n m x) →
    let q : Rat := (terms.map fun e => fvRat e.1 * e.2 / 2 ^ 24).sum / (if t = 3 then 255 else 1)
    q ≠ 0 → texResult t terms = extRound .rne (.fin q)

/-- R289: a fragment of a batch. -/
abbrev Fragment := Nat × Nat × Nat

/-- R289: FRAG releases its wave's places once SC is zero, starts its job where it is fresh, and hands out the next batch: at most 32 fragments
in their order, cut before a pixel it already holds; lanes beyond it have none, and an empty batch gives the job's end code. A job's
descriptor that is malformed ends it with code 1, one that R63 refuses with 2, one that faults with 3; that the descriptor and all vertices are read at once is the model's reading (log entry 56). -/
def Sys2Proof.Machine.FragmentsServed : Prop :=
  (∀ (b w : Nat) (s s1 : State) (o o1 : AsyncOp) (l : LaneOp) (j j1 : RJob), CarriedOut s b w o l → (s.wv b w).unitTurn o l.lane = true →
    o.kind = .frag →
    let i := Instr.asyncResultReturn b w o.id l.lane
    let a := whoOf s b w o l
    let c := s.ctxAt b w o.path
    let mine := isJob c.asid l.va.toNat
    let s0 := (s.modWv b w fun v => { v with frags := [] }).closeJobs a.core
    let held := (∃ f ∈ (s.wv b w).frags, f.places ≠ 0) ∧ (s.wv b w).sc ≠ 0
    (held → exec i s = .next s) ∧
    (¬ held → (s0.core a.core).rjobs.find? mine = some j → (if j.started then .ok j s0 else s0.startJob a c j) = .ok j1 s1 →
      (s1.wv b w).op? o.id = some o1 → b < s1.blocks.length → w < (s1.blk b).waves.length →
      ∃ t, exec i s = .next t ∧ ∃ batch rest : List Fragment, j1.todo = batch ++ rest ∧ batch.length ≤ 32 ∧ (batch.map Prod.fst).Nodup ∧
        (batch.length = 32 ∨ rest = [] ∨ ∃ f ∈ rest.head?, f.1 ∈ batch.map Prod.fst) ∧
        (t.wv b w).frags = batch.zipIdx.map (fun e =>
          { job := l.va.toNat, lane := e.2, pixel := e.1.1, tri := e.1.2.1, mask := e.1.2.2, places := e.1.2.2 }) ∧
        (t.wv b w).op? o.id = some { o1 with lanes := o1.lanes.map fun e => { e with
          st := .ready
          res := match batch[e.lane]? with
            | some f => [BitVec.ofNat 32 f.1, BitVec.ofNat 32 f.2.1, BitVec.ofNat 32 f.2.2]
            | none => [0xFFFFFFFF, if batch = [] then BitVec.ofNat 32 j1.endCode else 0, 0] } })) ∧
  (∀ (s : State) (a : Who) (c : Ctx) (j : RJob),
    let maps (va : Nat) : Prop := ∃ ia, c.map s .load (BitVec.ofNat 64 va) = .ok ia
    let ends (code : Nat) (s1 : State) : Prop := s.startJob a c j = .ok { j with started := true, endCode := code } s1
    (j.va % 64 ≠ 0 → ends 1 s) ∧ (j.va % 64 = 0 → ¬ maps j.va → ends 2 s) ∧
    (j.va % 64 = 0 → maps j.va →
      (∀ f ia s1, s.coRead a c j.va 3 64 = .fault f ia s1 → ends 3 s1) ∧
      ∀ bs s1, s.coRead a c j.va 3 64 = .ok bs s1 → rjOk (BitVec.ofNat 512 (leNat bs)) = false → ends 1 s1)) ∧
  ∀ (j : RJob) (k : Nat),
    (∀ f ∈ j.frags k, ∃ x y t, j.tri k = some t ∧ f = (y * 65536 + x, k, t.cover j.desc x y) ∧ f.2.2 ≠ 0 ∧
      fld j.desc 111 96 ≤ x ∧ x < fld j.desc 143 128 ∧ fld j.desc 127 112 ≤ y ∧ y < fld j.desc 159 144) ∧
    ((j.frags k).map Prod.fst).Pairwise (· < ·)

/-! ### What the shading cache carries out (chapter 13) -/

/-- R296, R301, R302: the answers of a query, from the object's record and the entries of its key. An object that cannot be read counts as none. -/
def Sys2Proof.Machine.QueryAnswers : Prop :=
  ∀ (s s1 : State) (w k : Nat) (obj : Option (BitVec 256)), s.object w (k % 2 ^ 24) = (obj, s1) →
    let r := (s.query w k).1
    let h := s1.shade
    let answer (status token va : Nat) : Prop := r.status = status ∧ r.token = token ∧ r.va = va
    let none_ := 0xFFFFFFFF
    (obj = none → answer 7 none_ 0 ∧ (s.query w k).2.shade = s1.shade) ∧
    ∀ o, obj = some o →
      let may := (w = obOwner o ∨ obShare o ≠ 0 ∧ (wrShareset (s1.world w).record).testBit (obShare o) = true) ∧ wrHeapva (s1.world w).record ≠ 0
      let room : Prop := ∃ i slot s2, h.way k = some i ∧ h.freeSlot = some slot ∧ s1.stageRoom o = (true, s2)
      (¬ may → answer 4 none_ 0) ∧
      (may → ∀ v, h.find k .valid = some v → v.2.epoch = obEpoch o → answer 0 none_ (s1.heapVA w v.2.slot) ∧ r.fmt = v.2.fmt) ∧
      (may → (∀ v, h.find k .valid = some v → v.2.epoch ≠ obEpoch o) →
        (∀ f, h.find k .inflight = some f →
          (∀ v, h.find k .valid = some v → answer 3 (h.token f.2) (s1.heapVA w v.2.slot)) ∧
          (h.find k .valid = none → answer 1 (h.token f.2) 0)) ∧
        (h.find k .inflight = none → h.find k .aborted ≠ none →
          (∀ v, h.find k .valid = some v → answer 3 none_ (s1.heapVA w v.2.slot)) ∧ (h.find k .valid = none → answer 6 none_ 0)) ∧
        (h.find k .inflight = none → h.find k .aborted = none → ¬ room → answer 5 none_ 0 ∧ (s.query w k).2.shade = s1.shade))

/-- R299, R301 to R303: a miss with room takes a way and the lowest free slot for a new INFLIGHT entry, and queues its job; with a stale entry the
answer is STALE with the token. A job that cannot be written aborts the entry, and the event is logged. -/
def Sys2Proof.Machine.QueryMisses : Prop :=
  ∀ (s s1 s2 : State) (w k i slot : Nat) (o : BitVec 256), s.object w (k % 2 ^ 24) = (some o, s1) → s1.mayRead w o = true →
    wrHeapva (s1.world w).record ≠ 0 → s1.shade.find k .inflight = none → s1.shade.find k .aborted = none →
    (∀ v, s1.shade.find k .valid = some v → v.2.epoch ≠ obEpoch o) →
    s1.shade.way k = some i → s1.shade.freeSlot = some slot → s1.stageRoom o = (true, s2) → s2.shade = s1.shade →
    let h := s1.shade
    let f : Tag := { key := k, st := .inflight, age := h.gen slot, epoch := obEpoch o, share := obShare o, slot, fmt := obTfmt o, pin := 0 }
    let tok := h.gen slot * 2 ^ 23 + slot
    let s3 := s2.modShade fun h => (h.evict i).setTag i (some f)
    let job := tileJob (obKernel o) (s2.heapVA (obOwner o) slot) w (obEpoch o) tok k
    (∀ b s4, s3.enqueueJob (obOwner o) (obSqia o) job = (.ok b, s4) →
      (h.find k .valid = none → (s.query w k).1 = { status := 2, token := tok }) ∧
      ∀ v, h.find k .valid = some v → (s.query w k).1.status = 3 ∧ (s.query w k).1.token = tok) ∧
    (∀ e s4, s3.enqueueJob (obOwner o) (obSqia o) job = (.error e, s4) → (s.query w k).1 = { status := 6 })

/-- R305 to R308: publishing, aborting and ticking. -/
def Sys2Proof.Machine.TagActions : Prop :=
  (∀ (s : State) (world tok i : Nat) (f : Tag), s.shade.live tok = some (i, f) → s.shade.tag i = some f →
    (let t := s.publish world tok
      let v := s.shade.find f.key .valid
      t.shade.tag i = some { f with st := .valid, age := 0, pin := match v with | some e => min e.2.pin 3 | none => 0 } ∧
      (∀ e, v = some e → t.shade.tag e.1 = none ∧ (e.2.slot, s.shade.frame) ∈ t.shade.quar) ∧
      t.shade.gen f.slot = (s.shade.gen f.slot + 1) % 256 ∧ t.shade.frame = s.shade.frame ∧
      ∀ c < 256, c < s.cores.length → (t.core c).notices = (s.core c).notices ++ [(true, tok)]) ∧
    (let t := s.abortToken world tok;
      t.shade.tag i = some { f with st := .aborted } ∧ (∀ k, k ≠ i → t.shade.tag k = s.shade.tag k) ∧
      t.shade.quar = (f.slot, s.shade.frame) :: s.shade.quar ∧ t.shade.gen f.slot = (s.shade.gen f.slot + 1) % 256 ∧
      ∀ c < 256, c < s.cores.length → (t.core c).notices = (s.core c).notices ++ [(false, tok)])) ∧
  ∀ h : Shading, (h.tags.map Prod.fst).Nodup →
    h.tick.frame = (h.frame + 1) % 2 ^ 32 ∧
    (∀ i, h.tick.tag i = match h.tag i with
      | none => none
      | some t => if t.st = .aborted then none else some (if t.st = .valid then { t with age := min (t.age + 1) 255 } else t)) ∧
    ∀ q, q ∈ h.tick.quar ↔ q ∈ h.quar ∧ h.tick.frame < q.2 + 2

/-- R307, R315 to R319: the answers of SHC and their effects. SCPUB, SCABORT and SCTICK act once; SCINV once for each handle; SCQ, SCPIN and
SCUNPIN for each lane; all in the order of R300. -/
def Sys2Proof.Machine.ShadingServed : Prop :=
  (∀ (b w : Nat) (s : State) (o : AsyncOp) (l : LaneOp), CarriedOut s b w o l → (s.wv b w).unitTurn o l.lane = true →
    s.shadeTurn (s.wv b w) o l = true →
    let i := Instr.asyncResultReturn b w o.id l.lane
    let world := (s.launchOf b).world
    let key := l.addr.toNat
    let c := s.ctxAt b w o.path
    let give (s1 : State) (p : LaneOp → Bool) (x : Nat) : State := s1.modOp b w o.id fun q =>
      { q with lanes := q.lanes.map fun e => if e.st == .pending && p e then { e with st := .ready, res := [BitVec.ofNat 32 x] } else e }
    (o.kind = .scq →
      let r := (s.query world key).1
      exec i s = .next (((s.query world key).2.modLane b w o.id l.lane fun e =>
        { e with st := .ready, res := [BitVec.ofNat 32 (r.status + 8 * r.fmt), BitVec.ofNat 32 r.token, BitVec.ofNat 32 r.va,
                                       BitVec.ofNat 32 (r.va / 2 ^ 32)] }).modOp b w o.id
        fun q => if r.status = 0 ∨ r.status = 3 then { q with phase := 1 } else q)) ∧
    (∀ e ∈ [(OpKind.scpub, true), (.scabort, false)], o.kind = e.1 →
      exec i s = .next (give (s.pubAbort b w key e.2).2 (fun _ => true) (s.pubAbort b w key e.2).1)) ∧
    (o.kind = .scinv →
      let x := s.advanceEpoch world (c.smode || c.shade) key
      exec i s = .next (give x.2 (fun e => e.addr == l.addr) x.1)) ∧
    (∀ e ∈ [(OpKind.scpin, true), (.scunpin, false)], o.kind = e.1 →
      exec i s = .next (give (s.pinTile world key e.2).2 (fun x => x.lane == l.lane) (s.pinTile world key e.2).1)) ∧
    (o.kind = .sctick → exec i s = .next ((s.modShade Shading.tick).modOp b w o.id fun q =>
      { q with lanes := q.lanes.map fun e => if e.st == .pending then { e with st := .ready } else e }))) ∧
  (∀ (s : State) (b w tok : Nat) (pub : Bool),
    let world := (s.launchOf b).world
    (s.shade.live tok = none → s.pubAbort b w tok pub = (1, s)) ∧
    ∀ i f obj s1, s.shade.live tok = some (i, f) → s.object world (f.key % 2 ^ 24) = (obj, s1) →
      (obj = none → s.pubAbort b w tok pub = (4, s1)) ∧
      ∀ o, obj = some o →
        (obOwner o ≠ world → s.pubAbort b w tok pub = (4, s1)) ∧
        (obOwner o = world → s.pubAbort b w tok pub =
          (0, (if pub then s1.publish world tok else s1.abortToken world tok).modWv b w fun v =>
            { v with tokens := v.tokens.filter (· != tok) }))) ∧
  (∀ (s s1 : State) (world handle : Nat) (allowed : Bool) (obj : Option (BitVec 256)), s.object world handle = (obj, s1) →
    let r := s.advanceEpoch world allowed handle
    (obj = none → r = (0x80000007, s1)) ∧
    ∀ o, obj = some o →
      let new := (obEpoch o + 1) % 2 ^ 16
      (obOwner o ≠ world ∨ allowed = false → r = (0x80000000, s1)) ∧
      (obOwner o = world → allowed = true → ∀ s2, s1.engWrite world (s1.shade.otia + 32 * handle) (natBytes 2 new) = (none, s2) →
        r.1 = new ∧ (new ≠ 0 → r.2 = s2) ∧ (new = 0 → r.2 = s2.modShade fun h => h.dropHandle handle))) ∧
  (∀ (s s1 : State) (world key : Nat) (obj : Option (BitVec 256)), s.object world (key % 2 ^ 24) = (obj, s1) →
    let up := s.pinTile world key true
    let down := s.pinTile world key false
    (obj = none → up = (0x80000007, s1) ∧ down = (0x80000007, s1)) ∧
    ∀ o, obj = some o →
      (s1.mayRead world o = false → up = (0x80000004, s1) ∧ down = (0x80000004, s1)) ∧
      (s1.mayRead world o = true →
        (s1.shade.find key .valid = none → up = (0x80000002, s1) ∧ down = (0x80000002, s1)) ∧
        ∀ e, s1.shade.find key .valid = some e →
          let set (n : Nat) : State := s1.modShade fun h => h.setTag e.1 (some { e.2 with pin := n })
          (e.2.pin = 3 → up = (0x80000008, s1)) ∧ (e.2.pin ≠ 3 → up = (e.2.pin + 1, set (e.2.pin + 1))) ∧
          (e.2.pin = 0 → down = (0x80000009, s1)) ∧ (e.2.pin ≠ 0 → down = (e.2.pin - 1, set (e.2.pin - 1))))) ∧
  QueryAnswers ∧ QueryMisses ∧ TagActions

/-! ### What PRIV and TASK words deliver -/

/-- R71, R87, R89: PIN raises the counts of all its granules, or of none; UNPIN lowers each that is not zero and counts the others; FRPOP gives its
lanes the words of the record at HEAD, and its ring's HEAD goes on. That a malformed ring counts as empty, and is logged, is the model's reading (log entry 33). -/
def Sys2Proof.Machine.PrivilegedServed : Prop :=
  (∀ (b w : Nat) (s : State) (o : AsyncOp) (l : LaneOp), CarriedOut s b w o l →
    let i := Instr.asyncResultReturn b w o.id l.lane
    let world := (s.launchOf b).world
    (∀ ctl, o.kind = .pin ctl →
      (∀ x s1, s.pinAll world (l.ia / 65536) (fld ctl 31 16) = (some x, s1) → exec i s = .next (s1.answer b w o.id (BitVec.ofNat 32 x))) ∧
      ∀ s1, s.pinAll world (l.ia / 65536) (fld ctl 31 16) = (none, s1) → exec i s = .next s1) ∧
    (∀ ctl, o.kind = .unpin ctl →
      let r := s.unpinAll (l.ia / 65536) (fld ctl 31 16)
      exec i s = .next (r.2.answer b w o.id (BitVec.ofNat 32 r.1))) ∧
    (o.kind = .frpop → ∀ o1, ((s.popFault world).2.wv b w).op? o.id = some o1 →
      ∃ t, exec i s = .next t ∧ (t.wv b w).op? o.id = some { o1 with lanes := o1.lanes.map fun e => { e with
        st := .ready
        res := match (s.popFault world).1 with
          | some bs => [if e.lane < 16 then BitVec.ofNat 32 (leNat ((bs.drop (4 * e.lane)).take 4)) else if e.lane = 16 then 1 else 0]
          | none => [0] } })) ∧
  (∀ (s : State) (world first n : Nat),
    let walks (i : Nat) (s : State) : Prop := ∃ s1 pa, s.translate world ((first + i) * 65536) false = (s1, .pa pa)
    (∀ s1, s.pinWalk world first 0 n = (0, s1) → s1.pinRoom ((List.range n).map (first + ·)) = true →
      ∃ t, s.pinAll world first n = (some 0, t) ∧ { t with pins := s1.pins } = s1 ∧
        ∀ g, t.pinCount g = s1.pinCount g + if first ≤ g ∧ g < first + n then 1 else 0) ∧
    (∀ s1, s.pinWalk world first 0 n = (0, s1) → s1.pinRoom ((List.range n).map (first + ·)) = false → s.pinAll world first n = (none, s1)) ∧
    (∀ x s1, x ≠ 0 → s.pinWalk world first 0 n = (x, s1) → s.pinAll world first n = (some x, s1)) ∧
    (0 < n → ∀ s1 pa, s.translate world (first * 65536) false = (s1, .pa pa) → s.pinCount first = 65535 → s1.pins = s.pins →
      (s.pinWalk world first 0 n).1 = 0x80000000) ∧
    (0 < n → ¬ walks 0 s → (s.pinWalk world first 0 n).1 = 0x40000000) ∧
    let r := s.unpinAll first n
    { r.2 with pins := s.pins } = s ∧ r.1 = ((List.range n).filter fun i => s.pinCount (first + i) = 0).length ∧
      ∀ g, r.2.pinCount g = if first ≤ g ∧ g < first + n then s.pinCount g - 1 else s.pinCount g) ∧
  ∀ (s s1 : State) (world : Nat) (bs : List Byte), s.engRead world (wrFria (s.world world).record) 64 = (.ok bs, s1) →
    let hia := wrFria (s.world world).record
    let h := ringHdr bs
    (h.ok 64 65536 4096 = true → h.tail = h.head → s.popFault world = (none, s1)) ∧
    (h.ok 64 65536 4096 = true → h.tail ≠ h.head → iaRegion (h.base + h.head % h.cap * 64) = world →
      ∀ r s2 s3, s1.engRead world (h.base + h.head % h.cap * 64) 64 = (.ok r, s2) →
        s2.engWrite world (hia + 12) (natBytes 4 (h.head + 1)) = (none, s3) → s.popFault world = (some r, s3)) ∧
    (h.ok 64 65536 4096 = false → s.popFault world = (none, s1.log 1 none none world hia))

/-- R386, R387: TLAUNCH of a record submits it and answers 0, or 3 with the code of R366, READ where the record cannot be read; TDEC makes its arrival,
whose outcome is its answer; TSTAT gives GEN, STATUS and KIND of its object and the launches that count on it, up to 63. What TSTAT gives of an object
that cannot be read is free (notes/assumptions/25.md). -/
def Sys2Proof.Machine.TasksServed : Prop :=
  ∀ (b w : Nat) (s s1 : State) (o : AsyncOp) (l : LaneOp), CarriedOut s b w o l → o.phase = 0 →
    let i := Instr.asyncResultReturn b w o.id l.lane
    let me := s.launchOf b
    let asid := recAsid me.record
    (o.kind = .tlaunch →
      (∀ f, s.cpRead asid [.load] l.va.toNat 256 = (.error f, s1) →
        exec i s = .next ((s1.log 6 none none me.world l.va.toNat).answer b w o.id (3 + 4 * 256))) ∧
      ∀ bs, s.cpRead asid [.load] l.va.toNat 256 = (.ok bs, s1) →
        let r := s1.submit me.world l.va (BitVec.ofNat 2048 (leNat bs)) me.prio true none
        exec i s = .next (r.2.answer b w o.id (if r.1 = 0 then 0 else BitVec.ofNat 32 (3 + r.1 * 256)))) ∧
    (∀ gen, o.kind = .tdec gen →
      ∃ t, exec i s = .next t ∧
        t.arrivals = s.arrivals ++ [{ world := me.world, asid, va := l.va.toNat, gen, status := 0, launch := (s.blk b).launch, src := .tdec b w o.id }] ∧
        (t.wv b w).op? o.id = some { o with phase := 1 } ∧ t.launches = s.launches ∧ t.mem = s.mem) ∧
    (o.kind = .tstat → ∀ bs, s.engRead me.world l.ia 32 = (.ok bs, s1) →
      let x := counterOf (BitVec.ofNat 256 (leNat bs))
      let counts (y : Launch) : Bool := (y.st == .ready || y.st == .pending) && recAsid y.record == asid && y.chain.contains l.va.toNat
      exec i s = .next (s1.answer b w o.id
        (BitVec.ofNat 32 (x.gen + x.status * 2 ^ 16 + x.kind * 2 ^ 24 + min 63 ((s.launches.filter counts).length) * 2 ^ 26))))

/-- R64, R66, R87, R151, R179, R262, R282 to R289, R301 to R319, R386, R387: what the local stores, the co-processors, the shading cache, the translators
and the command processor deliver to the lanes they serve. -/
def Obligations.UnitOperationsDeliver : Prop :=
  LocalServed ∧ LocalBytes ∧ StackServed ∧ TraversalServed ∧ TextureServed ∧ FragmentsServed ∧ ShadingServed ∧ PrivilegedServed ∧ TasksServed
end

