-- ==== Sys2Proof/Laws/Maps.lean ====
section
/-! SUPPORT. The laws of the canonical maps and of memory: what a read gives after a write, and that every memory
operation keeps the canonical form. -/

namespace Sys2Proof.Machine

open Sys2Proof

/-! ### Maps -/

@[simp] theorem smap_get_nil {α : Type} (d : α) (k : Nat) : SMap.get d [] k = d := rfl

theorem smap_get_cons {α : Type} (d : α) (e : Nat × α) (m : SMap α) (k : Nat) :
    SMap.get d (e :: m) k = if e.1 = k then e.2 else SMap.get d m k := by
  by_cases h : e.1 = k <;> simp [SMap.get, h]

theorem smap_get_ins {α : Type} (d : α) (k : Nat) (v : α) (m : SMap α) (hm : ∀ e ∈ m, e.1 ≠ k) (k' : Nat) :
    SMap.get d (SMap.ins k v m) k' = if k' = k then v else SMap.get d m k' := by
  induction m with
  | nil => simp [SMap.ins, smap_get_cons, eq_comm (a := k)]
  | cons e t ih =>
    have ih := ih fun x hx => hm x (List.mem_cons_of_mem _ hx)
    have he : e.1 ≠ k := hm e (List.mem_cons_self ..)
    simp only [SMap.ins]
    split
    · simp [smap_get_cons, eq_comm (a := k)]
    · rw [smap_get_cons, smap_get_cons, ih]
      by_cases h : k' = k
      · subst h; simp [he]
      · simp [h]

theorem smap_get_filter {α : Type} (d : α) (k k' : Nat) (m : SMap α) :
    SMap.get d (m.filter fun e => e.1 != k) k' = if k' = k then d else SMap.get d m k' := by
  induction m with
  | nil => simp
  | cons e t ih =>
    by_cases h : e.1 = k
    · subst h
      simp only [List.filter, bne_self_eq_false, ih, smap_get_cons]
      by_cases h' : k' = e.1
      · simp [h']
      · simp [h', Ne.symm h']
    · have : (e.1 != k) = true := by simpa using h
      simp only [List.filter, this, smap_get_cons, ih]
      by_cases h' : k' = k
      · subst h'; simp [h]
      · simp [h']

/-- A read after a write (the map need not be canonical). -/
theorem smap_get_put {α : Type} [DecidableEq α] (d : α) (k : Nat) (v : α) (m : SMap α) (k' : Nat) :
    SMap.get d (SMap.put d m k v) k' = if k' = k then v else SMap.get d m k' := by
  unfold SMap.put
  by_cases hv : v = d
  · subst hv; simp [smap_get_filter]
  · simp only [hv, if_false]
    rw [smap_get_ins _ _ _ _ (by simp), smap_get_filter]
    by_cases h : k' = k <;> simp [h]

theorem mem_smap_ins {α : Type} (k : Nat) (v : α) (m : SMap α) (e : Nat × α) :
    e ∈ SMap.ins k v m ↔ e = (k, v) ∨ e ∈ m := by
  induction m with
  | nil => simp [SMap.ins]
  | cons x t ih =>
    simp only [SMap.ins]
    split
    · simp
    · simp only [List.mem_cons, ih]; tauto

theorem smap_ins_sorted {α : Type} (k : Nat) (v : α) (m : SMap α) (h : (m.map Prod.fst).Pairwise (· < ·))
    (hm : ∀ e ∈ m, e.1 ≠ k) : ((SMap.ins k v m).map Prod.fst).Pairwise (· < ·) := by
  induction m with
  | nil => simp [SMap.ins]
  | cons e t ih =>
    have he : e.1 ≠ k := hm e (List.mem_cons_self ..)
    simp only [SMap.ins]
    rw [List.map_cons, List.pairwise_cons] at h
    split
    · rename_i hk
      simp only [List.map_cons, List.pairwise_cons]
      refine ⟨?_, h⟩
      intro a ha
      rcases List.mem_cons.1 ha with rfl | ha
      · exact hk
      · exact lt_trans hk (h.1 a ha)
    · simp only [List.map_cons, List.pairwise_cons]
      refine ⟨?_, ih h.2 fun x hx => hm x (List.mem_cons_of_mem _ hx)⟩
      intro a ha
      obtain ⟨x, hx, rfl⟩ := List.mem_map.1 ha
      rcases (mem_smap_ins k v t x).1 hx with rfl | hx
      · simp only; omega
      · exact h.1 _ (List.mem_map.2 ⟨x, hx, rfl⟩)

/-- Writing keeps the canonical form. -/
theorem smap_put_wf {α : Type} [DecidableEq α] (d : α) (m : SMap α) (k : Nat) (v : α) (h : SMap.wf d m = true) :
    SMap.wf d (SMap.put d m k v) = true := by
  simp only [SMap.wf, Bool.and_eq_true, decide_eq_true_eq, List.all_eq_true] at h ⊢
  obtain ⟨hs, ha⟩ := h
  have hf : ((m.filter fun e => e.1 != k).map Prod.fst).Pairwise (· < ·) :=
    List.Pairwise.sublist (List.Sublist.map _ List.filter_sublist) hs
  unfold SMap.put
  by_cases hv : v = d
  · simp only [hv, if_true]
    exact ⟨hf, fun e he => ha e (List.mem_filter.1 he).1⟩
  · simp only [hv, if_false]
    refine ⟨smap_ins_sorted _ _ _ hf (by simp), ?_⟩
    intro e he
    rcases (mem_smap_ins _ _ _ _).1 he with rfl | he
    · exact hv
    · exact ha e (List.mem_filter.1 he).1

/-! ### Memory -/

theorem memByte_memSet (m : List Host.Cell) (a : Nat) (b : Byte) (a' : Nat) :
    memByte (memSet m a b) a' = if a' = a then b else memByte m a' := smap_get_put ..

/-- Every write of a byte keeps memory canonical. -/
theorem memSet_wf (m : List Host.Cell) (a : Nat) (b : Byte) (h : Memory.wf m) : Memory.wf (memSet m a b) :=
  smap_put_wf _ _ _ _ h

theorem foldl_memSet_wf {β : Type} (l : List β) (f : β → Nat) (g : β → Byte) (m : List Host.Cell) (h : Memory.wf m) :
    Memory.wf (l.foldl (fun m x => memSet m (f x) (g x)) m) := by
  induction l generalizing m with
  | nil => exact h
  | cons x t ih => exact ih _ (memSet_wf _ _ _ h)

/-- Every write of consecutive bytes keeps memory canonical. -/
theorem memPut_wf (m : List Host.Cell) (a : Nat) (bs : List Byte) (h : Memory.wf m) : Memory.wf (memPut m a bs) :=
  foldl_memSet_wf _ _ _ _ h

theorem memByte_memPut_aux (bs : List Byte) (m : List Host.Cell) (a k a' : Nat) :
    memByte ((bs.zipIdx k).foldl (fun m e => memSet m (a + e.2) e.1) m) a' =
      if a + k ≤ a' ∧ a' < a + k + bs.length then bs.getD (a' - a - k) 0 else memByte m a' := by
  induction bs generalizing m k with
  | nil => simp
  | cons b t ih =>
    simp only [List.zipIdx_cons, List.foldl_cons, ih, memByte_memSet, List.length_cons]
    by_cases h1 : a + (k + 1) ≤ a' ∧ a' < a + (k + 1) + t.length
    · have e : a' - a - k = (a' - a - (k + 1)) + 1 := by omega
      rw [if_pos h1, if_pos (by omega), e, List.getD_cons_succ]
    · rw [if_neg h1]
      by_cases h2 : a' = a + k
      · subst h2; simp
      · rw [if_neg h2, if_neg (by omega)]

/-- A byte of memory after a write of consecutive bytes. -/
theorem memByte_memPut (m : List Host.Cell) (a : Nat) (bs : List Byte) (a' : Nat) :
    memByte (memPut m a bs) a' = if a ≤ a' ∧ a' < a + bs.length then bs.getD (a' - a) 0 else memByte m a' := by
  simpa [memPut] using memByte_memPut_aux bs m a 0 a'

end Sys2Proof.Machine
end

