-- ==== Sys2Proof/Laws/State.lean ====
section
/-! SUPPORT. One lemma for each field of the state that an update of one part leaves as it was, and what reading that
part gives after its update. -/

namespace Sys2Proof.Machine

open Sys2Proof

/-! ### modBlk -/

@[simp] theorem State.modBlk_clk (s : State) (b : Nat) (f : Block → Block) : (s.modBlk b f).clk = s.clk := rfl
@[simp] theorem State.modBlk_mem (s : State) (b : Nat) (f : Block → Block) : (s.modBlk b f).mem = s.mem := rfl
@[simp] theorem State.modBlk_badLines (s : State) (b : Nat) (f : Block → Block) : (s.modBlk b f).badLines = s.badLines := rfl
@[simp] theorem State.modBlk_keys (s : State) (b : Nat) (f : Block → Block) : (s.modBlk b f).keys = s.keys := rfl
@[simp] theorem State.modBlk_atomAt (s : State) (b : Nat) (f : Block → Block) : (s.modBlk b f).atomAt = s.atomAt := rfl
@[simp] theorem State.modBlk_l2 (s : State) (b : Nat) (f : Block → Block) : (s.modBlk b f).l2 = s.l2 := rfl
@[simp] theorem State.modBlk_gatedWays (s : State) (b : Nat) (f : Block → Block) : (s.modBlk b f).gatedWays = s.gatedWays := rfl
@[simp] theorem State.modBlk_wakingWays (s : State) (b : Nat) (f : Block → Block) : (s.modBlk b f).wakingWays = s.wakingWays := rfl
@[simp] theorem State.modBlk_tlb (s : State) (b : Nat) (f : Block → Block) : (s.modBlk b f).tlb = s.tlb := rfl
@[simp] theorem State.modBlk_walks (s : State) (b : Nat) (f : Block → Block) : (s.modBlk b f).walks = s.walks := rfl
@[simp] theorem State.modBlk_pins (s : State) (b : Nat) (f : Block → Block) : (s.modBlk b f).pins = s.pins := rfl
@[simp] theorem State.modBlk_owned (s : State) (b : Nat) (f : Block → Block) : (s.modBlk b f).owned = s.owned := rfl
@[simp] theorem State.modBlk_ownWait (s : State) (b : Nat) (f : Block → Block) : (s.modBlk b f).ownWait = s.ownWait := rfl
@[simp] theorem State.modBlk_wakeWait (s : State) (b : Nat) (f : Block → Block) : (s.modBlk b f).wakeWait = s.wakeWait := rfl
@[simp] theorem State.modBlk_worlds (s : State) (b : Nat) (f : Block → Block) : (s.modBlk b f).worlds = s.worlds := rfl
@[simp] theorem State.modBlk_sharedRoot (s : State) (b : Nat) (f : Block → Block) : (s.modBlk b f).sharedRoot = s.sharedRoot := rfl
@[simp] theorem State.modBlk_sharedGrant (s : State) (b : Nat) (f : Block → Block) : (s.modBlk b f).sharedGrant = s.sharedGrant := rfl
@[simp] theorem State.modBlk_sharedWays (s : State) (b : Nat) (f : Block → Block) : (s.modBlk b f).sharedWays = s.sharedWays := rfl
@[simp] theorem State.modBlk_slots (s : State) (b : Nat) (f : Block → Block) : (s.modBlk b f).slots = s.slots := rfl
@[simp] theorem State.modBlk_slotEntry (s : State) (b : Nat) (f : Block → Block) : (s.modBlk b f).slotEntry = s.slotEntry := rfl
@[simp] theorem State.modBlk_slotStart (s : State) (b : Nat) (f : Block → Block) : (s.modBlk b f).slotStart = s.slotStart := rfl
@[simp] theorem State.modBlk_slotsNext (s : State) (b : Nat) (f : Block → Block) : (s.modBlk b f).slotsNext = s.slotsNext := rfl
@[simp] theorem State.modBlk_ridges (s : State) (b : Nat) (f : Block → Block) : (s.modBlk b f).ridges = s.ridges := rfl
@[simp] theorem State.modBlk_cores (s : State) (b : Nat) (f : Block → Block) : (s.modBlk b f).cores = s.cores := rfl
@[simp] theorem State.modBlk_launches (s : State) (b : Nat) (f : Block → Block) : (s.modBlk b f).launches = s.launches := rfl
@[simp] theorem State.modBlk_clusters (s : State) (b : Nat) (f : Block → Block) : (s.modBlk b f).clusters = s.clusters := rfl
@[simp] theorem State.modBlk_copies (s : State) (b : Nat) (f : Block → Block) : (s.modBlk b f).copies = s.copies := rfl
@[simp] theorem State.modBlk_arrivals (s : State) (b : Nat) (f : Block → Block) : (s.modBlk b f).arrivals = s.arrivals := rfl
@[simp] theorem State.modBlk_cancels (s : State) (b : Nat) (f : Block → Block) : (s.modBlk b f).cancels = s.cancels := rfl
@[simp] theorem State.modBlk_hostq (s : State) (b : Nat) (f : Block → Block) : (s.modBlk b f).hostq = s.hostq := rfl
@[simp] theorem State.modBlk_tdi (s : State) (b : Nat) (f : Block → Block) : (s.modBlk b f).tdi = s.tdi := rfl
@[simp] theorem State.modBlk_routes (s : State) (b : Nat) (f : Block → Block) : (s.modBlk b f).routes = s.routes := rfl
@[simp] theorem State.modBlk_paired (s : State) (b : Nat) (f : Block → Block) : (s.modBlk b f).paired = s.paired := rfl
@[simp] theorem State.modBlk_flitTries (s : State) (b : Nat) (f : Block → Block) : (s.modBlk b f).flitTries = s.flitTries := rfl
@[simp] theorem State.modBlk_flitNow (s : State) (b : Nat) (f : Block → Block) : (s.modBlk b f).flitNow = s.flitNow := rfl
@[simp] theorem State.modBlk_casTries (s : State) (b : Nat) (f : Block → Block) : (s.modBlk b f).casTries = s.casTries := rfl
@[simp] theorem State.modBlk_bootStep (s : State) (b : Nat) (f : Block → Block) : (s.modBlk b f).bootStep = s.bootStep := rfl
@[simp] theorem State.modBlk_bootCode (s : State) (b : Nat) (f : Block → Block) : (s.modBlk b f).bootCode = s.bootCode := rfl
@[simp] theorem State.modBlk_bootRecord (s : State) (b : Nat) (f : Block → Block) : (s.modBlk b f).bootRecord = s.bootRecord := rfl
@[simp] theorem State.modBlk_powered (s : State) (b : Nat) (f : Block → Block) : (s.modBlk b f).powered = s.powered := rfl
@[simp] theorem State.modBlk_events (s : State) (b : Nat) (f : Block → Block) : (s.modBlk b f).events = s.events := rfl
@[simp] theorem State.modBlk_eventSeq (s : State) (b : Nat) (f : Block → Block) : (s.modBlk b f).eventSeq = s.eventSeq := rfl
@[simp] theorem State.modBlk_frozen (s : State) (b : Nat) (f : Block → Block) : (s.modBlk b f).frozen = s.frozen := rfl
@[simp] theorem State.modBlk_meas (s : State) (b : Nat) (f : Block → Block) : (s.modBlk b f).meas = s.meas := rfl
@[simp] theorem State.modBlk_shade (s : State) (b : Nat) (f : Block → Block) : (s.modBlk b f).shade = s.shade := rfl
@[simp] theorem State.modBlk_images (s : State) (b : Nat) (f : Block → Block) : (s.modBlk b f).images = s.images := rfl
@[simp] theorem State.modBlk_probes (s : State) (b : Nat) (f : Block → Block) : (s.modBlk b f).probes = s.probes := rfl
@[simp] theorem State.modBlk_thermal (s : State) (b : Nat) (f : Block → Block) : (s.modBlk b f).thermal = s.thermal := rfl
@[simp] theorem State.modBlk_reply (s : State) (b : Nat) (f : Block → Block) : (s.modBlk b f).reply = s.reply := rfl
@[simp] theorem State.modBlk_scPlaces (s : State) (b : Nat) (f : Block → Block) : (s.modBlk b f).scPlaces = s.scPlaces := rfl
@[simp] theorem State.modBlk_agenda (s : State) (b : Nat) (f : Block → Block) : (s.modBlk b f).agenda = s.agenda := rfl
@[simp] theorem State.modBlk_cur (s : State) (b : Nat) (f : Block → Block) : (s.modBlk b f).cur = s.cur := rfl
@[simp] theorem State.modBlk_free (s : State) (b : Nat) (f : Block → Block) : (s.modBlk b f).free = s.free := rfl

/-! ### modWv -/

@[simp] theorem State.modWv_clk (s : State) (b w : Nat) (f : Wave → Wave) : (s.modWv b w f).clk = s.clk := rfl
@[simp] theorem State.modWv_mem (s : State) (b w : Nat) (f : Wave → Wave) : (s.modWv b w f).mem = s.mem := rfl
@[simp] theorem State.modWv_badLines (s : State) (b w : Nat) (f : Wave → Wave) : (s.modWv b w f).badLines = s.badLines := rfl
@[simp] theorem State.modWv_keys (s : State) (b w : Nat) (f : Wave → Wave) : (s.modWv b w f).keys = s.keys := rfl
@[simp] theorem State.modWv_atomAt (s : State) (b w : Nat) (f : Wave → Wave) : (s.modWv b w f).atomAt = s.atomAt := rfl
@[simp] theorem State.modWv_l2 (s : State) (b w : Nat) (f : Wave → Wave) : (s.modWv b w f).l2 = s.l2 := rfl
@[simp] theorem State.modWv_gatedWays (s : State) (b w : Nat) (f : Wave → Wave) : (s.modWv b w f).gatedWays = s.gatedWays := rfl
@[simp] theorem State.modWv_wakingWays (s : State) (b w : Nat) (f : Wave → Wave) : (s.modWv b w f).wakingWays = s.wakingWays := rfl
@[simp] theorem State.modWv_tlb (s : State) (b w : Nat) (f : Wave → Wave) : (s.modWv b w f).tlb = s.tlb := rfl
@[simp] theorem State.modWv_walks (s : State) (b w : Nat) (f : Wave → Wave) : (s.modWv b w f).walks = s.walks := rfl
@[simp] theorem State.modWv_pins (s : State) (b w : Nat) (f : Wave → Wave) : (s.modWv b w f).pins = s.pins := rfl
@[simp] theorem State.modWv_owned (s : State) (b w : Nat) (f : Wave → Wave) : (s.modWv b w f).owned = s.owned := rfl
@[simp] theorem State.modWv_ownWait (s : State) (b w : Nat) (f : Wave → Wave) : (s.modWv b w f).ownWait = s.ownWait := rfl
@[simp] theorem State.modWv_wakeWait (s : State) (b w : Nat) (f : Wave → Wave) : (s.modWv b w f).wakeWait = s.wakeWait := rfl
@[simp] theorem State.modWv_worlds (s : State) (b w : Nat) (f : Wave → Wave) : (s.modWv b w f).worlds = s.worlds := rfl
@[simp] theorem State.modWv_sharedRoot (s : State) (b w : Nat) (f : Wave → Wave) : (s.modWv b w f).sharedRoot = s.sharedRoot := rfl
@[simp] theorem State.modWv_sharedGrant (s : State) (b w : Nat) (f : Wave → Wave) : (s.modWv b w f).sharedGrant = s.sharedGrant := rfl
@[simp] theorem State.modWv_sharedWays (s : State) (b w : Nat) (f : Wave → Wave) : (s.modWv b w f).sharedWays = s.sharedWays := rfl
@[simp] theorem State.modWv_slots (s : State) (b w : Nat) (f : Wave → Wave) : (s.modWv b w f).slots = s.slots := rfl
@[simp] theorem State.modWv_slotEntry (s : State) (b w : Nat) (f : Wave → Wave) : (s.modWv b w f).slotEntry = s.slotEntry := rfl
@[simp] theorem State.modWv_slotStart (s : State) (b w : Nat) (f : Wave → Wave) : (s.modWv b w f).slotStart = s.slotStart := rfl
@[simp] theorem State.modWv_slotsNext (s : State) (b w : Nat) (f : Wave → Wave) : (s.modWv b w f).slotsNext = s.slotsNext := rfl
@[simp] theorem State.modWv_ridges (s : State) (b w : Nat) (f : Wave → Wave) : (s.modWv b w f).ridges = s.ridges := rfl
@[simp] theorem State.modWv_cores (s : State) (b w : Nat) (f : Wave → Wave) : (s.modWv b w f).cores = s.cores := rfl
@[simp] theorem State.modWv_launches (s : State) (b w : Nat) (f : Wave → Wave) : (s.modWv b w f).launches = s.launches := rfl
@[simp] theorem State.modWv_clusters (s : State) (b w : Nat) (f : Wave → Wave) : (s.modWv b w f).clusters = s.clusters := rfl
@[simp] theorem State.modWv_copies (s : State) (b w : Nat) (f : Wave → Wave) : (s.modWv b w f).copies = s.copies := rfl
@[simp] theorem State.modWv_arrivals (s : State) (b w : Nat) (f : Wave → Wave) : (s.modWv b w f).arrivals = s.arrivals := rfl
@[simp] theorem State.modWv_cancels (s : State) (b w : Nat) (f : Wave → Wave) : (s.modWv b w f).cancels = s.cancels := rfl
@[simp] theorem State.modWv_hostq (s : State) (b w : Nat) (f : Wave → Wave) : (s.modWv b w f).hostq = s.hostq := rfl
@[simp] theorem State.modWv_tdi (s : State) (b w : Nat) (f : Wave → Wave) : (s.modWv b w f).tdi = s.tdi := rfl
@[simp] theorem State.modWv_routes (s : State) (b w : Nat) (f : Wave → Wave) : (s.modWv b w f).routes = s.routes := rfl
@[simp] theorem State.modWv_paired (s : State) (b w : Nat) (f : Wave → Wave) : (s.modWv b w f).paired = s.paired := rfl
@[simp] theorem State.modWv_flitTries (s : State) (b w : Nat) (f : Wave → Wave) : (s.modWv b w f).flitTries = s.flitTries := rfl
@[simp] theorem State.modWv_flitNow (s : State) (b w : Nat) (f : Wave → Wave) : (s.modWv b w f).flitNow = s.flitNow := rfl
@[simp] theorem State.modWv_casTries (s : State) (b w : Nat) (f : Wave → Wave) : (s.modWv b w f).casTries = s.casTries := rfl
@[simp] theorem State.modWv_bootStep (s : State) (b w : Nat) (f : Wave → Wave) : (s.modWv b w f).bootStep = s.bootStep := rfl
@[simp] theorem State.modWv_bootCode (s : State) (b w : Nat) (f : Wave → Wave) : (s.modWv b w f).bootCode = s.bootCode := rfl
@[simp] theorem State.modWv_bootRecord (s : State) (b w : Nat) (f : Wave → Wave) : (s.modWv b w f).bootRecord = s.bootRecord := rfl
@[simp] theorem State.modWv_powered (s : State) (b w : Nat) (f : Wave → Wave) : (s.modWv b w f).powered = s.powered := rfl
@[simp] theorem State.modWv_events (s : State) (b w : Nat) (f : Wave → Wave) : (s.modWv b w f).events = s.events := rfl
@[simp] theorem State.modWv_eventSeq (s : State) (b w : Nat) (f : Wave → Wave) : (s.modWv b w f).eventSeq = s.eventSeq := rfl
@[simp] theorem State.modWv_frozen (s : State) (b w : Nat) (f : Wave → Wave) : (s.modWv b w f).frozen = s.frozen := rfl
@[simp] theorem State.modWv_meas (s : State) (b w : Nat) (f : Wave → Wave) : (s.modWv b w f).meas = s.meas := rfl
@[simp] theorem State.modWv_shade (s : State) (b w : Nat) (f : Wave → Wave) : (s.modWv b w f).shade = s.shade := rfl
@[simp] theorem State.modWv_images (s : State) (b w : Nat) (f : Wave → Wave) : (s.modWv b w f).images = s.images := rfl
@[simp] theorem State.modWv_probes (s : State) (b w : Nat) (f : Wave → Wave) : (s.modWv b w f).probes = s.probes := rfl
@[simp] theorem State.modWv_thermal (s : State) (b w : Nat) (f : Wave → Wave) : (s.modWv b w f).thermal = s.thermal := rfl
@[simp] theorem State.modWv_reply (s : State) (b w : Nat) (f : Wave → Wave) : (s.modWv b w f).reply = s.reply := rfl
@[simp] theorem State.modWv_scPlaces (s : State) (b w : Nat) (f : Wave → Wave) : (s.modWv b w f).scPlaces = s.scPlaces := rfl
@[simp] theorem State.modWv_agenda (s : State) (b w : Nat) (f : Wave → Wave) : (s.modWv b w f).agenda = s.agenda := rfl
@[simp] theorem State.modWv_cur (s : State) (b w : Nat) (f : Wave → Wave) : (s.modWv b w f).cur = s.cur := rfl
@[simp] theorem State.modWv_free (s : State) (b w : Nat) (f : Wave → Wave) : (s.modWv b w f).free = s.free := rfl

/-! ### modPath -/

@[simp] theorem State.modPath_clk (s : State) (b w p : Nat) (f : Path → Path) : (s.modPath b w p f).clk = s.clk := rfl
@[simp] theorem State.modPath_mem (s : State) (b w p : Nat) (f : Path → Path) : (s.modPath b w p f).mem = s.mem := rfl
@[simp] theorem State.modPath_badLines (s : State) (b w p : Nat) (f : Path → Path) : (s.modPath b w p f).badLines = s.badLines := rfl
@[simp] theorem State.modPath_keys (s : State) (b w p : Nat) (f : Path → Path) : (s.modPath b w p f).keys = s.keys := rfl
@[simp] theorem State.modPath_atomAt (s : State) (b w p : Nat) (f : Path → Path) : (s.modPath b w p f).atomAt = s.atomAt := rfl
@[simp] theorem State.modPath_l2 (s : State) (b w p : Nat) (f : Path → Path) : (s.modPath b w p f).l2 = s.l2 := rfl
@[simp] theorem State.modPath_gatedWays (s : State) (b w p : Nat) (f : Path → Path) : (s.modPath b w p f).gatedWays = s.gatedWays := rfl
@[simp] theorem State.modPath_wakingWays (s : State) (b w p : Nat) (f : Path → Path) : (s.modPath b w p f).wakingWays = s.wakingWays := rfl
@[simp] theorem State.modPath_tlb (s : State) (b w p : Nat) (f : Path → Path) : (s.modPath b w p f).tlb = s.tlb := rfl
@[simp] theorem State.modPath_walks (s : State) (b w p : Nat) (f : Path → Path) : (s.modPath b w p f).walks = s.walks := rfl
@[simp] theorem State.modPath_pins (s : State) (b w p : Nat) (f : Path → Path) : (s.modPath b w p f).pins = s.pins := rfl
@[simp] theorem State.modPath_owned (s : State) (b w p : Nat) (f : Path → Path) : (s.modPath b w p f).owned = s.owned := rfl
@[simp] theorem State.modPath_ownWait (s : State) (b w p : Nat) (f : Path → Path) : (s.modPath b w p f).ownWait = s.ownWait := rfl
@[simp] theorem State.modPath_wakeWait (s : State) (b w p : Nat) (f : Path → Path) : (s.modPath b w p f).wakeWait = s.wakeWait := rfl
@[simp] theorem State.modPath_worlds (s : State) (b w p : Nat) (f : Path → Path) : (s.modPath b w p f).worlds = s.worlds := rfl
@[simp] theorem State.modPath_sharedRoot (s : State) (b w p : Nat) (f : Path → Path) : (s.modPath b w p f).sharedRoot = s.sharedRoot := rfl
@[simp] theorem State.modPath_sharedGrant (s : State) (b w p : Nat) (f : Path → Path) : (s.modPath b w p f).sharedGrant = s.sharedGrant := rfl
@[simp] theorem State.modPath_sharedWays (s : State) (b w p : Nat) (f : Path → Path) : (s.modPath b w p f).sharedWays = s.sharedWays := rfl
@[simp] theorem State.modPath_slots (s : State) (b w p : Nat) (f : Path → Path) : (s.modPath b w p f).slots = s.slots := rfl
@[simp] theorem State.modPath_slotEntry (s : State) (b w p : Nat) (f : Path → Path) : (s.modPath b w p f).slotEntry = s.slotEntry := rfl
@[simp] theorem State.modPath_slotStart (s : State) (b w p : Nat) (f : Path → Path) : (s.modPath b w p f).slotStart = s.slotStart := rfl
@[simp] theorem State.modPath_slotsNext (s : State) (b w p : Nat) (f : Path → Path) : (s.modPath b w p f).slotsNext = s.slotsNext := rfl
@[simp] theorem State.modPath_ridges (s : State) (b w p : Nat) (f : Path → Path) : (s.modPath b w p f).ridges = s.ridges := rfl
@[simp] theorem State.modPath_cores (s : State) (b w p : Nat) (f : Path → Path) : (s.modPath b w p f).cores = s.cores := rfl
@[simp] theorem State.modPath_launches (s : State) (b w p : Nat) (f : Path → Path) : (s.modPath b w p f).launches = s.launches := rfl
@[simp] theorem State.modPath_clusters (s : State) (b w p : Nat) (f : Path → Path) : (s.modPath b w p f).clusters = s.clusters := rfl
@[simp] theorem State.modPath_copies (s : State) (b w p : Nat) (f : Path → Path) : (s.modPath b w p f).copies = s.copies := rfl
@[simp] theorem State.modPath_arrivals (s : State) (b w p : Nat) (f : Path → Path) : (s.modPath b w p f).arrivals = s.arrivals := rfl
@[simp] theorem State.modPath_cancels (s : State) (b w p : Nat) (f : Path → Path) : (s.modPath b w p f).cancels = s.cancels := rfl
@[simp] theorem State.modPath_hostq (s : State) (b w p : Nat) (f : Path → Path) : (s.modPath b w p f).hostq = s.hostq := rfl
@[simp] theorem State.modPath_tdi (s : State) (b w p : Nat) (f : Path → Path) : (s.modPath b w p f).tdi = s.tdi := rfl
@[simp] theorem State.modPath_routes (s : State) (b w p : Nat) (f : Path → Path) : (s.modPath b w p f).routes = s.routes := rfl
@[simp] theorem State.modPath_paired (s : State) (b w p : Nat) (f : Path → Path) : (s.modPath b w p f).paired = s.paired := rfl
@[simp] theorem State.modPath_flitTries (s : State) (b w p : Nat) (f : Path → Path) : (s.modPath b w p f).flitTries = s.flitTries := rfl
@[simp] theorem State.modPath_flitNow (s : State) (b w p : Nat) (f : Path → Path) : (s.modPath b w p f).flitNow = s.flitNow := rfl
@[simp] theorem State.modPath_casTries (s : State) (b w p : Nat) (f : Path → Path) : (s.modPath b w p f).casTries = s.casTries := rfl
@[simp] theorem State.modPath_bootStep (s : State) (b w p : Nat) (f : Path → Path) : (s.modPath b w p f).bootStep = s.bootStep := rfl
@[simp] theorem State.modPath_bootCode (s : State) (b w p : Nat) (f : Path → Path) : (s.modPath b w p f).bootCode = s.bootCode := rfl
@[simp] theorem State.modPath_bootRecord (s : State) (b w p : Nat) (f : Path → Path) : (s.modPath b w p f).bootRecord = s.bootRecord := rfl
@[simp] theorem State.modPath_powered (s : State) (b w p : Nat) (f : Path → Path) : (s.modPath b w p f).powered = s.powered := rfl
@[simp] theorem State.modPath_events (s : State) (b w p : Nat) (f : Path → Path) : (s.modPath b w p f).events = s.events := rfl
@[simp] theorem State.modPath_eventSeq (s : State) (b w p : Nat) (f : Path → Path) : (s.modPath b w p f).eventSeq = s.eventSeq := rfl
@[simp] theorem State.modPath_frozen (s : State) (b w p : Nat) (f : Path → Path) : (s.modPath b w p f).frozen = s.frozen := rfl
@[simp] theorem State.modPath_meas (s : State) (b w p : Nat) (f : Path → Path) : (s.modPath b w p f).meas = s.meas := rfl
@[simp] theorem State.modPath_shade (s : State) (b w p : Nat) (f : Path → Path) : (s.modPath b w p f).shade = s.shade := rfl
@[simp] theorem State.modPath_images (s : State) (b w p : Nat) (f : Path → Path) : (s.modPath b w p f).images = s.images := rfl
@[simp] theorem State.modPath_probes (s : State) (b w p : Nat) (f : Path → Path) : (s.modPath b w p f).probes = s.probes := rfl
@[simp] theorem State.modPath_thermal (s : State) (b w p : Nat) (f : Path → Path) : (s.modPath b w p f).thermal = s.thermal := rfl
@[simp] theorem State.modPath_reply (s : State) (b w p : Nat) (f : Path → Path) : (s.modPath b w p f).reply = s.reply := rfl
@[simp] theorem State.modPath_scPlaces (s : State) (b w p : Nat) (f : Path → Path) : (s.modPath b w p f).scPlaces = s.scPlaces := rfl
@[simp] theorem State.modPath_agenda (s : State) (b w p : Nat) (f : Path → Path) : (s.modPath b w p f).agenda = s.agenda := rfl
@[simp] theorem State.modPath_cur (s : State) (b w p : Nat) (f : Path → Path) : (s.modPath b w p f).cur = s.cur := rfl
@[simp] theorem State.modPath_free (s : State) (b w p : Nat) (f : Path → Path) : (s.modPath b w p f).free = s.free := rfl

/-! ### modLaunch -/

@[simp] theorem State.modLaunch_clk (s : State) (l : Nat) (f : Launch → Launch) : (s.modLaunch l f).clk = s.clk := rfl
@[simp] theorem State.modLaunch_mem (s : State) (l : Nat) (f : Launch → Launch) : (s.modLaunch l f).mem = s.mem := rfl
@[simp] theorem State.modLaunch_badLines (s : State) (l : Nat) (f : Launch → Launch) : (s.modLaunch l f).badLines = s.badLines := rfl
@[simp] theorem State.modLaunch_keys (s : State) (l : Nat) (f : Launch → Launch) : (s.modLaunch l f).keys = s.keys := rfl
@[simp] theorem State.modLaunch_atomAt (s : State) (l : Nat) (f : Launch → Launch) : (s.modLaunch l f).atomAt = s.atomAt := rfl
@[simp] theorem State.modLaunch_l2 (s : State) (l : Nat) (f : Launch → Launch) : (s.modLaunch l f).l2 = s.l2 := rfl
@[simp] theorem State.modLaunch_gatedWays (s : State) (l : Nat) (f : Launch → Launch) : (s.modLaunch l f).gatedWays = s.gatedWays := rfl
@[simp] theorem State.modLaunch_wakingWays (s : State) (l : Nat) (f : Launch → Launch) : (s.modLaunch l f).wakingWays = s.wakingWays := rfl
@[simp] theorem State.modLaunch_tlb (s : State) (l : Nat) (f : Launch → Launch) : (s.modLaunch l f).tlb = s.tlb := rfl
@[simp] theorem State.modLaunch_walks (s : State) (l : Nat) (f : Launch → Launch) : (s.modLaunch l f).walks = s.walks := rfl
@[simp] theorem State.modLaunch_pins (s : State) (l : Nat) (f : Launch → Launch) : (s.modLaunch l f).pins = s.pins := rfl
@[simp] theorem State.modLaunch_owned (s : State) (l : Nat) (f : Launch → Launch) : (s.modLaunch l f).owned = s.owned := rfl
@[simp] theorem State.modLaunch_ownWait (s : State) (l : Nat) (f : Launch → Launch) : (s.modLaunch l f).ownWait = s.ownWait := rfl
@[simp] theorem State.modLaunch_wakeWait (s : State) (l : Nat) (f : Launch → Launch) : (s.modLaunch l f).wakeWait = s.wakeWait := rfl
@[simp] theorem State.modLaunch_worlds (s : State) (l : Nat) (f : Launch → Launch) : (s.modLaunch l f).worlds = s.worlds := rfl
@[simp] theorem State.modLaunch_sharedRoot (s : State) (l : Nat) (f : Launch → Launch) : (s.modLaunch l f).sharedRoot = s.sharedRoot := rfl
@[simp] theorem State.modLaunch_sharedGrant (s : State) (l : Nat) (f : Launch → Launch) : (s.modLaunch l f).sharedGrant = s.sharedGrant := rfl
@[simp] theorem State.modLaunch_sharedWays (s : State) (l : Nat) (f : Launch → Launch) : (s.modLaunch l f).sharedWays = s.sharedWays := rfl
@[simp] theorem State.modLaunch_slots (s : State) (l : Nat) (f : Launch → Launch) : (s.modLaunch l f).slots = s.slots := rfl
@[simp] theorem State.modLaunch_slotEntry (s : State) (l : Nat) (f : Launch → Launch) : (s.modLaunch l f).slotEntry = s.slotEntry := rfl
@[simp] theorem State.modLaunch_slotStart (s : State) (l : Nat) (f : Launch → Launch) : (s.modLaunch l f).slotStart = s.slotStart := rfl
@[simp] theorem State.modLaunch_slotsNext (s : State) (l : Nat) (f : Launch → Launch) : (s.modLaunch l f).slotsNext = s.slotsNext := rfl
@[simp] theorem State.modLaunch_ridges (s : State) (l : Nat) (f : Launch → Launch) : (s.modLaunch l f).ridges = s.ridges := rfl
@[simp] theorem State.modLaunch_cores (s : State) (l : Nat) (f : Launch → Launch) : (s.modLaunch l f).cores = s.cores := rfl
@[simp] theorem State.modLaunch_blocks (s : State) (l : Nat) (f : Launch → Launch) : (s.modLaunch l f).blocks = s.blocks := rfl
@[simp] theorem State.modLaunch_clusters (s : State) (l : Nat) (f : Launch → Launch) : (s.modLaunch l f).clusters = s.clusters := rfl
@[simp] theorem State.modLaunch_copies (s : State) (l : Nat) (f : Launch → Launch) : (s.modLaunch l f).copies = s.copies := rfl
@[simp] theorem State.modLaunch_arrivals (s : State) (l : Nat) (f : Launch → Launch) : (s.modLaunch l f).arrivals = s.arrivals := rfl
@[simp] theorem State.modLaunch_cancels (s : State) (l : Nat) (f : Launch → Launch) : (s.modLaunch l f).cancels = s.cancels := rfl
@[simp] theorem State.modLaunch_hostq (s : State) (l : Nat) (f : Launch → Launch) : (s.modLaunch l f).hostq = s.hostq := rfl
@[simp] theorem State.modLaunch_tdi (s : State) (l : Nat) (f : Launch → Launch) : (s.modLaunch l f).tdi = s.tdi := rfl
@[simp] theorem State.modLaunch_routes (s : State) (l : Nat) (f : Launch → Launch) : (s.modLaunch l f).routes = s.routes := rfl
@[simp] theorem State.modLaunch_paired (s : State) (l : Nat) (f : Launch → Launch) : (s.modLaunch l f).paired = s.paired := rfl
@[simp] theorem State.modLaunch_flitTries (s : State) (l : Nat) (f : Launch → Launch) : (s.modLaunch l f).flitTries = s.flitTries := rfl
@[simp] theorem State.modLaunch_flitNow (s : State) (l : Nat) (f : Launch → Launch) : (s.modLaunch l f).flitNow = s.flitNow := rfl
@[simp] theorem State.modLaunch_casTries (s : State) (l : Nat) (f : Launch → Launch) : (s.modLaunch l f).casTries = s.casTries := rfl
@[simp] theorem State.modLaunch_bootStep (s : State) (l : Nat) (f : Launch → Launch) : (s.modLaunch l f).bootStep = s.bootStep := rfl
@[simp] theorem State.modLaunch_bootCode (s : State) (l : Nat) (f : Launch → Launch) : (s.modLaunch l f).bootCode = s.bootCode := rfl
@[simp] theorem State.modLaunch_bootRecord (s : State) (l : Nat) (f : Launch → Launch) : (s.modLaunch l f).bootRecord = s.bootRecord := rfl
@[simp] theorem State.modLaunch_powered (s : State) (l : Nat) (f : Launch → Launch) : (s.modLaunch l f).powered = s.powered := rfl
@[simp] theorem State.modLaunch_events (s : State) (l : Nat) (f : Launch → Launch) : (s.modLaunch l f).events = s.events := rfl
@[simp] theorem State.modLaunch_eventSeq (s : State) (l : Nat) (f : Launch → Launch) : (s.modLaunch l f).eventSeq = s.eventSeq := rfl
@[simp] theorem State.modLaunch_frozen (s : State) (l : Nat) (f : Launch → Launch) : (s.modLaunch l f).frozen = s.frozen := rfl
@[simp] theorem State.modLaunch_meas (s : State) (l : Nat) (f : Launch → Launch) : (s.modLaunch l f).meas = s.meas := rfl
@[simp] theorem State.modLaunch_shade (s : State) (l : Nat) (f : Launch → Launch) : (s.modLaunch l f).shade = s.shade := rfl
@[simp] theorem State.modLaunch_images (s : State) (l : Nat) (f : Launch → Launch) : (s.modLaunch l f).images = s.images := rfl
@[simp] theorem State.modLaunch_probes (s : State) (l : Nat) (f : Launch → Launch) : (s.modLaunch l f).probes = s.probes := rfl
@[simp] theorem State.modLaunch_thermal (s : State) (l : Nat) (f : Launch → Launch) : (s.modLaunch l f).thermal = s.thermal := rfl
@[simp] theorem State.modLaunch_reply (s : State) (l : Nat) (f : Launch → Launch) : (s.modLaunch l f).reply = s.reply := rfl
@[simp] theorem State.modLaunch_scPlaces (s : State) (l : Nat) (f : Launch → Launch) : (s.modLaunch l f).scPlaces = s.scPlaces := rfl
@[simp] theorem State.modLaunch_agenda (s : State) (l : Nat) (f : Launch → Launch) : (s.modLaunch l f).agenda = s.agenda := rfl
@[simp] theorem State.modLaunch_cur (s : State) (l : Nat) (f : Launch → Launch) : (s.modLaunch l f).cur = s.cur := rfl
@[simp] theorem State.modLaunch_free (s : State) (l : Nat) (f : Launch → Launch) : (s.modLaunch l f).free = s.free := rfl

/-! ### modCore -/

@[simp] theorem State.modCore_clk (s : State) (c : Nat) (f : Core → Core) : (s.modCore c f).clk = s.clk := rfl
@[simp] theorem State.modCore_mem (s : State) (c : Nat) (f : Core → Core) : (s.modCore c f).mem = s.mem := rfl
@[simp] theorem State.modCore_badLines (s : State) (c : Nat) (f : Core → Core) : (s.modCore c f).badLines = s.badLines := rfl
@[simp] theorem State.modCore_keys (s : State) (c : Nat) (f : Core → Core) : (s.modCore c f).keys = s.keys := rfl
@[simp] theorem State.modCore_atomAt (s : State) (c : Nat) (f : Core → Core) : (s.modCore c f).atomAt = s.atomAt := rfl
@[simp] theorem State.modCore_l2 (s : State) (c : Nat) (f : Core → Core) : (s.modCore c f).l2 = s.l2 := rfl
@[simp] theorem State.modCore_gatedWays (s : State) (c : Nat) (f : Core → Core) : (s.modCore c f).gatedWays = s.gatedWays := rfl
@[simp] theorem State.modCore_wakingWays (s : State) (c : Nat) (f : Core → Core) : (s.modCore c f).wakingWays = s.wakingWays := rfl
@[simp] theorem State.modCore_tlb (s : State) (c : Nat) (f : Core → Core) : (s.modCore c f).tlb = s.tlb := rfl
@[simp] theorem State.modCore_walks (s : State) (c : Nat) (f : Core → Core) : (s.modCore c f).walks = s.walks := rfl
@[simp] theorem State.modCore_pins (s : State) (c : Nat) (f : Core → Core) : (s.modCore c f).pins = s.pins := rfl
@[simp] theorem State.modCore_owned (s : State) (c : Nat) (f : Core → Core) : (s.modCore c f).owned = s.owned := rfl
@[simp] theorem State.modCore_ownWait (s : State) (c : Nat) (f : Core → Core) : (s.modCore c f).ownWait = s.ownWait := rfl
@[simp] theorem State.modCore_wakeWait (s : State) (c : Nat) (f : Core → Core) : (s.modCore c f).wakeWait = s.wakeWait := rfl
@[simp] theorem State.modCore_worlds (s : State) (c : Nat) (f : Core → Core) : (s.modCore c f).worlds = s.worlds := rfl
@[simp] theorem State.modCore_sharedRoot (s : State) (c : Nat) (f : Core → Core) : (s.modCore c f).sharedRoot = s.sharedRoot := rfl
@[simp] theorem State.modCore_sharedGrant (s : State) (c : Nat) (f : Core → Core) : (s.modCore c f).sharedGrant = s.sharedGrant := rfl
@[simp] theorem State.modCore_sharedWays (s : State) (c : Nat) (f : Core → Core) : (s.modCore c f).sharedWays = s.sharedWays := rfl
@[simp] theorem State.modCore_slots (s : State) (c : Nat) (f : Core → Core) : (s.modCore c f).slots = s.slots := rfl
@[simp] theorem State.modCore_slotEntry (s : State) (c : Nat) (f : Core → Core) : (s.modCore c f).slotEntry = s.slotEntry := rfl
@[simp] theorem State.modCore_slotStart (s : State) (c : Nat) (f : Core → Core) : (s.modCore c f).slotStart = s.slotStart := rfl
@[simp] theorem State.modCore_slotsNext (s : State) (c : Nat) (f : Core → Core) : (s.modCore c f).slotsNext = s.slotsNext := rfl
@[simp] theorem State.modCore_ridges (s : State) (c : Nat) (f : Core → Core) : (s.modCore c f).ridges = s.ridges := rfl
@[simp] theorem State.modCore_launches (s : State) (c : Nat) (f : Core → Core) : (s.modCore c f).launches = s.launches := rfl
@[simp] theorem State.modCore_blocks (s : State) (c : Nat) (f : Core → Core) : (s.modCore c f).blocks = s.blocks := rfl
@[simp] theorem State.modCore_clusters (s : State) (c : Nat) (f : Core → Core) : (s.modCore c f).clusters = s.clusters := rfl
@[simp] theorem State.modCore_copies (s : State) (c : Nat) (f : Core → Core) : (s.modCore c f).copies = s.copies := rfl
@[simp] theorem State.modCore_arrivals (s : State) (c : Nat) (f : Core → Core) : (s.modCore c f).arrivals = s.arrivals := rfl
@[simp] theorem State.modCore_cancels (s : State) (c : Nat) (f : Core → Core) : (s.modCore c f).cancels = s.cancels := rfl
@[simp] theorem State.modCore_hostq (s : State) (c : Nat) (f : Core → Core) : (s.modCore c f).hostq = s.hostq := rfl
@[simp] theorem State.modCore_tdi (s : State) (c : Nat) (f : Core → Core) : (s.modCore c f).tdi = s.tdi := rfl
@[simp] theorem State.modCore_routes (s : State) (c : Nat) (f : Core → Core) : (s.modCore c f).routes = s.routes := rfl
@[simp] theorem State.modCore_paired (s : State) (c : Nat) (f : Core → Core) : (s.modCore c f).paired = s.paired := rfl
@[simp] theorem State.modCore_flitTries (s : State) (c : Nat) (f : Core → Core) : (s.modCore c f).flitTries = s.flitTries := rfl
@[simp] theorem State.modCore_flitNow (s : State) (c : Nat) (f : Core → Core) : (s.modCore c f).flitNow = s.flitNow := rfl
@[simp] theorem State.modCore_casTries (s : State) (c : Nat) (f : Core → Core) : (s.modCore c f).casTries = s.casTries := rfl
@[simp] theorem State.modCore_bootStep (s : State) (c : Nat) (f : Core → Core) : (s.modCore c f).bootStep = s.bootStep := rfl
@[simp] theorem State.modCore_bootCode (s : State) (c : Nat) (f : Core → Core) : (s.modCore c f).bootCode = s.bootCode := rfl
@[simp] theorem State.modCore_bootRecord (s : State) (c : Nat) (f : Core → Core) : (s.modCore c f).bootRecord = s.bootRecord := rfl
@[simp] theorem State.modCore_powered (s : State) (c : Nat) (f : Core → Core) : (s.modCore c f).powered = s.powered := rfl
@[simp] theorem State.modCore_events (s : State) (c : Nat) (f : Core → Core) : (s.modCore c f).events = s.events := rfl
@[simp] theorem State.modCore_eventSeq (s : State) (c : Nat) (f : Core → Core) : (s.modCore c f).eventSeq = s.eventSeq := rfl
@[simp] theorem State.modCore_frozen (s : State) (c : Nat) (f : Core → Core) : (s.modCore c f).frozen = s.frozen := rfl
@[simp] theorem State.modCore_meas (s : State) (c : Nat) (f : Core → Core) : (s.modCore c f).meas = s.meas := rfl
@[simp] theorem State.modCore_shade (s : State) (c : Nat) (f : Core → Core) : (s.modCore c f).shade = s.shade := rfl
@[simp] theorem State.modCore_images (s : State) (c : Nat) (f : Core → Core) : (s.modCore c f).images = s.images := rfl
@[simp] theorem State.modCore_probes (s : State) (c : Nat) (f : Core → Core) : (s.modCore c f).probes = s.probes := rfl
@[simp] theorem State.modCore_thermal (s : State) (c : Nat) (f : Core → Core) : (s.modCore c f).thermal = s.thermal := rfl
@[simp] theorem State.modCore_reply (s : State) (c : Nat) (f : Core → Core) : (s.modCore c f).reply = s.reply := rfl
@[simp] theorem State.modCore_scPlaces (s : State) (c : Nat) (f : Core → Core) : (s.modCore c f).scPlaces = s.scPlaces := rfl
@[simp] theorem State.modCore_agenda (s : State) (c : Nat) (f : Core → Core) : (s.modCore c f).agenda = s.agenda := rfl
@[simp] theorem State.modCore_cur (s : State) (c : Nat) (f : Core → Core) : (s.modCore c f).cur = s.cur := rfl
@[simp] theorem State.modCore_free (s : State) (c : Nat) (f : Core → Core) : (s.modCore c f).free = s.free := rfl

/-! ### modWorld -/

@[simp] theorem State.modWorld_clk (s : State) (w : Nat) (f : World → World) : (s.modWorld w f).clk = s.clk := rfl
@[simp] theorem State.modWorld_mem (s : State) (w : Nat) (f : World → World) : (s.modWorld w f).mem = s.mem := rfl
@[simp] theorem State.modWorld_badLines (s : State) (w : Nat) (f : World → World) : (s.modWorld w f).badLines = s.badLines := rfl
@[simp] theorem State.modWorld_keys (s : State) (w : Nat) (f : World → World) : (s.modWorld w f).keys = s.keys := rfl
@[simp] theorem State.modWorld_atomAt (s : State) (w : Nat) (f : World → World) : (s.modWorld w f).atomAt = s.atomAt := rfl
@[simp] theorem State.modWorld_l2 (s : State) (w : Nat) (f : World → World) : (s.modWorld w f).l2 = s.l2 := rfl
@[simp] theorem State.modWorld_gatedWays (s : State) (w : Nat) (f : World → World) : (s.modWorld w f).gatedWays = s.gatedWays := rfl
@[simp] theorem State.modWorld_wakingWays (s : State) (w : Nat) (f : World → World) : (s.modWorld w f).wakingWays = s.wakingWays := rfl
@[simp] theorem State.modWorld_tlb (s : State) (w : Nat) (f : World → World) : (s.modWorld w f).tlb = s.tlb := rfl
@[simp] theorem State.modWorld_walks (s : State) (w : Nat) (f : World → World) : (s.modWorld w f).walks = s.walks := rfl
@[simp] theorem State.modWorld_pins (s : State) (w : Nat) (f : World → World) : (s.modWorld w f).pins = s.pins := rfl
@[simp] theorem State.modWorld_owned (s : State) (w : Nat) (f : World → World) : (s.modWorld w f).owned = s.owned := rfl
@[simp] theorem State.modWorld_ownWait (s : State) (w : Nat) (f : World → World) : (s.modWorld w f).ownWait = s.ownWait := rfl
@[simp] theorem State.modWorld_wakeWait (s : State) (w : Nat) (f : World → World) : (s.modWorld w f).wakeWait = s.wakeWait := rfl
@[simp] theorem State.modWorld_sharedRoot (s : State) (w : Nat) (f : World → World) : (s.modWorld w f).sharedRoot = s.sharedRoot := rfl
@[simp] theorem State.modWorld_sharedGrant (s : State) (w : Nat) (f : World → World) : (s.modWorld w f).sharedGrant = s.sharedGrant := rfl
@[simp] theorem State.modWorld_sharedWays (s : State) (w : Nat) (f : World → World) : (s.modWorld w f).sharedWays = s.sharedWays := rfl
@[simp] theorem State.modWorld_slots (s : State) (w : Nat) (f : World → World) : (s.modWorld w f).slots = s.slots := rfl
@[simp] theorem State.modWorld_slotEntry (s : State) (w : Nat) (f : World → World) : (s.modWorld w f).slotEntry = s.slotEntry := rfl
@[simp] theorem State.modWorld_slotStart (s : State) (w : Nat) (f : World → World) : (s.modWorld w f).slotStart = s.slotStart := rfl
@[simp] theorem State.modWorld_slotsNext (s : State) (w : Nat) (f : World → World) : (s.modWorld w f).slotsNext = s.slotsNext := rfl
@[simp] theorem State.modWorld_ridges (s : State) (w : Nat) (f : World → World) : (s.modWorld w f).ridges = s.ridges := rfl
@[simp] theorem State.modWorld_cores (s : State) (w : Nat) (f : World → World) : (s.modWorld w f).cores = s.cores := rfl
@[simp] theorem State.modWorld_launches (s : State) (w : Nat) (f : World → World) : (s.modWorld w f).launches = s.launches := rfl
@[simp] theorem State.modWorld_blocks (s : State) (w : Nat) (f : World → World) : (s.modWorld w f).blocks = s.blocks := rfl
@[simp] theorem State.modWorld_clusters (s : State) (w : Nat) (f : World → World) : (s.modWorld w f).clusters = s.clusters := rfl
@[simp] theorem State.modWorld_copies (s : State) (w : Nat) (f : World → World) : (s.modWorld w f).copies = s.copies := rfl
@[simp] theorem State.modWorld_arrivals (s : State) (w : Nat) (f : World → World) : (s.modWorld w f).arrivals = s.arrivals := rfl
@[simp] theorem State.modWorld_cancels (s : State) (w : Nat) (f : World → World) : (s.modWorld w f).cancels = s.cancels := rfl
@[simp] theorem State.modWorld_hostq (s : State) (w : Nat) (f : World → World) : (s.modWorld w f).hostq = s.hostq := rfl
@[simp] theorem State.modWorld_tdi (s : State) (w : Nat) (f : World → World) : (s.modWorld w f).tdi = s.tdi := rfl
@[simp] theorem State.modWorld_routes (s : State) (w : Nat) (f : World → World) : (s.modWorld w f).routes = s.routes := rfl
@[simp] theorem State.modWorld_paired (s : State) (w : Nat) (f : World → World) : (s.modWorld w f).paired = s.paired := rfl
@[simp] theorem State.modWorld_flitTries (s : State) (w : Nat) (f : World → World) : (s.modWorld w f).flitTries = s.flitTries := rfl
@[simp] theorem State.modWorld_flitNow (s : State) (w : Nat) (f : World → World) : (s.modWorld w f).flitNow = s.flitNow := rfl
@[simp] theorem State.modWorld_casTries (s : State) (w : Nat) (f : World → World) : (s.modWorld w f).casTries = s.casTries := rfl
@[simp] theorem State.modWorld_bootStep (s : State) (w : Nat) (f : World → World) : (s.modWorld w f).bootStep = s.bootStep := rfl
@[simp] theorem State.modWorld_bootCode (s : State) (w : Nat) (f : World → World) : (s.modWorld w f).bootCode = s.bootCode := rfl
@[simp] theorem State.modWorld_bootRecord (s : State) (w : Nat) (f : World → World) : (s.modWorld w f).bootRecord = s.bootRecord := rfl
@[simp] theorem State.modWorld_powered (s : State) (w : Nat) (f : World → World) : (s.modWorld w f).powered = s.powered := rfl
@[simp] theorem State.modWorld_events (s : State) (w : Nat) (f : World → World) : (s.modWorld w f).events = s.events := rfl
@[simp] theorem State.modWorld_eventSeq (s : State) (w : Nat) (f : World → World) : (s.modWorld w f).eventSeq = s.eventSeq := rfl
@[simp] theorem State.modWorld_frozen (s : State) (w : Nat) (f : World → World) : (s.modWorld w f).frozen = s.frozen := rfl
@[simp] theorem State.modWorld_meas (s : State) (w : Nat) (f : World → World) : (s.modWorld w f).meas = s.meas := rfl
@[simp] theorem State.modWorld_shade (s : State) (w : Nat) (f : World → World) : (s.modWorld w f).shade = s.shade := rfl
@[simp] theorem State.modWorld_images (s : State) (w : Nat) (f : World → World) : (s.modWorld w f).images = s.images := rfl
@[simp] theorem State.modWorld_probes (s : State) (w : Nat) (f : World → World) : (s.modWorld w f).probes = s.probes := rfl
@[simp] theorem State.modWorld_thermal (s : State) (w : Nat) (f : World → World) : (s.modWorld w f).thermal = s.thermal := rfl
@[simp] theorem State.modWorld_reply (s : State) (w : Nat) (f : World → World) : (s.modWorld w f).reply = s.reply := rfl
@[simp] theorem State.modWorld_scPlaces (s : State) (w : Nat) (f : World → World) : (s.modWorld w f).scPlaces = s.scPlaces := rfl
@[simp] theorem State.modWorld_agenda (s : State) (w : Nat) (f : World → World) : (s.modWorld w f).agenda = s.agenda := rfl
@[simp] theorem State.modWorld_cur (s : State) (w : Nat) (f : World → World) : (s.modWorld w f).cur = s.cur := rfl
@[simp] theorem State.modWorld_free (s : State) (w : Nat) (f : World → World) : (s.modWorld w f).free = s.free := rfl

/-! ### modCluster -/

@[simp] theorem State.modCluster_clk (s : State) (c : Nat) (f : Cluster → Cluster) : (s.modCluster c f).clk = s.clk := rfl
@[simp] theorem State.modCluster_mem (s : State) (c : Nat) (f : Cluster → Cluster) : (s.modCluster c f).mem = s.mem := rfl
@[simp] theorem State.modCluster_badLines (s : State) (c : Nat) (f : Cluster → Cluster) : (s.modCluster c f).badLines = s.badLines := rfl
@[simp] theorem State.modCluster_keys (s : State) (c : Nat) (f : Cluster → Cluster) : (s.modCluster c f).keys = s.keys := rfl
@[simp] theorem State.modCluster_atomAt (s : State) (c : Nat) (f : Cluster → Cluster) : (s.modCluster c f).atomAt = s.atomAt := rfl
@[simp] theorem State.modCluster_l2 (s : State) (c : Nat) (f : Cluster → Cluster) : (s.modCluster c f).l2 = s.l2 := rfl
@[simp] theorem State.modCluster_gatedWays (s : State) (c : Nat) (f : Cluster → Cluster) : (s.modCluster c f).gatedWays = s.gatedWays := rfl
@[simp] theorem State.modCluster_wakingWays (s : State) (c : Nat) (f : Cluster → Cluster) : (s.modCluster c f).wakingWays = s.wakingWays := rfl
@[simp] theorem State.modCluster_tlb (s : State) (c : Nat) (f : Cluster → Cluster) : (s.modCluster c f).tlb = s.tlb := rfl
@[simp] theorem State.modCluster_walks (s : State) (c : Nat) (f : Cluster → Cluster) : (s.modCluster c f).walks = s.walks := rfl
@[simp] theorem State.modCluster_pins (s : State) (c : Nat) (f : Cluster → Cluster) : (s.modCluster c f).pins = s.pins := rfl
@[simp] theorem State.modCluster_owned (s : State) (c : Nat) (f : Cluster → Cluster) : (s.modCluster c f).owned = s.owned := rfl
@[simp] theorem State.modCluster_ownWait (s : State) (c : Nat) (f : Cluster → Cluster) : (s.modCluster c f).ownWait = s.ownWait := rfl
@[simp] theorem State.modCluster_wakeWait (s : State) (c : Nat) (f : Cluster → Cluster) : (s.modCluster c f).wakeWait = s.wakeWait := rfl
@[simp] theorem State.modCluster_worlds (s : State) (c : Nat) (f : Cluster → Cluster) : (s.modCluster c f).worlds = s.worlds := rfl
@[simp] theorem State.modCluster_sharedRoot (s : State) (c : Nat) (f : Cluster → Cluster) : (s.modCluster c f).sharedRoot = s.sharedRoot := rfl
@[simp] theorem State.modCluster_sharedGrant (s : State) (c : Nat) (f : Cluster → Cluster) : (s.modCluster c f).sharedGrant = s.sharedGrant := rfl
@[simp] theorem State.modCluster_sharedWays (s : State) (c : Nat) (f : Cluster → Cluster) : (s.modCluster c f).sharedWays = s.sharedWays := rfl
@[simp] theorem State.modCluster_slots (s : State) (c : Nat) (f : Cluster → Cluster) : (s.modCluster c f).slots = s.slots := rfl
@[simp] theorem State.modCluster_slotEntry (s : State) (c : Nat) (f : Cluster → Cluster) : (s.modCluster c f).slotEntry = s.slotEntry := rfl
@[simp] theorem State.modCluster_slotStart (s : State) (c : Nat) (f : Cluster → Cluster) : (s.modCluster c f).slotStart = s.slotStart := rfl
@[simp] theorem State.modCluster_slotsNext (s : State) (c : Nat) (f : Cluster → Cluster) : (s.modCluster c f).slotsNext = s.slotsNext := rfl
@[simp] theorem State.modCluster_ridges (s : State) (c : Nat) (f : Cluster → Cluster) : (s.modCluster c f).ridges = s.ridges := rfl
@[simp] theorem State.modCluster_cores (s : State) (c : Nat) (f : Cluster → Cluster) : (s.modCluster c f).cores = s.cores := rfl
@[simp] theorem State.modCluster_launches (s : State) (c : Nat) (f : Cluster → Cluster) : (s.modCluster c f).launches = s.launches := rfl
@[simp] theorem State.modCluster_blocks (s : State) (c : Nat) (f : Cluster → Cluster) : (s.modCluster c f).blocks = s.blocks := rfl
@[simp] theorem State.modCluster_copies (s : State) (c : Nat) (f : Cluster → Cluster) : (s.modCluster c f).copies = s.copies := rfl
@[simp] theorem State.modCluster_arrivals (s : State) (c : Nat) (f : Cluster → Cluster) : (s.modCluster c f).arrivals = s.arrivals := rfl
@[simp] theorem State.modCluster_cancels (s : State) (c : Nat) (f : Cluster → Cluster) : (s.modCluster c f).cancels = s.cancels := rfl
@[simp] theorem State.modCluster_hostq (s : State) (c : Nat) (f : Cluster → Cluster) : (s.modCluster c f).hostq = s.hostq := rfl
@[simp] theorem State.modCluster_tdi (s : State) (c : Nat) (f : Cluster → Cluster) : (s.modCluster c f).tdi = s.tdi := rfl
@[simp] theorem State.modCluster_routes (s : State) (c : Nat) (f : Cluster → Cluster) : (s.modCluster c f).routes = s.routes := rfl
@[simp] theorem State.modCluster_paired (s : State) (c : Nat) (f : Cluster → Cluster) : (s.modCluster c f).paired = s.paired := rfl
@[simp] theorem State.modCluster_flitTries (s : State) (c : Nat) (f : Cluster → Cluster) : (s.modCluster c f).flitTries = s.flitTries := rfl
@[simp] theorem State.modCluster_flitNow (s : State) (c : Nat) (f : Cluster → Cluster) : (s.modCluster c f).flitNow = s.flitNow := rfl
@[simp] theorem State.modCluster_casTries (s : State) (c : Nat) (f : Cluster → Cluster) : (s.modCluster c f).casTries = s.casTries := rfl
@[simp] theorem State.modCluster_bootStep (s : State) (c : Nat) (f : Cluster → Cluster) : (s.modCluster c f).bootStep = s.bootStep := rfl
@[simp] theorem State.modCluster_bootCode (s : State) (c : Nat) (f : Cluster → Cluster) : (s.modCluster c f).bootCode = s.bootCode := rfl
@[simp] theorem State.modCluster_bootRecord (s : State) (c : Nat) (f : Cluster → Cluster) : (s.modCluster c f).bootRecord = s.bootRecord := rfl
@[simp] theorem State.modCluster_powered (s : State) (c : Nat) (f : Cluster → Cluster) : (s.modCluster c f).powered = s.powered := rfl
@[simp] theorem State.modCluster_events (s : State) (c : Nat) (f : Cluster → Cluster) : (s.modCluster c f).events = s.events := rfl
@[simp] theorem State.modCluster_eventSeq (s : State) (c : Nat) (f : Cluster → Cluster) : (s.modCluster c f).eventSeq = s.eventSeq := rfl
@[simp] theorem State.modCluster_frozen (s : State) (c : Nat) (f : Cluster → Cluster) : (s.modCluster c f).frozen = s.frozen := rfl
@[simp] theorem State.modCluster_meas (s : State) (c : Nat) (f : Cluster → Cluster) : (s.modCluster c f).meas = s.meas := rfl
@[simp] theorem State.modCluster_shade (s : State) (c : Nat) (f : Cluster → Cluster) : (s.modCluster c f).shade = s.shade := rfl
@[simp] theorem State.modCluster_images (s : State) (c : Nat) (f : Cluster → Cluster) : (s.modCluster c f).images = s.images := rfl
@[simp] theorem State.modCluster_probes (s : State) (c : Nat) (f : Cluster → Cluster) : (s.modCluster c f).probes = s.probes := rfl
@[simp] theorem State.modCluster_thermal (s : State) (c : Nat) (f : Cluster → Cluster) : (s.modCluster c f).thermal = s.thermal := rfl
@[simp] theorem State.modCluster_reply (s : State) (c : Nat) (f : Cluster → Cluster) : (s.modCluster c f).reply = s.reply := rfl
@[simp] theorem State.modCluster_scPlaces (s : State) (c : Nat) (f : Cluster → Cluster) : (s.modCluster c f).scPlaces = s.scPlaces := rfl
@[simp] theorem State.modCluster_agenda (s : State) (c : Nat) (f : Cluster → Cluster) : (s.modCluster c f).agenda = s.agenda := rfl
@[simp] theorem State.modCluster_cur (s : State) (c : Nat) (f : Cluster → Cluster) : (s.modCluster c f).cur = s.cur := rfl
@[simp] theorem State.modCluster_free (s : State) (c : Nat) (f : Cluster → Cluster) : (s.modCluster c f).free = s.free := rfl

/-! ### Reading a part after its update -/

theorem getD_modify {α : Type} (l : List α) (d : α) (i j : Nat) (f : α → α) :
    (l.modify i f).getD j d = if j = i ∧ i < l.length then f (l.getD i d) else l.getD j d := by
  simp only [List.getD_eq_getElem?_getD, List.getElem?_modify]
  by_cases h : i = j
  · subst h
    by_cases hl : i < l.length
    · simp [hl]
    · simp [hl]
  · simp [h, Ne.symm h]

@[simp] theorem State.modBlk_length (s : State) (b : Nat) (f : Block → Block) :
    (s.modBlk b f).blocks.length = s.blocks.length := by simp [State.modBlk]

theorem State.blk_modBlk (s : State) (b b' : Nat) (f : Block → Block) :
    (s.modBlk b f).blk b' = if b' = b ∧ b < s.blocks.length then f (s.blk b) else s.blk b' := by
  simp only [State.blk, State.modBlk, getD_modify]

theorem State.blk_modBlk_ne (s : State) (b b' : Nat) (f : Block → Block) (h : b' ≠ b) :
    (s.modBlk b f).blk b' = s.blk b' := by simp [State.blk_modBlk, h]

theorem State.blk_modBlk_eq (s : State) (b : Nat) (f : Block → Block) (h : b < s.blocks.length) :
    (s.modBlk b f).blk b = f (s.blk b) := by simp [State.blk_modBlk, h]

theorem Block.wave_modWv (k : Block) (w w' : Nat) (f : Wave → Wave) :
    (k.modWv w f).waves.getD w' default =
      if w' = w ∧ w < k.waves.length then f (k.waves.getD w default) else k.waves.getD w' default := by
  simp only [Block.modWv, getD_modify]

theorem State.wv_modWv (s : State) (b w b' w' : Nat) (f : Wave → Wave) :
    (s.modWv b w f).wv b' w' =
      if b' = b ∧ b < s.blocks.length ∧ w' = w ∧ w < (s.blk b).waves.length then f (s.wv b w) else s.wv b' w' := by
  unfold State.wv State.modWv
  rw [State.blk_modBlk]
  by_cases h : b' = b ∧ b < s.blocks.length
  · obtain ⟨rfl, hb⟩ := h
    simp only [hb, true_and, and_self, if_true, Block.wave_modWv]
  · rw [if_neg h, if_neg (fun x => h ⟨x.1, x.2.1⟩)]

theorem Wave.path_modPath (v : Wave) (p p' : Nat) (f : Path → Path) :
    (v.modPath p f).path p' = if p' = p ∧ p < v.paths.length then f (v.path p) else v.path p' := by
  simp only [Wave.path, Wave.modPath, getD_modify]

end Sys2Proof.Machine
end

