-- ==== Sys2Proof/Laws/Registers.lean ====
section
/-! SUPPORT. What the register operations do: reading v-, g- and predicate registers after a write. -/

namespace Sys2Proof.Machine

open Sys2Proof

/-! ### Rows -/

theorem rowGet_rowPut (v : SMap Row) (r : Nat) (act : Nat → Bool) (val : Nat → Word) (r' ln : Nat) (h : ln < 32) :
    rowGet (rowPut v r act val) r' ln = if r' = r ∧ act ln = true then val ln else rowGet v r' ln := by
  unfold rowPut
  conv_lhs => unfold rowGet
  rw [smap_get_put]
  by_cases hr : r' = r
  · subst hr
    by_cases ha : act ln = true <;>
      simp [rowGet, List.getD_eq_getElem?_getD, List.getElem?_map, List.getElem?_range h, ha]
  · simp [hr, rowGet]

theorem active_lt (c : Ctx) (ln : Nat) (h : c.active ln = true) : ln < 32 := by
  by_contra hn
  rw [Ctx.active, bitAt, BitVec.getLsbD_of_ge _ _ (by omega)] at h
  cases h

/-- Rows of one wave's registers are distinct. -/
theorem vRow_inj (nw B X w n m : Nat) (hw : w < nw) (_ : n < B + X) (_ : m < B + X)
    (h : vRow nw B X w n = vRow nw B X w m) : n = m := by
  have key : w * B + B ≤ nw * B := by
    have := Nat.mul_le_mul_right B (Nat.succ_le_of_lt hw)
    rw [Nat.succ_mul] at this
    exact this
  unfold vRow at h
  have hp : 0 ≤ w / 2 * X := Nat.zero_le _
  split at h <;> split at h <;> omega

/-- One register of a run, through the names of all the lanes: a lane's cell takes its value once. -/
theorem rowGet_foldl_bases (g : Nat → Nat) (row : Nat → Nat) (act : Nat → Bool) (val : Nat → Word) (bs : List Nat)
    (hd : bs.Nodup) (v : SMap Row) (r ln : Nat) (h : ln < 32) :
    rowGet (bs.foldl (fun v k => rowPut v (row k) (fun x => act x && g x == k) val) v) r ln =
      if act ln = true ∧ g ln ∈ bs ∧ r = row (g ln) then val ln else rowGet v r ln := by
  induction bs generalizing v with
  | nil => simp
  | cons k t ih =>
    obtain ⟨hk, ht⟩ := List.nodup_cons.1 hd
    rw [List.foldl_cons, ih ht, rowGet_rowPut _ _ _ _ _ _ h]
    by_cases ha : act ln = true
    · by_cases hg : g ln = k
      · subst hg; simp [ha, hk]
      · simp [ha, hg]
    · simp [ha]

theorem rowGet_foldl_run (g : Nat → Nat) (row : Nat → Nat) (act : Nat → Bool) (val : Nat → Nat → Word) (bs : List Nat)
    (hd : bs.Nodup) (hm : ∀ ln, act ln = true → g ln ∈ bs) (ln : Nat) (h : ln < 32) (n : Nat) (v : SMap Row) (r : Nat)
    (hinj : ∀ i j, i < n → j < n → act ln = true → row (g ln + i) = row (g ln + j) → i = j) :
    rowGet ((List.range n).foldl (fun v j => bs.foldl (fun v k =>
        rowPut v (row (k + j)) (fun x => act x && g x == k) (fun x => val x j)) v) v) r ln =
      (if act ln = true then
        match (List.range n).find? fun j => r == row (g ln + j) with
        | some j => val ln j
        | none => rowGet v r ln
      else rowGet v r ln) := by
  induction n with
  | zero => simp
  | succ n ih =>
    have ih := ih fun i j hi hj => hinj i j (by omega) (by omega)
    rw [List.range_succ, List.foldl_append, List.foldl_cons, List.foldl_nil,
      rowGet_foldl_bases g (fun k => row (k + n)) act (fun x => val x n) bs hd _ _ _ h, ih]
    by_cases ha : act ln = true
    · simp only [ha, hm ln ha, true_and, if_true, List.find?_append]
      by_cases hr : r = row (g ln + n)
      · have : (List.range n).find? (fun j => r == row (g ln + j)) = none := by
          simp only [List.find?_eq_none, List.mem_range, beq_iff_eq]
          intro j hj hrj
          have := hinj j n (by omega) (by omega) ha (by rw [← hrj, hr])
          omega
        simp [hr]
        rw [← hr, this]; simp
      · have : (r == row (g ln + n)) = false := by simpa using hr
        cases (List.range n).find? (fun j => r == row (g ln + j)) <;> simp [hr, this]
    · simp [ha]

/-- The v-registers after a run has been written (R204, R358): an active lane's run holds its values, and nothing else has
changed. -/
theorem writeV_v (c : Ctx) (f n : Nat) (val : Nat → Nat → Word) (s : State) (hb : c.b < s.blocks.length)
    (hv : (s.blk c.b).v = c.blk.v) (hw : c.w < c.nw) (hr : ∀ ln, c.active ln = true → c.vreg ln f + n ≤ c.B + c.X) (r ln : Nat)
    (h : ln < 32) :
    rowGet ((c.writeV f n val s).blk c.b).v r ln =
      (if c.active ln = true then
        match (List.range n).find? fun j => r == vRow c.nw c.B c.X c.w (c.vreg ln f + j) with
        | some j => val ln j
        | none => rowGet c.blk.v r ln
      else rowGet c.blk.v r ln) := by
  unfold Ctx.writeV
  rw [State.blk_modBlk_eq _ _ _ hb]
  simp only [hv]
  refine rowGet_foldl_run (fun ln => c.vreg ln f) (fun k => vRow c.nw c.B c.X c.w k) c.active val _ (List.nodup_dedup _) ?_ ln h n
    c.blk.v r ?_
  · intro ln ha
    simp only [List.mem_dedup, List.mem_map, List.mem_filter, List.mem_range]
    exact ⟨ln, ⟨active_lt c ln ha, ha⟩, rfl⟩
  · intro i j hi hj ha he
    have := hr ln ha
    have := vRow_inj _ _ _ _ _ _ hw (by omega) (by omega) he
    omega

end Sys2Proof.Machine
end

