-- ==== Sys2Proof/Laws/Issue.lean ====
section
/-! SUPPORT. What issuing a word does: its checks, its body, and everything that a register-only word leaves. -/

namespace Sys2Proof.Machine

open Sys2Proof

theorem at_facts {s : State} {c : Ctx} (h : At s c) : c.blk = s.blk c.b ∧ c.wv = s.wv c.b c.w ∧ c.pa = c.wv.path c.p ∧
    c.b < s.blocks.length ∧ c.w < (s.blk c.b).waves.length ∧ c.w < c.nw ∧ c.p < c.wv.paths.length := by
  have h := h.1
  unfold State.ctx at h
  split at h
  · rename_i b w p _
    by_cases hc : b < s.blocks.length ∧ w < (s.ctxAt b w p).blk.waves.length ∧ w < recNw (s.ctxAt b w p).lr ∧ p < 8 ∧
        p < (s.ctxAt b w p).wv.paths.length
    · simp only [hc, and_self, if_true, Option.some.injEq] at h
      subst h
      exact ⟨rfl, rfl, rfl, hc.1, hc.2.1, hc.2.2.1, hc.2.2.2.2⟩
    · simp [hc] at h
  · cases h

/-- A word that passes the checks at issue runs its body. -/
theorem issueWith_passes {s : State} {c : Ctx} (h : At s c) (moves : Bool) (i : Info) (y : Bool) (ill : Ctx → Bool)
    (hc : c.check i (ill c) = none) (body : Ctx → State → Act) :
    issueWith moves i y ill s body =
      match body c s with
      | .trap t => .next (s.takeTrap c.b c.w c.p t)
      | .trapIn t s' => .next (s'.takeTrap c.b c.w c.p t)
      | .stay s' => .next s'
      | .hold r s' => .next (s'.modPath c.b c.w c.p fun p => { p with blocked := some r, again := false })
      | .done s' => .next (c.noteMemory i.cls (c.issued y (if moves then s' else c.advance i.lits s'))) := by
  simp only [issueWith, h.1, h.2, hc]
  all_goals (cases body c s <;> rfl)

/-- A word that fails a check takes the check's trap. -/
theorem issueWith_traps {s : State} {c : Ctx} (h : At s c) (moves : Bool) (i : Info) (y : Bool) (ill : Ctx → Bool)
    (t : TrapInfo) (hc : c.check i (ill c) = some t) (body : Ctx → State → Act) :
    issueWith moves i y ill s body = .next (s.takeTrap c.b c.w c.p t) := by
  simp only [issueWith, h.1, h.2, hc]

/-! ### Updates of one part, composed -/

theorem modBlk_modBlk (s : State) (b : Nat) (f g : Block → Block) :
    (s.modBlk b f).modBlk b g = s.modBlk b fun k => g (f k) := by
  simp [State.modBlk, List.modify_modify_eq, Function.comp_def]

theorem block_modWv_modWv (k : Block) (w : Nat) (f g : Wave → Wave) :
    (k.modWv w f).modWv w g = k.modWv w fun v => g (f v) := by
  simp [Block.modWv, List.modify_modify_eq, Function.comp_def]

theorem modWv_modWv (s : State) (b w : Nat) (f g : Wave → Wave) :
    (s.modWv b w f).modWv b w g = s.modWv b w fun v => g (f v) := by
  simp [State.modWv, modBlk_modBlk, block_modWv_modWv]

theorem modPath_eq (s : State) (b w p : Nat) (f : Path → Path) :
    s.modPath b w p f = s.modWv b w fun v => { v with paths := v.paths.modify p f } := rfl

/-! ### Register-only words -/

/-- What a write of a g-register does to its wave (R41, R206). -/
def gWave (c : Ctx) (n : Nat) (x : Word) (v : Wave) : Wave :=
  if n = 0 then v
  else if n = 127 then { v with paths := v.paths.modify c.p fun p => { p with exm := x &&& p.full } }
  else { v with g := SMap.put 0 v.g n x }

theorem modWv_id (s : State) (b w : Nat) : s.modWv b w (fun v => v) = s := by
  have h1 : ∀ (l : List Wave) i, l.modify i (fun v => v) = l := fun l i => List.modify_id i l
  have h2 : ∀ (l : List Block) i, l.modify i (fun v => v) = l := fun l i => List.modify_id i l
  simp [State.modWv, State.modBlk, Block.modWv, h1, h2]

theorem writeG_eq (c : Ctx) (n : Nat) (x : Word) (s : State) : c.writeG n x s = s.modWv c.b c.w (gWave c n x) := by
  unfold Ctx.writeG gWave
  by_cases h0 : n = 0
  · simp only [h0, if_true]; rw [modWv_id]
  · by_cases h1 : n = 127
    · subst h1; simp [modPath_eq]
    · simp [h0, h1]

theorem writeGs_eq (c : Ctx) (d n : Nat) (val : Nat → Word) (s : State) :
    c.writeGs d n val s = s.modWv c.b c.w fun v => (List.range n).foldl (fun v j => gWave c (d + j) (val j) v) v := by
  unfold Ctx.writeGs
  induction n with
  | zero => simp [modWv_id]
  | succ n ih => 
    simp only [List.range_succ, List.foldl_append, List.foldl_cons, List.foldl_nil]
    rw [ih, writeG_eq, modWv_modWv]

/-- What a write of g-registers leaves of a wave but for `g` and one path's EXM. -/
theorem gWaves_frame (c : Ctx) (d n : Nat) (val : Nat → Word) (v : Wave) :
    ∃ (g : SMap Word) (e : Path → Word), (List.range n).foldl (fun v j => gWave c (d + j) (val j) v) v =
      { v with g, paths := v.paths.modify c.p fun p => { p with exm := e p } } := by
  induction n with
  | zero =>
    have : v.paths.modify c.p (fun p => { p with exm := p.exm }) = v.paths := List.modify_id ..
    exact ⟨v.g, fun p => p.exm, by rw [this]; rfl⟩
  | succ n ih =>
    obtain ⟨g, e, ih⟩ := ih
    simp only [List.range_succ, List.foldl_append, List.foldl_cons, List.foldl_nil, ih]
    unfold gWave
    split
    · exact ⟨g, e, rfl⟩
    · split
      · exact ⟨g, fun p => val n &&& p.full, by simp [List.modify_modify_eq, Function.comp_def]⟩
      · exact ⟨SMap.put 0 g (d + n) (val n), e, rfl⟩

/-- g-register `n` as path `p` of a wave reads it. -/
def gOf (p n : Nat) (v : Wave) : Word := if n = 0 then 0 else if n = 127 then (v.path p).exm else SMap.get 0 v.g n

theorem gOf_gWave (c : Ctx) (n : Nat) (x : Word) (v : Wave) (hp : c.p < v.paths.length) (k : Nat) :
    gOf c.p k (gWave c n x v) =
      if k = 0 then 0 else if k = n then (if k = 127 then x &&& (v.path c.p).full else x) else gOf c.p k v := by
  unfold gOf gWave
  by_cases hk : k = 0
  · simp [hk]
  · by_cases hn : n = 0
    · subst hn; simp [hk]
    · by_cases h1 : n = 127
      · subst h1
        by_cases h2 : k = 127
        · subst h2; simp [Wave.path, hp]
        · simp [hk, h2]
      · by_cases h2 : k = 127
        · subst h2; simp [hn, h1, Ne.symm h1, Wave.path]
        · simp [hk, hn, h1, h2, smap_get_put]

theorem gWave_paths (c : Ctx) (n : Nat) (x : Word) (v : Wave) :
    (gWave c n x v).paths.length = v.paths.length ∧ ((gWave c n x v).path c.p).full = (v.path c.p).full := by
  unfold gWave
  split
  · simp
  · split
    · simp only [List.length_modify, true_and, Wave.path, getD_modify]
      split <;> simp
    · simp [Wave.path]

theorem gWaves_paths (c : Ctx) (d n : Nat) (val : Nat → Word) (v : Wave) :
    let u := (List.range n).foldl (fun v j => gWave c (d + j) (val j) v) v
    u.paths.length = v.paths.length ∧ (u.path c.p).full = (v.path c.p).full := by
  induction n with
  | zero => simp
  | succ n ih =>
    simp only [List.range_succ, List.foldl_append, List.foldl_cons, List.foldl_nil]
    exact ⟨(gWave_paths ..).1.trans ih.1, (gWave_paths ..).2.trans ih.2⟩

/-- Reading the g-registers after a run of them has been written (R41, R43, R206). -/
theorem gOf_gWaves (c : Ctx) (d n : Nat) (val : Nat → Word) (v : Wave) (hp : c.p < v.paths.length) (k : Nat) :
    gOf c.p k ((List.range n).foldl (fun v j => gWave c (d + j) (val j) v) v) =
      if k = 0 then 0 else if d ≤ k ∧ k < d + n then (if k = 127 then val (k - d) &&& (v.path c.p).full else val (k - d))
      else gOf c.p k v := by
  induction n with
  | zero =>
    by_cases hk : k = 0
    · simp [hk, gOf]
    · simp [show ¬(d ≤ k ∧ k < d) by omega, gOf, hk]
  | succ n ih =>
    have hl := gWaves_paths c d n val v
    simp only [List.range_succ, List.foldl_append, List.foldl_cons, List.foldl_nil]
    rw [gOf_gWave _ _ _ _ (by rw [hl.1]; exact hp), ih, hl.2]
    by_cases hk : k = 0
    · simp [hk]
    · by_cases h1 : k = d + n
      · subst h1; simp
      · by_cases h2 : d ≤ k ∧ k < d + n
        · simp [hk, h1, h2, show d ≤ k ∧ k < d + (n + 1) by omega]
        · simp [hk, h1, h2, show ¬(d ≤ k ∧ k < d + (n + 1)) by omega]

/-! ### The frame -/

/-- Two updates in one block, of its v-registers and of the issuing wave, leave what `Frame` says, if the wave's update
does. -/
theorem frame_of (s : State) (c : Ctx) (h : At s c) (y : Bool) (pos : DWord × Nat) (V : SMap Row → SMap Row) (f : Wave → Wave)
    (hw : { f c.wv with g := c.wv.g, q := c.wv.q, fflags := c.wv.fflags, paths := c.wv.paths } =
      { c.wv with ypark := c.wv.ypark || y, lastPath := c.p, lastIssue := s.clk, excl := none })
    (ho : ∀ p, p ≠ c.p → (f c.wv).path p = c.wv.path p)
    (hp : { (f c.wv).path c.p with exm := c.pa.exm } =
      { c.pa with pc := pos.1, cpos := pos.2, phase := 0, blocked := none
                  count := if c.pa.mode = .plain then c.pa.count else c.pa.count - 1 }) :
    Frame s ((s.modBlk c.b fun k => { k with v := V k.v }).modWv c.b c.w f) c y pos ∧
      (((s.modBlk c.b fun k => { k with v := V k.v }).modWv c.b c.w f).blk c.b).v = V c.blk.v ∧
      ((s.modBlk c.b fun k => { k with v := V k.v }).modWv c.b c.w f).wv c.b c.w = f c.wv := by
  obtain ⟨h1, h2, h3, hb, hwl, -, -⟩ := at_facts h
  have hblk : ((s.modBlk c.b fun k => { k with v := V k.v }).modWv c.b c.w f).blk c.b =
      { c.blk with v := V c.blk.v, waves := c.blk.waves.modify c.w f } := by
    simp [State.modWv, State.blk_modBlk, hb, h1, Block.modWv]
  have hwv : ((s.modBlk c.b fun k => { k with v := V k.v }).modWv c.b c.w f).wv c.b c.w = f c.wv := by
    unfold State.wv
    rw [hblk]
    have hwl' : c.w < c.blk.waves.length := by rw [h1]; exact hwl
    simp only [getD_modify, hwl', and_self, if_true]
    rw [h2, h1]; rfl
  refine ⟨?_, by rw [hblk], hwv⟩
  refine ⟨⟨?_, ?_, ?_, ?_, ?_, ?_, ?_⟩, ?_, ?_⟩
  · simp [State.modWv, State.modBlk]
  · simp [State.modWv]
  · intro b hne
    simp [State.modWv, State.blk_modBlk, hne]
  · rw [hblk]
  · rw [hblk]; simp
  · intro w hne
    unfold State.wv
    rw [hblk, h1]
    exact (getD_modify ..).trans (if_neg fun x => hne x.1)
  · rw [hwv]; exact hw
  · intro p hne; rw [hwv]; exact ho p hne
  · rw [hwv]; exact hp

/-- What issuing does to the wave, after its body's own change (R27, R35, R338, R358). -/
def issuedWave (c : Ctx) (y : Bool) (lits : Nat) (clk : Nat) (v : Wave) : Wave :=
  { v with
    ypark := v.ypark || y, lastPath := c.p, lastIssue := clk, excl := none
    paths := v.paths.modify c.p fun p =>
      { p with pc := (c.nextPos lits).1, cpos := (c.nextPos lits).2, phase := 0, blocked := none
               count := if c.pa.mode = .plain then p.count else p.count - 1 } }

theorem finish_eq (c : Ctx) (i : Info) (y : Bool) (s : State) (hc : i.cls ≠ 2) :
    c.noteMemory i.cls (c.issued y (c.advance i.lits s)) = s.modWv c.b c.w (issuedWave c y i.lits s.clk) := by
  simp only [Ctx.noteMemory, hc, ne_eq, not_false_eq_true, if_true, Ctx.issued, Ctx.advance, modPath_eq, modWv_modWv]
  congr 1
  funext v
  simp [issuedWave, List.modify_modify_eq, Function.comp_def]

theorem raise_eq (c : Ctx) (r : Raised) (s : State) :
    c.raise r s = s.modWv c.b c.w fun v => if v.ra.isSome then v else { v with fflags := applyRaised v.fflags v.fctrl r } := rfl

theorem applyRaised_zero (f k : Word) : applyRaised f k 0 = f := by simp [applyRaised]

theorem issuedWave_path (c : Ctx) (y : Bool) (lits clk : Nat) (v : Wave) (hp : c.p < v.paths.length) :
    (issuedWave c y lits clk v).path c.p =
      { v.path c.p with pc := (c.nextPos lits).1, cpos := (c.nextPos lits).2, phase := 0, blocked := none
                        count := if c.pa.mode = .plain then (v.path c.p).count else (v.path c.p).count - 1 } := by
  simp [issuedWave, Wave.path, hp]

theorem issuedWave_path_ne (c : Ctx) (y : Bool) (lits clk : Nat) (v : Wave) (p : Nat) (h : p ≠ c.p) :
    (issuedWave c y lits clk v).path p = v.path p := by
  show (v.paths.modify c.p _).getD p default = _
  rw [getD_modify, if_neg fun x => h x.1]
  rfl

/-- The v-registers after a write of a run. -/
def vWrites (c : Ctx) (f n : Nat) (val : Nat → Nat → Word) (m : SMap Row) : SMap Row :=
  (List.range n).foldl (fun v j =>
    (((List.range 32).filter c.active).map fun ln => c.vreg ln f).dedup.foldl (fun v r =>
      rowPut v (vRow c.nw c.B c.X c.w (r + j)) (fun ln => c.active ln && c.vreg ln f == r) (fun ln => val ln j)) v) m

theorem writeV_eq (c : Ctx) (f n : Nat) (val : Nat → Nat → Word) (s : State) :
    c.writeV f n val s = s.modBlk c.b fun k => { k with v := vWrites c f n val k.v } := rfl

theorem vWrites_get (c : Ctx) (d n : Nat) (val : Nat → Nat → Word) (m : SMap Row) (hw : c.w < c.nw)
    (hr : ∀ ln, c.active ln = true → c.vreg ln d + n ≤ c.B + c.X) (r ln : Nat) (hl : ln < 32) :
    rowGet (vWrites c d n val m) r ln =
      (if c.active ln = true then
        match (List.range n).find? fun j => r == vRow c.nw c.B c.X c.w (c.vreg ln d + j) with
        | some j => val ln j
        | none => rowGet m r ln
      else rowGet m r ln) := by
  refine rowGet_foldl_run (fun ln => c.vreg ln d) (fun k => vRow c.nw c.B c.X c.w k) c.active val _ (List.nodup_dedup _)
      (fun ln ha => ?_) ln hl n m r (fun i j hi hj ha he => ?_)
  · simp only [List.mem_dedup, List.mem_map, List.mem_filter, List.mem_range]
    exact ⟨ln, ⟨active_lt c ln ha, ha⟩, rfl⟩
  · have := hr ln ha
    have := vRow_inj _ _ _ _ _ _ hw (by omega) (by omega) he
    omega

theorem wroteV_of (t : State) (c : Ctx) (d n : Nat) (val : Nat → Nat → Word) (hw : c.w < c.nw)
    (hr : ∀ ln, c.active ln = true → c.vreg ln d + n ≤ c.B + c.X) (ht : (t.blk c.b).v = vWrites c d n val c.blk.v) :
    WroteV t c d n val := by
  have hget := fun r ln hl => (congrArg (fun m => rowGet m r ln) ht).trans (vWrites_get c d n val c.blk.v hw hr r ln hl)
  refine ⟨?_, ?_⟩
  · intro ln j ha hj
    have hb' := hr ln ha
    rw [hget _ _ (active_lt c ln ha), if_pos ha]
    have : (List.range n).find? (fun k => vRow c.nw c.B c.X c.w (c.vreg ln d + j) == vRow c.nw c.B c.X c.w (c.vreg ln d + k)) = some j := by
      have hlt : ∀ a, a < n → vRow c.nw c.B c.X c.w (c.vreg ln d + j) = vRow c.nw c.B c.X c.w (c.vreg ln d + a) → j = a := by
        intro a ha' he
        have := vRow_inj _ _ _ _ _ _ hw (by omega) (by omega) he
        omega
      cases hf : (List.range n).find? (fun k => vRow c.nw c.B c.X c.w (c.vreg ln d + j) == vRow c.nw c.B c.X c.w (c.vreg ln d + k)) with
      | none => simpa using List.find?_eq_none.1 hf j (List.mem_range.2 hj)
      | some a =>
        have h1 := List.find?_some hf
        have h2 := List.mem_of_find?_eq_some hf
        rw [hlt a (List.mem_range.1 h2) (by simpa using h1)]
    rw [this]
  · intro r ln hl hne
    rw [hget _ _ hl]
    split
    · have : (List.range n).find? (fun j => r == vRow c.nw c.B c.X c.w (c.vreg ln d + j)) = none := by
        simp only [List.find?_eq_none, List.mem_range, beq_iff_eq]
        intro j hj; exact hne j hj ‹_›
      rw [this]
    · rfl

/-- A wave that has raised flags and issued. -/
def resWave (c : Ctx) (y : Bool) (lits clk : Nat) (raised : Raised) (v : Wave) : Wave :=
  issuedWave c y lits clk (if v.ra.isSome then v else { v with fflags := applyRaised v.fflags v.fctrl raised })

theorem resWave_eq (c : Ctx) (y : Bool) (lits clk : Nat) (raised : Raised) (v : Wave) (h : v.ra = none) :
    resWave c y lits clk raised v = issuedWave c y lits clk { v with fflags := applyRaised v.fflags v.fctrl raised } := by
  simp [resWave, h]

theorem resWave_path (c : Ctx) (y : Bool) (lits clk : Nat) (raised : Raised) (v : Wave) (h : v.ra = none) (hp : c.p < v.paths.length) :
    (resWave c y lits clk raised v).path c.p =
      { v.path c.p with pc := (c.nextPos lits).1, cpos := (c.nextPos lits).2, phase := 0, blocked := none
                        count := if c.pa.mode = .plain then (v.path c.p).count else (v.path c.p).count - 1 } := by
  rw [resWave_eq _ _ _ _ _ _ h]; exact issuedWave_path c y lits clk { v with fflags := applyRaised v.fflags v.fctrl raised } hp

theorem resWave_path_ne (c : Ctx) (y : Bool) (lits clk : Nat) (raised : Raised) (v : Wave) (h : v.ra = none) (p : Nat) (hp : p ≠ c.p) :
    (resWave c y lits clk raised v).path p = v.path p := by
  rw [resWave_eq _ _ _ _ _ _ h]; exact issuedWave_path_ne c y lits clk { v with fflags := applyRaised v.fflags v.fctrl raised } p hp

theorem modBlk_id (s : State) (b : Nat) : (s.modBlk b fun k => { k with v := id k.v }) = s := by
  have : ∀ (l : List Block) j, l.modify j (fun v => v) = l := fun l j => List.modify_id j l
  simp [State.modBlk, this]

/-- A word whose body writes a v or g run and raises flags. -/
theorem done_of (s : State) (c : Ctx) (h : At s c) (i : Info) (y g : Bool) (d : Field) (n : Nat) (val : Nat → Nat → Word)
    (raised : Raised) (hcls : i.cls ≠ 2)
    (hr : g = false → ∀ ln, c.active ln = true → c.vreg ln d.toNat + n ≤ c.B + c.X) :
    Done s (c.noteMemory i.cls (c.issued y (c.advance i.lits (c.raise raised (c.writeD g d n val s))))) c y g d n i.lits
      raised val := by
  have hh := h
  obtain ⟨h1, h2, h3, hb, hwl, hnw, hpl⟩ := at_facts h
  obtain ⟨hctx, hra⟩ := h
  rw [finish_eq _ _ _ _ hcls, raise_eq, modWv_modWv, State.modWv_clk]
  cases g with
  | false =>
    have hst : (c.writeD false d n val s).modWv c.b c.w (fun v => issuedWave c y i.lits (c.writeD false d n val s).clk
          (if v.ra.isSome then v else { v with fflags := applyRaised v.fflags v.fctrl raised })) =
        (s.modBlk c.b fun k => { k with v := vWrites c d.toNat n val k.v }).modWv c.b c.w (resWave c y i.lits s.clk raised) := rfl
    rw [hst]
    obtain ⟨hF, hv, hwv⟩ := frame_of s c hh y (c.nextPos i.lits) (vWrites c d.toNat n val) (resWave c y i.lits s.clk raised)
      (by rw [resWave_eq _ _ _ _ _ _ hra]; rfl)
      (fun p hp => resWave_path_ne _ _ _ _ _ _ hra p hp)
      (by rw [resWave_path _ _ _ _ _ _ hra hpl, h3])
    refine ⟨hF, wroteV_of _ _ _ _ _ hnw (hr rfl) hv, ?_, ?_, ?_⟩
    · intro k
      simp only [Ctx.after, Ctx.g, State.ctxAt, hwv, resWave_path _ _ _ _ _ _ hra hpl, h3]
      rw [resWave_eq _ _ _ _ _ _ hra]; rfl
    · rw [SameQ, hwv, resWave_eq _ _ _ _ _ _ hra]; rfl
    · rw [hwv, resWave_eq _ _ _ _ _ _ hra]; rfl
  | true =>
    obtain ⟨gm, e, hge⟩ := gWaves_frame c d.toNat n (val 0) c.wv
    have hgo := gOf_gWaves c d.toNat n (val 0) c.wv hpl
    have hst : (c.writeD true d n val s).modWv c.b c.w (fun v => issuedWave c y i.lits (c.writeD true d n val s).clk
          (if v.ra.isSome then v else { v with fflags := applyRaised v.fflags v.fctrl raised })) =
        (s.modBlk c.b fun k => { k with v := id k.v }).modWv c.b c.w fun v =>
          resWave c y i.lits s.clk raised ((List.range n).foldl (fun v j => gWave c (d.toNat + j) (val 0 j) v) v) := by
      rw [modBlk_id]
      simp only [Ctx.writeD, if_true, writeGs_eq, modWv_modWv, State.modWv_clk]
      rfl
    rw [hst]
    have hur : ((List.range n).foldl (fun v j => gWave c (d.toNat + j) (val 0 j) v) c.wv).ra = none := by rw [hge]; exact hra
    have hul : c.p < ((List.range n).foldl (fun v j => gWave c (d.toNat + j) (val 0 j) v) c.wv).paths.length := by
      rw [hge]; simpa using hpl
    have hup : { ((List.range n).foldl (fun v j => gWave c (d.toNat + j) (val 0 j) v) c.wv).path c.p with exm := c.pa.exm } = c.pa := by
      rw [hge]
      show { (c.wv.paths.modify c.p _).getD c.p default with exm := c.pa.exm } = c.pa
      rw [getD_modify, if_pos ⟨rfl, hpl⟩, h3]; rfl
    obtain ⟨hF, hv, hwv⟩ := frame_of s c hh y (c.nextPos i.lits) id
      (fun v => resWave c y i.lits s.clk raised ((List.range n).foldl (fun v j => gWave c (d.toNat + j) (val 0 j) v) v))
      (by simp only [resWave_eq _ _ _ _ _ _ hur]; rw [hge]; rfl)
      (fun p hp => by
        simp only [resWave_path_ne _ _ _ _ _ _ hur p hp]
        rw [hge]
        show (c.wv.paths.modify c.p _).getD p default = _
        rw [getD_modify, if_neg fun x => hp x.1]; rfl)
      (by
        simp only [resWave_path _ _ _ _ _ _ hur hul]
        exact congrArg (fun x : Path =>
          { x with pc := (c.nextPos i.lits).1, cpos := (c.nextPos i.lits).2, phase := 0, blocked := none
                   count := if c.pa.mode = MeldMode.plain then x.count else x.count - 1 }) hup)
    refine ⟨hF, hv, ?_, ?_, ?_⟩
    · intro k
      have e1 : (c.after ((s.modBlk c.b fun k => { k with v := id k.v }).modWv c.b c.w fun v =>
          resWave c y i.lits s.clk raised ((List.range n).foldl (fun v j => gWave c (d.toNat + j) (val 0 j) v) v))).g k =
          gOf c.p k ((List.range n).foldl (fun v j => gWave c (d.toNat + j) (val 0 j) v) c.wv) := by
        simp only [Ctx.after, Ctx.g, State.ctxAt, hwv, resWave_path _ _ _ _ _ _ hur hul, gOf]
        rw [resWave_eq _ _ _ _ _ _ hur]; rfl
      rw [e1, hgo, ← h3]
      simp only [gOf, Ctx.g, h3]
    · simp only [SameQ, hwv, resWave_eq _ _ _ _ _ _ hur]; rw [hge]; rfl
    · rw [hwv, resWave_eq _ _ _ _ _ _ hur]; rw [hge]; rfl

/-- A word that passes the checks names destination registers that the wave has (R42, R358). -/
theorem passes_run {c : Ctx} {i : Instr} {ill : Bool} (h : Passes c i ill) (f : Field) (n : Nat) (e : Bool) (hn : n ≠ 0)
    (hu : Use.vd f n e ∈ (info i).uses) (ln : Nat) (ha : c.active ln = true) : c.vreg ln f.toNat + n ≤ c.B + c.X := by
  have hill : c.ill (info i) = false ∧ c.classErr (info i) = false := by
    unfold Passes Ctx.check at h
    constructor <;> by_contra hc <;> rw [Bool.not_eq_false] at hc
    · simp [hc] at h
    · simp only [hc, if_true] at h
      split_ifs at h
  have hcl := hill.2
  replace hill := hill.1
  unfold Ctx.ill at hill
  simp only [Bool.or_eq_false_iff, List.any_eq_false] at hill
  have := hill.1.1.2 _ hu
  simp only [useRun, Ctx.wordRunIll, hcl, Bool.not_false, Bool.or_true, if_true, Ctx.runIll, Bool.and_eq_true, ne_eq, hn,
    not_false_eq_true, true_and, Bool.or_eq_true, decide_eq_true_eq, List.any_eq_true, not_or, not_exists, not_and] at this
  have hm : c.vreg ln f.toNat ∈ c.bases f.toNat := by
    unfold Ctx.bases
    cases hmode : c.pa.mode with
    | plain => simp [Ctx.vreg, Path.laneSide, hmode]
    | _ =>
      simp only [List.mem_dedup, List.mem_map, List.mem_filter, List.mem_range]
      exact ⟨ln, ⟨active_lt c ln ha, ha⟩, rfl⟩
  have := this.2 _ hm
  omega

/-! ### Results of words, from their bodies -/

/-- Raising no flags changes nothing. -/
theorem raise_zero (c : Ctx) (s : State) : c.raise 0 s = s := by
  rw [raise_eq]
  have : (fun v : Wave => if v.ra.isSome then v else { v with fflags := applyRaised v.fflags v.fctrl 0 }) = fun v => v := by
    funext v; split
    · rfl
    · exact congrArg (fun x => { v with fflags := x }) (applyRaised_zero v.fflags v.fctrl)
  rw [this, modWv_id]

/-- The result of a word whose body raises flags and writes a register run. -/
theorem result_of {i : Instr} {y g : Bool} {d : Field} {n : Nat} {val : Ctx → Nat → Nat → Word} {raised : Ctx → Raised} (e : Bool)
    (hx : ∀ s, exec i s = issue (info i) y s fun c s => .done (c.raise (raised c) (c.writeD g d n (val c) s)))
    (hcls : (info i).cls ≠ 2) (hl : (info i).lits = 0) (hn : n ≠ 0) (hu : g = false → Use.vd d n e ∈ (info i).uses) :
    Result i y g d n val raised := by
  intro s c hat hp
  refine ⟨_, (hx s).trans (issueWith_passes hat false (info i) y (fun _ => false) hp _), ?_⟩
  simpa [hl] using done_of s c hat (info i) y g d n (val c) (raised c) hcls fun hg ln ha => passes_run hp d n e hn (hu hg) ln ha

/-- The result of a word that is an `alu`. -/
theorem result_alu {i : Instr} {y g : Bool} {d : Field} {f val : Ctx → Nat → Word} (hx : ∀ s, exec i s = alu (info i) y g d s f)
    (hcls : (info i).cls ≠ 2) (hl : (info i).lits = 0) (hu : g = false → Use.vd d 1 false ∈ (info i).uses)
    (hv : ∀ c ln, f c ln = val c ln) : Result i y g d 1 (fun c ln _ => val c ln) := by
  refine result_of false (fun s => ?_) hcls hl (by decide) hu
  have : f = val := by funext c ln; exact hv c ln
  rw [hx, alu, this]; simp only [raise_zero]

end Sys2Proof.Machine
end

