-- ==== Sys2Proof/Laws/PerInstr.lean ====
section
/-! SUPPORT. What holds of every instruction as syntax, one lemma per constructor: exactly the rows that have an
instruction word have a class (R45). -/

namespace Sys2Proof.Laws.Code

open Sys2Proof

/-- The instruction has a word exactly where it has a class. -/
def Statement (i : Instr) : Prop := (encodeWord i).isSome = i.cls.isSome

theorem clauseIssue : Statement (.clauseIssue) := rfl
theorem issueArbitration (core unit : Nat) : Statement (.issueArbitration core unit) := rfl
theorem asyncResultReturn (b w op lane : Nat) : Statement (.asyncResultReturn b w op lane) := rfl
theorem storeAcknowledge (b w op : Nat) : Statement (.storeAcknowledge b w op) := rfl
theorem deferredFaultSplit (b w op : Nat) : Statement (.deferredFaultSplit b w op) := rfl
theorem deliveryPoint (b w : Nat) : Statement (.deliveryPoint b w) := rfl
theorem runAheadEnd (b w : Nat) : Statement (.runAheadEnd b w) := rfl
theorem faultRingSpaceFreed (b w : Nat) : Statement (.faultRingSpaceFreed b w) := rfl
theorem replayApply (core : Nat) : Statement (.replayApply core) := rfl
theorem faultPathResume (b w p : Nat) : Statement (.faultPathResume b w p) := rfl
theorem translationWalk (world ia : Nat) (store : Bool) : Statement (.translationWalk world ia store) := rfl
theorem l2Request (b w op lane : Nat) : Statement (.l2Request b w op lane) := rfl
theorem ownedLineServe (line : Nat) : Statement (.ownedLineServe line) := rfl
theorem wayWakeComplete (slice way : Nat) : Statement (.wayWakeComplete slice way) := rfl
theorem bankWakeComplete (core bank : Nat) : Statement (.bankWakeComplete core bank) := rfl
theorem copySegmentStart (b w c : Nat) : Statement (.copySegmentStart b w c) := rfl
theorem pinRetry (b w c : Nat) : Statement (.pinRetry b w c) := rfl
theorem copySegmentMove (b w c : Nat) : Statement (.copySegmentMove b w c) := rfl
theorem copySegmentComplete (b w c : Nat) : Statement (.copySegmentComplete b w c) := rfl
theorem batchComplete (b w : Nat) : Statement (.batchComplete b w) := rfl
theorem saddleRelease (core : Nat) : Statement (.saddleRelease core) := rfl
theorem matrixOpApply (core : Nat) : Statement (.matrixOpApply core) := rfl
theorem feedbackReportAppend (core : Nat) : Statement (.feedbackReportAppend core) := rfl
theorem tokenNotice (core : Nat) : Statement (.tokenNotice core) := rfl
theorem resourceRelease (b : Nat) : Statement (.resourceRelease b) := rfl
theorem blockDispatch (world : Nat) (cores : List Nat) : Statement (.blockDispatch world cores) := rfl
theorem launchComplete (l : Nat) : Statement (.launchComplete l) := rfl
theorem counterArrive (world : Nat) : Statement (.counterArrive world) := rfl
theorem gridLatchReply (b w : Nat) : Statement (.gridLatchReply b w) := rfl
theorem cancelFinish (c : Nat) : Statement (.cancelFinish c) := rfl
theorem queueDoorbell (vf q : Nat) (tail : BitVec 32) : Statement (.queueDoorbell vf q tail) := rfl
theorem queueConfigWrite (vf q : Nat) (cap : Bool) (value : BitVec 64) : Statement (.queueConfigWrite vf q cap value) := rfl
theorem registerWrite (vf off : Nat) (value : BitVec 32) : Statement (.registerWrite vf off value) := rfl
theorem cpSlotRead (vf q : Nat) (slot : SlotRead) : Statement (.cpSlotRead vf q slot) := rfl
theorem tdispStop (vf : Nat) : Statement (.tdispStop vf) := rfl
theorem tdiRunResume (vf : Nat) : Statement (.tdiRunResume vf) := rfl
theorem ideIntegrityFailure (vf : Nat) : Statement (.ideIntegrityFailure vf) := rfl
theorem flitTagFailure (port : Nat) (carried : List (Nat × Nat × Nat × Nat)) : Statement (.flitTagFailure port carried) := rfl
theorem inboundAccess (peer : Bool) (unit world pa : Nat) (act : InAct) : Statement (.inboundAccess peer unit world pa act) := rfl
theorem portCasLoop (b w op lane : Nat) (success : Bool) : Statement (.portCasLoop b w op lane success) := rfl
theorem stageEnqueue (b w op : Nat) : Statement (.stageEnqueue b w op) := rfl
theorem stageClosedPoll (l : Nat) : Statement (.stageClosedPoll l) := rfl
theorem stageCoreDivision (ridge : Nat) : Statement (.stageCoreDivision ridge) := rfl
theorem displaceBlock (b : Nat) : Statement (.displaceBlock b) := rfl
theorem preemptSave (b : Nat) : Statement (.preemptSave b) := rfl
theorem blockRestore (b core : Nat) : Statement (.blockRestore b core) := rfl
theorem waitcycleProbeSend (b w : Nat) : Statement (.waitcycleProbeSend b w) := rfl
theorem waitcycleProbeReceive : Statement (.waitcycleProbeReceive) := rfl
theorem sleepEnd (b w : Nat) : Statement (.sleepEnd b w) := rfl
theorem slotEntryEdge : Statement (.slotEntryEdge) := rfl
theorem shutterDrainComplete (ridge : Nat) : Statement (.shutterDrainComplete ridge) := rfl
theorem drainBudgetExpiry (ridge : Nat) : Statement (.drainBudgetExpiry ridge) := rfl
theorem sealComplete (ridge : Nat) : Statement (.sealComplete ridge) := rfl
theorem scrubComplete (ridge : Nat) : Statement (.scrubComplete ridge) := rfl
theorem thermalWarning (die : Nat) : Statement (.thermalWarning die) := rfl
theorem thermalShutter (die : Nat) : Statement (.thermalShutter die) := rfl
theorem thermalResume : Statement (.thermalResume) := rfl
theorem thermalPowerRemove (die : Nat) : Statement (.thermalPowerRemove die) := rfl
theorem powerOn (how : BootEnd) (fw cfg shethar : List (BitVec 8)) : Statement (.powerOn how fw cfg shethar) := rfl
theorem warmReset (how : BootEnd) (fw cfg shethar : List (BitVec 8)) : Statement (.warmReset how fw cfg shethar) := rfl
theorem wcreate (w : Nat) (rec : BitVec 4096) : Statement (.wcreate w rec) := rfl
theorem wset (w : Nat) (rec : BitVec 4096) : Statement (.wset w rec) := rfl
theorem wdestroy (w : Nat) : Statement (.wdestroy w) := rfl
theorem slots (table : List (BitVec 512)) : Statement (.slots table) := rfl
theorem heap (hslots heapia otia objcount clockw : Nat) : Statement (.heap hslots heapia otia objcount clockw) := rfl
theorem objset (h : Nat) (rec : BitVec 256) : Statement (.objset h rec) := rfl
theorem objclr (h : Nat) : Statement (.objclr h) := rfl
theorem route (p : Nat) (ports : List Nat) : Statement (.route p ports) := rfl
theorem gate (bank : Bool) (unit sub : Nat) (on : Bool) : Statement (.gate bank unit sub on) := rfl
theorem events (offset : BitVec 32) : Statement (.events offset) := rfl
theorem eventsUnfreeze : Statement (.eventsUnfreeze) := rfl
theorem measurementRequest (index : Nat) : Statement (.measurementRequest index) := rfl
theorem mextRequest (y g : Bool) (d : BitVec 7) : Statement (.mextRequest y g d) := rfl
theorem mextResponse (world : Nat) : Statement (.mextResponse world) := rfl
theorem clkloRead (y g : Bool) (d : BitVec 7) : Statement (.clkloRead y g d) := rfl
theorem debugAttach (b w op lane : Nat) : Statement (.debugAttach b w op lane) := rfl
theorem profilingControlWrite (b w op lane : Nat) : Statement (.profilingControlWrite b w op lane) := rfl
theorem traceSample (l : Nat) : Statement (.traceSample l) := rfl
theorem dbghaltApply (core : Nat) : Statement (.dbghaltApply core) := rfl
theorem migrDemote (world : Nat) : Statement (.migrDemote world) := rfl
theorem migrPromote (world : Nat) : Statement (.migrPromote world) := rfl
theorem migrCopyf (world : Nat) : Statement (.migrCopyf world) := rfl
theorem migrMapset (world : Nat) : Statement (.migrMapset world) := rfl
theorem migrMapclr (world : Nat) : Statement (.migrMapclr world) := rfl
theorem invrAcknowledge (b w op : Nat) : Statement (.invrAcknowledge b w op) := rfl
theorem add (y : Bool) (g : Bool) (d : BitVec 7) (a : BitVec 7) (b : BitVec 7) : Statement (.add y g d a b) := rfl
theorem sub (y : Bool) (g : Bool) (d : BitVec 7) (a : BitVec 7) (b : BitVec 7) : Statement (.sub y g d a b) := rfl
theorem minS (y : Bool) (g : Bool) (d : BitVec 7) (a : BitVec 7) (b : BitVec 7) : Statement (.minS y g d a b) := rfl
theorem minN (y : Bool) (g : Bool) (d : BitVec 7) (a : BitVec 7) (b : BitVec 7) : Statement (.minN y g d a b) := rfl
theorem maxS (y : Bool) (g : Bool) (d : BitVec 7) (a : BitVec 7) (b : BitVec 7) : Statement (.maxS y g d a b) := rfl
theorem maxN (y : Bool) (g : Bool) (d : BitVec 7) (a : BitVec 7) (b : BitVec 7) : Statement (.maxN y g d a b) := rfl
theorem absdS (y : Bool) (g : Bool) (d : BitVec 7) (a : BitVec 7) (b : BitVec 7) : Statement (.absdS y g d a b) := rfl
theorem neg (y : Bool) (g : Bool) (d : BitVec 7) (a : BitVec 7) : Statement (.neg y g d a) := rfl
theorem and_ (y : Bool) (g : Bool) (d : BitVec 7) (a : BitVec 7) (b : BitVec 7) : Statement (.and_ y g d a b) := rfl
theorem or_ (y : Bool) (g : Bool) (d : BitVec 7) (a : BitVec 7) (b : BitVec 7) : Statement (.or_ y g d a b) := rfl
theorem xor (y : Bool) (g : Bool) (d : BitVec 7) (a : BitVec 7) (b : BitVec 7) : Statement (.xor y g d a b) := rfl
theorem andn (y : Bool) (g : Bool) (d : BitVec 7) (a : BitVec 7) (b : BitVec 7) : Statement (.andn y g d a b) := rfl
theorem orn (y : Bool) (g : Bool) (d : BitVec 7) (a : BitVec 7) (b : BitVec 7) : Statement (.orn y g d a b) := rfl
theorem xnor (y : Bool) (g : Bool) (d : BitVec 7) (a : BitVec 7) (b : BitVec 7) : Statement (.xnor y g d a b) := rfl
theorem not_ (y : Bool) (g : Bool) (d : BitVec 7) (a : BitVec 7) : Statement (.not_ y g d a) := rfl
theorem shl (y : Bool) (g : Bool) (d : BitVec 7) (a : BitVec 7) (b : BitVec 7) : Statement (.shl y g d a b) := rfl
theorem shr (y : Bool) (g : Bool) (d : BitVec 7) (a : BitVec 7) (b : BitVec 7) : Statement (.shr y g d a b) := rfl
theorem sar (y : Bool) (g : Bool) (d : BitVec 7) (a : BitVec 7) (b : BitVec 7) : Statement (.sar y g d a b) := rfl
theorem rol (y : Bool) (g : Bool) (d : BitVec 7) (a : BitVec 7) (b : BitVec 7) : Statement (.rol y g d a b) := rfl
theorem ror (y : Bool) (g : Bool) (d : BitVec 7) (a : BitVec 7) (b : BitVec 7) : Statement (.ror y g d a b) := rfl
theorem shlW (y : Bool) (g : Bool) (d : BitVec 7) (a : BitVec 7) (b : BitVec 7) : Statement (.shlW y g d a b) := rfl
theorem shrW (y : Bool) (g : Bool) (d : BitVec 7) (a : BitVec 7) (b : BitVec 7) : Statement (.shrW y g d a b) := rfl
theorem sarW (y : Bool) (g : Bool) (d : BitVec 7) (a : BitVec 7) (b : BitVec 7) : Statement (.sarW y g d a b) := rfl
theorem mul (y : Bool) (g : Bool) (d : BitVec 7) (a : BitVec 7) (b : BitVec 7) : Statement (.mul y g d a b) := rfl
theorem mulhS (y : Bool) (g : Bool) (d : BitVec 7) (a : BitVec 7) (b : BitVec 7) : Statement (.mulhS y g d a b) := rfl
theorem mulhN (y : Bool) (g : Bool) (d : BitVec 7) (a : BitVec 7) (b : BitVec 7) : Statement (.mulhN y g d a b) := rfl
theorem mad (y : Bool) (g : Bool) (d : BitVec 7) (a : BitVec 7) (b : BitVec 7) : Statement (.mad y g d a b) := rfl
theorem mulwS (y : Bool) (g : Bool) (d : BitVec 7) (a : BitVec 7) (b : BitVec 7) : Statement (.mulwS y g d a b) := rfl
theorem mulwN (y : Bool) (g : Bool) (d : BitVec 7) (a : BitVec 7) (b : BitVec 7) : Statement (.mulwN y g d a b) := rfl
theorem madwS (y : Bool) (g : Bool) (d : BitVec 7) (a : BitVec 7) (b : BitVec 7) : Statement (.madwS y g d a b) := rfl
theorem madwN (y : Bool) (g : Bool) (d : BitVec 7) (a : BitVec 7) (b : BitVec 7) : Statement (.madwN y g d a b) := rfl
theorem popc (y : Bool) (g : Bool) (d : BitVec 7) (a : BitVec 7) : Statement (.popc y g d a) := rfl
theorem clz (y : Bool) (g : Bool) (d : BitVec 7) (a : BitVec 7) : Statement (.clz y g d a) := rfl
theorem ctz (y : Bool) (g : Bool) (d : BitVec 7) (a : BitVec 7) : Statement (.ctz y g d a) := rfl
theorem brev (y : Bool) (g : Bool) (d : BitVec 7) (a : BitVec 7) : Statement (.brev y g d a) := rfl
theorem bfeS (y : Bool) (g : Bool) (d : BitVec 7) (a : BitVec 7) (b : BitVec 7) : Statement (.bfeS y g d a b) := rfl
theorem bfeZ (y : Bool) (g : Bool) (d : BitVec 7) (a : BitVec 7) (b : BitVec 7) : Statement (.bfeZ y g d a b) := rfl
theorem bfi (y : Bool) (g : Bool) (d : BitVec 7) (a : BitVec 7) (b : BitVec 7) : Statement (.bfi y g d a b) := rfl
theorem prmt (y : Bool) (g : Bool) (d : BitVec 7) (a : BitVec 7) (b : BitVec 7) : Statement (.prmt y g d a b) := rfl
theorem icmpEq (y : Bool) (g : Bool) (d : BitVec 7) (a : BitVec 7) (b : BitVec 7) : Statement (.icmpEq y g d a b) := rfl
theorem icmpNe (y : Bool) (g : Bool) (d : BitVec 7) (a : BitVec 7) (b : BitVec 7) : Statement (.icmpNe y g d a b) := rfl
theorem icmpLtS (y : Bool) (g : Bool) (d : BitVec 7) (a : BitVec 7) (b : BitVec 7) : Statement (.icmpLtS y g d a b) := rfl
theorem icmpLeS (y : Bool) (g : Bool) (d : BitVec 7) (a : BitVec 7) (b : BitVec 7) : Statement (.icmpLeS y g d a b) := rfl
theorem icmpLtN (y : Bool) (g : Bool) (d : BitVec 7) (a : BitVec 7) (b : BitVec 7) : Statement (.icmpLtN y g d a b) := rfl
theorem icmpLeN (y : Bool) (g : Bool) (d : BitVec 7) (a : BitVec 7) (b : BitVec 7) : Statement (.icmpLeN y g d a b) := rfl
theorem icmpTest (y : Bool) (g : Bool) (d : BitVec 7) (a : BitVec 7) (b : BitVec 7) : Statement (.icmpTest y g d a b) := rfl
theorem add64 (y : Bool) (g : Bool) (d : BitVec 7) (a : BitVec 7) (b : BitVec 7) : Statement (.add64 y g d a b) := rfl
theorem sub64 (y : Bool) (g : Bool) (d : BitVec 7) (a : BitVec 7) (b : BitVec 7) : Statement (.sub64 y g d a b) := rfl
theorem lea2 (y : Bool) (g : Bool) (d : BitVec 7) (a : BitVec 7) (b : BitVec 7) : Statement (.lea2 y g d a b) := rfl
theorem lea4 (y : Bool) (g : Bool) (d : BitVec 7) (a : BitVec 7) (b : BitVec 7) : Statement (.lea4 y g d a b) := rfl
theorem lea8 (y : Bool) (g : Bool) (d : BitVec 7) (a : BitVec 7) (b : BitVec 7) : Statement (.lea8 y g d a b) := rfl
theorem lea16 (y : Bool) (g : Bool) (d : BitVec 7) (a : BitVec 7) (b : BitVec 7) : Statement (.lea16 y g d a b) := rfl
theorem sext8 (y : Bool) (g : Bool) (d : BitVec 7) (a : BitVec 7) : Statement (.sext8 y g d a) := rfl
theorem sext16 (y : Bool) (g : Bool) (d : BitVec 7) (a : BitVec 7) : Statement (.sext16 y g d a) := rfl
theorem zext8 (y : Bool) (g : Bool) (d : BitVec 7) (a : BitVec 7) : Statement (.zext8 y g d a) := rfl
theorem zext16 (y : Bool) (g : Bool) (d : BitVec 7) (a : BitVec 7) : Statement (.zext16 y g d a) := rfl
theorem sext32 (y : Bool) (g : Bool) (d : BitVec 7) (a : BitVec 7) : Statement (.sext32 y g d a) := rfl
theorem zext32 (y : Bool) (g : Bool) (d : BitVec 7) (a : BitVec 7) : Statement (.zext32 y g d a) := rfl
theorem trunc64 (y : Bool) (g : Bool) (d : BitVec 7) (a : BitVec 7) : Statement (.trunc64 y g d a) := rfl
theorem fadd (y : Bool) (g : Bool) (d : BitVec 7) (a : BitVec 7) (b : BitVec 7) : Statement (.fadd y g d a b) := rfl
theorem fsub (y : Bool) (g : Bool) (d : BitVec 7) (a : BitVec 7) (b : BitVec 7) : Statement (.fsub y g d a b) := rfl
theorem fmul (y : Bool) (g : Bool) (d : BitVec 7) (a : BitVec 7) (b : BitVec 7) : Statement (.fmul y g d a b) := rfl
theorem fmin (y : Bool) (g : Bool) (d : BitVec 7) (a : BitVec 7) (b : BitVec 7) : Statement (.fmin y g d a b) := rfl
theorem fmax (y : Bool) (g : Bool) (d : BitVec 7) (a : BitVec 7) (b : BitVec 7) : Statement (.fmax y g d a b) := rfl
theorem fminn (y : Bool) (g : Bool) (d : BitVec 7) (a : BitVec 7) (b : BitVec 7) : Statement (.fminn y g d a b) := rfl
theorem fmaxn (y : Bool) (g : Bool) (d : BitVec 7) (a : BitVec 7) (b : BitVec 7) : Statement (.fmaxn y g d a b) := rfl
theorem fcopysign (y : Bool) (g : Bool) (d : BitVec 7) (a : BitVec 7) (b : BitVec 7) : Statement (.fcopysign y g d a b) := rfl
theorem fma (y : Bool) (d : BitVec 7) (a : BitVec 7) (b : BitVec 7) : Statement (.fma y d a b) := rfl
theorem fms (y : Bool) (d : BitVec 7) (a : BitVec 7) (b : BitVec 7) : Statement (.fms y d a b) := rfl
theorem fnma (y : Bool) (d : BitVec 7) (a : BitVec 7) (b : BitVec 7) : Statement (.fnma y d a b) := rfl
theorem fnms (y : Bool) (d : BitVec 7) (a : BitVec 7) (b : BitVec 7) : Statement (.fnms y d a b) := rfl
theorem fmaF64 (y : Bool) (d : BitVec 7) (a : BitVec 7) (b : BitVec 7) : Statement (.fmaF64 y d a b) := rfl
theorem fmsF64 (y : Bool) (d : BitVec 7) (a : BitVec 7) (b : BitVec 7) : Statement (.fmsF64 y d a b) := rfl
theorem fnmaF64 (y : Bool) (d : BitVec 7) (a : BitVec 7) (b : BitVec 7) : Statement (.fnmaF64 y d a b) := rfl
theorem fnmsF64 (y : Bool) (d : BitVec 7) (a : BitVec 7) (b : BitVec 7) : Statement (.fnmsF64 y d a b) := rfl
theorem hadd2F16 (y : Bool) (d : BitVec 7) (a : BitVec 7) (b : BitVec 7) : Statement (.hadd2F16 y d a b) := rfl
theorem hmul2F16 (y : Bool) (d : BitVec 7) (a : BitVec 7) (b : BitVec 7) : Statement (.hmul2F16 y d a b) := rfl
theorem hfma2F16 (y : Bool) (d : BitVec 7) (a : BitVec 7) (b : BitVec 7) : Statement (.hfma2F16 y d a b) := rfl
theorem hadd2Bf16 (y : Bool) (d : BitVec 7) (a : BitVec 7) (b : BitVec 7) : Statement (.hadd2Bf16 y d a b) := rfl
theorem hmul2Bf16 (y : Bool) (d : BitVec 7) (a : BitVec 7) (b : BitVec 7) : Statement (.hmul2Bf16 y d a b) := rfl
theorem hfma2Bf16 (y : Bool) (d : BitVec 7) (a : BitVec 7) (b : BitVec 7) : Statement (.hfma2Bf16 y d a b) := rfl
theorem hmin2F16 (y : Bool) (d : BitVec 7) (a : BitVec 7) (b : BitVec 7) : Statement (.hmin2F16 y d a b) := rfl
theorem hmax2F16 (y : Bool) (d : BitVec 7) (a : BitVec 7) (b : BitVec 7) : Statement (.hmax2F16 y d a b) := rfl
theorem feq (y : Bool) (d : BitVec 7) (a : BitVec 7) (b : BitVec 7) : Statement (.feq y d a b) := rfl
theorem fne (y : Bool) (d : BitVec 7) (a : BitVec 7) (b : BitVec 7) : Statement (.fne y d a b) := rfl
theorem flt (y : Bool) (d : BitVec 7) (a : BitVec 7) (b : BitVec 7) : Statement (.flt y d a b) := rfl
theorem fle (y : Bool) (d : BitVec 7) (a : BitVec 7) (b : BitVec 7) : Statement (.fle y d a b) := rfl
theorem feqF64 (y : Bool) (d : BitVec 7) (a : BitVec 7) (b : BitVec 7) : Statement (.feqF64 y d a b) := rfl
theorem fltF64 (y : Bool) (d : BitVec 7) (a : BitVec 7) (b : BitVec 7) : Statement (.fltF64 y d a b) := rfl
theorem fleF64 (y : Bool) (d : BitVec 7) (a : BitVec 7) (b : BitVec 7) : Statement (.fleF64 y d a b) := rfl
theorem rcp (y : Bool) (g : Bool) (d : BitVec 7) (a : BitVec 7) : Statement (.rcp y g d a) := rfl
theorem rsq (y : Bool) (g : Bool) (d : BitVec 7) (a : BitVec 7) : Statement (.rsq y g d a) := rfl
theorem sqrt (y : Bool) (g : Bool) (d : BitVec 7) (a : BitVec 7) : Statement (.sqrt y g d a) := rfl
theorem exp2 (y : Bool) (g : Bool) (d : BitVec 7) (a : BitVec 7) : Statement (.exp2 y g d a) := rfl
theorem log2 (y : Bool) (g : Bool) (d : BitVec 7) (a : BitVec 7) : Statement (.log2 y g d a) := rfl
theorem sinpi (y : Bool) (g : Bool) (d : BitVec 7) (a : BitVec 7) : Statement (.sinpi y g d a) := rfl
theorem cospi (y : Bool) (g : Bool) (d : BitVec 7) (a : BitVec 7) : Statement (.cospi y g d a) := rfl
theorem tanh (y : Bool) (g : Bool) (d : BitVec 7) (a : BitVec 7) : Statement (.tanh y g d a) := rfl
theorem cvtF32S32 (y : Bool) (g : Bool) (d : BitVec 7) (a : BitVec 7) (s : BitVec 1) (m : BitVec 3) : Statement (.cvtF32S32 y g d a s m) := rfl
theorem cvtF32N32 (y : Bool) (g : Bool) (d : BitVec 7) (a : BitVec 7) (s : BitVec 1) (m : BitVec 3) : Statement (.cvtF32N32 y g d a s m) := rfl
theorem cvtS32F32 (y : Bool) (g : Bool) (d : BitVec 7) (a : BitVec 7) (s : BitVec 1) (m : BitVec 3) : Statement (.cvtS32F32 y g d a s m) := rfl
theorem cvtN32F32 (y : Bool) (g : Bool) (d : BitVec 7) (a : BitVec 7) (s : BitVec 1) (m : BitVec 3) : Statement (.cvtN32F32 y g d a s m) := rfl
theorem cvtF64F32 (y : Bool) (g : Bool) (d : BitVec 7) (a : BitVec 7) (s : BitVec 1) (m : BitVec 3) : Statement (.cvtF64F32 y g d a s m) := rfl
theorem cvtF32F64 (y : Bool) (g : Bool) (d : BitVec 7) (a : BitVec 7) (s : BitVec 1) (m : BitVec 3) : Statement (.cvtF32F64 y g d a s m) := rfl
theorem cvtF64S32 (y : Bool) (g : Bool) (d : BitVec 7) (a : BitVec 7) (s : BitVec 1) (m : BitVec 3) : Statement (.cvtF64S32 y g d a s m) := rfl
theorem cvtS32F64 (y : Bool) (g : Bool) (d : BitVec 7) (a : BitVec 7) (s : BitVec 1) (m : BitVec 3) : Statement (.cvtS32F64 y g d a s m) := rfl
theorem faddF64 (y : Bool) (d : BitVec 7) (a : BitVec 7) (b : BitVec 7) : Statement (.faddF64 y d a b) := rfl
theorem fsubF64 (y : Bool) (d : BitVec 7) (a : BitVec 7) (b : BitVec 7) : Statement (.fsubF64 y d a b) := rfl
theorem fmulF64 (y : Bool) (d : BitVec 7) (a : BitVec 7) (b : BitVec 7) : Statement (.fmulF64 y d a b) := rfl
theorem fminF64 (y : Bool) (d : BitVec 7) (a : BitVec 7) (b : BitVec 7) : Statement (.fminF64 y d a b) := rfl
theorem fmaxF64 (y : Bool) (d : BitVec 7) (a : BitVec 7) (b : BitVec 7) : Statement (.fmaxF64 y d a b) := rfl
theorem frndF32 (y : Bool) (d : BitVec 7) (a : BitVec 7) (m : BitVec 3) : Statement (.frndF32 y d a m) := rfl
theorem frndF64 (y : Bool) (d : BitVec 7) (a : BitVec 7) (m : BitVec 3) : Statement (.frndF64 y d a m) := rfl
theorem packF16 (y : Bool) (d : BitVec 7) (a : BitVec 7) (b : BitVec 7) : Statement (.packF16 y d a b) := rfl
theorem packBf16 (y : Bool) (d : BitVec 7) (a : BitVec 7) (b : BitVec 7) : Statement (.packBf16 y d a b) := rfl
theorem dot2F16 (y : Bool) (d : BitVec 7) (a : BitVec 7) (b : BitVec 7) : Statement (.dot2F16 y d a b) := rfl
theorem dot2Bf16 (y : Bool) (d : BitVec 7) (a : BitVec 7) (b : BitVec 7) : Statement (.dot2Bf16 y d a b) := rfl
theorem dot4E4m3 (y : Bool) (d : BitVec 7) (a : BitVec 7) (b : BitVec 7) : Statement (.dot4E4m3 y d a b) := rfl
theorem dot4E5m2 (y : Bool) (d : BitVec 7) (a : BitVec 7) (b : BitVec 7) : Statement (.dot4E5m2 y d a b) := rfl
theorem dot4S8 (y : Bool) (d : BitVec 7) (a : BitVec 7) (b : BitVec 7) : Statement (.dot4S8 y d a b) := rfl
theorem dot4Z8 (y : Bool) (d : BitVec 7) (a : BitVec 7) (b : BitVec 7) : Statement (.dot4Z8 y d a b) := rfl
theorem cvtbE4m3 (y : Bool) (d : BitVec 7) (a : BitVec 7) (s : BitVec 1) (m : BitVec 3) : Statement (.cvtbE4m3 y d a s m) := rfl
theorem cvtbE5m2 (y : Bool) (d : BitVec 7) (a : BitVec 7) (s : BitVec 1) (m : BitVec 3) : Statement (.cvtbE5m2 y d a s m) := rfl
theorem cvtbE2m3 (y : Bool) (d : BitVec 7) (a : BitVec 7) (s : BitVec 1) (m : BitVec 3) : Statement (.cvtbE2m3 y d a s m) := rfl
theorem cvtbE3m2 (y : Bool) (d : BitVec 7) (a : BitVec 7) (s : BitVec 1) (m : BitVec 3) : Statement (.cvtbE3m2 y d a s m) := rfl
theorem cvtbE2m1 (y : Bool) (d : BitVec 7) (a : BitVec 7) (s : BitVec 1) (m : BitVec 3) : Statement (.cvtbE2m1 y d a s m) := rfl
theorem xcvtE4m3 (y : Bool) (d : BitVec 7) (a : BitVec 7) (f : BitVec 2) : Statement (.xcvtE4m3 y d a f) := rfl
theorem xcvtE5m2 (y : Bool) (d : BitVec 7) (a : BitVec 7) (f : BitVec 2) : Statement (.xcvtE5m2 y d a f) := rfl
theorem xcvtE2m1 (y : Bool) (d : BitVec 7) (a : BitVec 7) (f : BitVec 2) : Statement (.xcvtE2m1 y d a f) := rfl
theorem addi (y : Bool) (g : Bool) (d : BitVec 7) (a : BitVec 7) (i : BitVec 10) : Statement (.addi y g d a i) := rfl
theorem andi (y : Bool) (g : Bool) (d : BitVec 7) (a : BitVec 7) (i : BitVec 10) : Statement (.andi y g d a i) := rfl
theorem ori (y : Bool) (g : Bool) (d : BitVec 7) (a : BitVec 7) (i : BitVec 10) : Statement (.ori y g d a i) := rfl
theorem movi (y : Bool) (g : Bool) (d : BitVec 7) (i : BitVec 17) : Statement (.movi y g d i) := rfl
theorem lit32 (y : Bool) (g : Bool) (d : BitVec 7) : Statement (.lit32 y g d) := rfl
theorem lit64 (y : Bool) (g : Bool) (d : BitVec 7) : Statement (.lit64 y g d) := rfl
theorem shli (y : Bool) (g : Bool) (d : BitVec 7) (a : BitVec 7) (s : BitVec 6) : Statement (.shli y g d a s) := rfl
theorem shri (y : Bool) (g : Bool) (d : BitVec 7) (a : BitVec 7) (s : BitVec 6) : Statement (.shri y g d a s) := rfl
theorem sari (y : Bool) (g : Bool) (d : BitVec 7) (a : BitVec 7) (s : BitVec 6) : Statement (.sari y g d a s) := rfl
theorem roli (y : Bool) (g : Bool) (d : BitVec 7) (a : BitVec 7) (s : BitVec 6) : Statement (.roli y g d a s) := rfl
theorem rori (y : Bool) (g : Bool) (d : BitVec 7) (a : BitVec 7) (s : BitVec 6) : Statement (.rori y g d a s) := rfl
theorem shlWi (y : Bool) (g : Bool) (d : BitVec 7) (a : BitVec 7) (s : BitVec 6) : Statement (.shlWi y g d a s) := rfl
theorem shrWi (y : Bool) (g : Bool) (d : BitVec 7) (a : BitVec 7) (s : BitVec 6) : Statement (.shrWi y g d a s) := rfl
theorem sarWi (y : Bool) (g : Bool) (d : BitVec 7) (a : BitVec 7) (s : BitVec 6) : Statement (.sarWi y g d a s) := rfl
theorem shflIdx (y : Bool) (d : BitVec 7) (a : BitVec 7) (b : BitVec 7) : Statement (.shflIdx y d a b) := rfl
theorem shflUp (y : Bool) (d : BitVec 7) (a : BitVec 7) (b : BitVec 7) : Statement (.shflUp y d a b) := rfl
theorem shflDn (y : Bool) (d : BitVec 7) (a : BitVec 7) (b : BitVec 7) : Statement (.shflDn y d a b) := rfl
theorem shflXor (y : Bool) (d : BitVec 7) (a : BitVec 7) (b : BitVec 7) : Statement (.shflXor y d a b) := rfl
theorem bcast (y : Bool) (d : BitVec 7) (a : BitVec 7) : Statement (.bcast y d a) := rfl
theorem vset (y : Bool) (d : BitVec 7) (a : BitVec 4) : Statement (.vset y d a) := rfl
theorem redadd (y : Bool) (d : BitVec 7) (a : BitVec 7) : Statement (.redadd y d a) := rfl
theorem redmaxS (y : Bool) (d : BitVec 7) (a : BitVec 7) : Statement (.redmaxS y d a) := rfl
theorem mpopc (y : Bool) (d : BitVec 7) (a : BitVec 7) : Statement (.mpopc y d a) := rfl
theorem mffs (y : Bool) (d : BitVec 7) (a : BitVec 7) : Statement (.mffs y d a) := rfl
theorem mfls (y : Bool) (d : BitVec 7) (a : BitVec 7) : Statement (.mfls y d a) := rfl
theorem mtest (y : Bool) (d : BitVec 3) (a : BitVec 7) (b : BitVec 7) : Statement (.mtest y d a b) := rfl
theorem qand (y : Bool) (d : BitVec 3) (a : BitVec 3) (b : BitVec 3) : Statement (.qand y d a b) := rfl
theorem qor (y : Bool) (d : BitVec 3) (a : BitVec 3) (b : BitVec 3) : Statement (.qor y d a b) := rfl
theorem qxor (y : Bool) (d : BitVec 3) (a : BitVec 3) (b : BitVec 3) : Statement (.qxor y d a b) := rfl
theorem qnot (y : Bool) (d : BitVec 3) (a : BitVec 3) : Statement (.qnot y d a) := rfl
theorem mov (y : Bool) (d : BitVec 7) (a : BitVec 7) : Statement (.mov y d a) := rfl
theorem movg (y : Bool) (d : BitVec 7) (a : BitVec 7) : Statement (.movg y d a) := rfl
theorem movv (y : Bool) (d : BitVec 7) (a : BitVec 7) : Statement (.movv y d a) := rfl
theorem movq (y : Bool) (d : BitVec 3) (a : BitVec 7) : Statement (.movq y d a) := rfl
theorem qmov (y : Bool) (d : BitVec 7) (a : BitVec 3) : Statement (.qmov y d a) := rfl
theorem ldS8 (y : Bool) (g : Bool) (d : BitVec 7) (a : BitVec 7) (r : BitVec 7) : Statement (.ldS8 y g d a r) := rfl
theorem ldZ8 (y : Bool) (g : Bool) (d : BitVec 7) (a : BitVec 7) (r : BitVec 7) : Statement (.ldZ8 y g d a r) := rfl
theorem ldS16 (y : Bool) (g : Bool) (d : BitVec 7) (a : BitVec 7) (r : BitVec 7) : Statement (.ldS16 y g d a r) := rfl
theorem ldZ16 (y : Bool) (g : Bool) (d : BitVec 7) (a : BitVec 7) (r : BitVec 7) : Statement (.ldZ16 y g d a r) := rfl
theorem ld32 (y : Bool) (g : Bool) (d : BitVec 7) (a : BitVec 7) (r : BitVec 7) : Statement (.ld32 y g d a r) := rfl
theorem ld64 (y : Bool) (g : Bool) (d : BitVec 7) (a : BitVec 7) (r : BitVec 7) : Statement (.ld64 y g d a r) := rfl
theorem ld128 (y : Bool) (g : Bool) (d : BitVec 7) (a : BitVec 7) (r : BitVec 7) : Statement (.ld128 y g d a r) := rfl
theorem ldE (y : Bool) (g : Bool) (d : BitVec 7) (a : BitVec 7) (r : BitVec 7) : Statement (.ldE y g d a r) := rfl
theorem st8 (y : Bool) (g : Bool) (d : BitVec 7) (a : BitVec 7) (r : BitVec 7) : Statement (.st8 y g d a r) := rfl
theorem st16 (y : Bool) (g : Bool) (d : BitVec 7) (a : BitVec 7) (r : BitVec 7) : Statement (.st16 y g d a r) := rfl
theorem st32 (y : Bool) (g : Bool) (d : BitVec 7) (a : BitVec 7) (r : BitVec 7) : Statement (.st32 y g d a r) := rfl
theorem st64 (y : Bool) (g : Bool) (d : BitVec 7) (a : BitVec 7) (r : BitVec 7) : Statement (.st64 y g d a r) := rfl
theorem st128 (y : Bool) (g : Bool) (d : BitVec 7) (a : BitVec 7) (r : BitVec 7) : Statement (.st128 y g d a r) := rfl
theorem stE (y : Bool) (g : Bool) (d : BitVec 7) (a : BitVec 7) (r : BitVec 7) : Statement (.stE y g d a r) := rfl
theorem atomAdd (y : Bool) (d : BitVec 7) (a : BitVec 7) (s : BitVec 2) (r : BitVec 5) : Statement (.atomAdd y d a s r) := rfl
theorem atomMinS (y : Bool) (d : BitVec 7) (a : BitVec 7) (s : BitVec 2) (r : BitVec 5) : Statement (.atomMinS y d a s r) := rfl
theorem atomMaxS (y : Bool) (d : BitVec 7) (a : BitVec 7) (s : BitVec 2) (r : BitVec 5) : Statement (.atomMaxS y d a s r) := rfl
theorem atomMinN (y : Bool) (d : BitVec 7) (a : BitVec 7) (s : BitVec 2) (r : BitVec 5) : Statement (.atomMinN y d a s r) := rfl
theorem atomMaxN (y : Bool) (d : BitVec 7) (a : BitVec 7) (s : BitVec 2) (r : BitVec 5) : Statement (.atomMaxN y d a s r) := rfl
theorem atomAnd (y : Bool) (d : BitVec 7) (a : BitVec 7) (s : BitVec 2) (r : BitVec 5) : Statement (.atomAnd y d a s r) := rfl
theorem atomOr (y : Bool) (d : BitVec 7) (a : BitVec 7) (s : BitVec 2) (r : BitVec 5) : Statement (.atomOr y d a s r) := rfl
theorem atomExch (y : Bool) (d : BitVec 7) (a : BitVec 7) (s : BitVec 2) (r : BitVec 5) : Statement (.atomExch y d a s r) := rfl
theorem atomxCas (y : Bool) (d : BitVec 7) (a : BitVec 7) (s : BitVec 2) (r : BitVec 5) : Statement (.atomxCas y d a s r) := rfl
theorem atomxXor (y : Bool) (d : BitVec 7) (a : BitVec 7) (s : BitVec 2) (r : BitVec 5) : Statement (.atomxXor y d a s r) := rfl
theorem atomxFadd (y : Bool) (d : BitVec 7) (a : BitVec 7) (s : BitVec 2) (r : BitVec 5) : Statement (.atomxFadd y d a s r) := rfl
theorem atomxFmin (y : Bool) (d : BitVec 7) (a : BitVec 7) (s : BitVec 2) (r : BitVec 5) : Statement (.atomxFmin y d a s r) := rfl
theorem atomxFmax (y : Bool) (d : BitVec 7) (a : BitVec 7) (s : BitVec 2) (r : BitVec 5) : Statement (.atomxFmax y d a s r) := rfl
theorem atomxAdd64 (y : Bool) (d : BitVec 7) (a : BitVec 7) (s : BitVec 2) (r : BitVec 5) : Statement (.atomxAdd64 y d a s r) := rfl
theorem atomxCas64 (y : Bool) (d : BitVec 7) (a : BitVec 7) (s : BitVec 2) (r : BitVec 5) : Statement (.atomxCas64 y d a s r) := rfl
theorem atomxIncw (y : Bool) (d : BitVec 7) (a : BitVec 7) (s : BitVec 2) (r : BitVec 5) : Statement (.atomxIncw y d a s r) := rfl
theorem redAdd (y : Bool) (d : BitVec 7) (a : BitVec 7) (s : BitVec 2) (r : BitVec 5) : Statement (.redAdd y d a s r) := rfl
theorem redMinS (y : Bool) (d : BitVec 7) (a : BitVec 7) (s : BitVec 2) (r : BitVec 5) : Statement (.redMinS y d a s r) := rfl
theorem redMaxS (y : Bool) (d : BitVec 7) (a : BitVec 7) (s : BitVec 2) (r : BitVec 5) : Statement (.redMaxS y d a s r) := rfl
theorem redMinN (y : Bool) (d : BitVec 7) (a : BitVec 7) (s : BitVec 2) (r : BitVec 5) : Statement (.redMinN y d a s r) := rfl
theorem redMaxN (y : Bool) (d : BitVec 7) (a : BitVec 7) (s : BitVec 2) (r : BitVec 5) : Statement (.redMaxN y d a s r) := rfl
theorem redAnd (y : Bool) (d : BitVec 7) (a : BitVec 7) (s : BitVec 2) (r : BitVec 5) : Statement (.redAnd y d a s r) := rfl
theorem redOr (y : Bool) (d : BitVec 7) (a : BitVec 7) (s : BitVec 2) (r : BitVec 5) : Statement (.redOr y d a s r) := rfl
theorem redFadd (y : Bool) (d : BitVec 7) (a : BitVec 7) (s : BitVec 2) (r : BitVec 5) : Statement (.redFadd y d a s r) := rfl
theorem ldlS8 (y : Bool) (d : BitVec 7) (a : BitVec 7) (o : BitVec 7) : Statement (.ldlS8 y d a o) := rfl
theorem ldlZ8 (y : Bool) (d : BitVec 7) (a : BitVec 7) (o : BitVec 7) : Statement (.ldlZ8 y d a o) := rfl
theorem ldlS16 (y : Bool) (d : BitVec 7) (a : BitVec 7) (o : BitVec 7) : Statement (.ldlS16 y d a o) := rfl
theorem ldlZ16 (y : Bool) (d : BitVec 7) (a : BitVec 7) (o : BitVec 7) : Statement (.ldlZ16 y d a o) := rfl
theorem ldl32 (y : Bool) (d : BitVec 7) (a : BitVec 7) (o : BitVec 7) : Statement (.ldl32 y d a o) := rfl
theorem ldl64 (y : Bool) (d : BitVec 7) (a : BitVec 7) (o : BitVec 7) : Statement (.ldl64 y d a o) := rfl
theorem ldl128 (y : Bool) (d : BitVec 7) (a : BitVec 7) (o : BitVec 7) : Statement (.ldl128 y d a o) := rfl
theorem stl8 (y : Bool) (d : BitVec 7) (a : BitVec 7) (o : BitVec 7) : Statement (.stl8 y d a o) := rfl
theorem stl16 (y : Bool) (d : BitVec 7) (a : BitVec 7) (o : BitVec 7) : Statement (.stl16 y d a o) := rfl
theorem stl32 (y : Bool) (d : BitVec 7) (a : BitVec 7) (o : BitVec 7) : Statement (.stl32 y d a o) := rfl
theorem stl64 (y : Bool) (d : BitVec 7) (a : BitVec 7) (o : BitVec 7) : Statement (.stl64 y d a o) := rfl
theorem stl128 (y : Bool) (d : BitVec 7) (a : BitVec 7) (o : BitVec 7) : Statement (.stl128 y d a o) := rfl
theorem atomlAdd (y : Bool) (d : BitVec 7) (a : BitVec 7) (o : BitVec 7) : Statement (.atomlAdd y d a o) := rfl
theorem atomlMinS (y : Bool) (d : BitVec 7) (a : BitVec 7) (o : BitVec 7) : Statement (.atomlMinS y d a o) := rfl
theorem atomlMaxS (y : Bool) (d : BitVec 7) (a : BitVec 7) (o : BitVec 7) : Statement (.atomlMaxS y d a o) := rfl
theorem atomlAnd (y : Bool) (d : BitVec 7) (a : BitVec 7) (o : BitVec 7) : Statement (.atomlAnd y d a o) := rfl
theorem atomlOr (y : Bool) (d : BitVec 7) (a : BitVec 7) (o : BitVec 7) : Statement (.atomlOr y d a o) := rfl
theorem atomlExch (y : Bool) (d : BitVec 7) (a : BitVec 7) (o : BitVec 7) : Statement (.atomlExch y d a o) := rfl
theorem atomlCas (y : Bool) (d : BitVec 7) (a : BitVec 7) (o : BitVec 7) : Statement (.atomlCas y d a o) := rfl
theorem atomlFadd (y : Bool) (d : BitVec 7) (a : BitVec 7) (o : BitVec 7) : Statement (.atomlFadd y d a o) := rfl
theorem pref (y : Bool) (a : BitVec 7) (r : BitVec 7) : Statement (.pref y a r) := rfl
theorem prefx (y : Bool) (a : BitVec 7) (r : BitVec 7) : Statement (.prefx y a r) := rfl
theorem evict (y : Bool) (a : BitVec 7) (r : BitVec 7) : Statement (.evict y a r) := rfl
theorem cpyGl (y : Bool) (d : BitVec 4) (a : BitVec 4) (b : BitVec 4) : Statement (.cpyGl y d a b) := rfl
theorem cpyLg (y : Bool) (d : BitVec 4) (a : BitVec 4) (b : BitVec 4) : Statement (.cpyLg y d a b) := rfl
theorem cpyGg (y : Bool) (d : BitVec 4) (a : BitVec 4) (b : BitVec 4) : Statement (.cpyGg y d a b) := rfl
theorem cptGl (y : Bool) (d : BitVec 4) (a : BitVec 4) (b : BitVec 2) : Statement (.cptGl y d a b) := rfl
theorem cptLg (y : Bool) (d : BitVec 4) (a : BitVec 4) (b : BitVec 2) : Statement (.cptLg y d a b) := rfl
theorem cpbatch (y : Bool) (a : BitVec 4) : Statement (.cpbatch y a) := rfl
theorem cpwait (y : Bool) (d : BitVec 7) (a : BitVec 4) : Statement (.cpwait y d a) := rfl
theorem recfence (y : Bool) : Statement (.recfence y) := rfl
theorem tld (y : Bool) (d : BitVec 7) (a : BitVec 4) (n : BitVec 4) : Statement (.tld y d a n) := rfl
theorem tst (y : Bool) (d : BitVec 7) (a : BitVec 4) (n : BitVec 4) : Statement (.tst y d a n) := rfl
theorem tldg (y : Bool) (d : BitVec 4) (a : BitVec 4) (b : BitVec 4) : Statement (.tldg y d a b) := rfl
theorem tstg (y : Bool) (d : BitVec 4) (a : BitVec 4) (b : BitVec 4) : Statement (.tstg y d a b) := rfl
theorem tzero (y : Bool) (d : BitVec 4) (b : BitVec 4) : Statement (.tzero y d b) := rfl
theorem tcvt (y : Bool) (d : BitVec 4) (a : BitVec 4) (b : BitVec 4) : Statement (.tcvt y d a b) := rfl
theorem mmaE4m3 (y : Bool) (d : BitVec 4) (a : BitVec 7) (b : BitVec 7) : Statement (.mmaE4m3 y d a b) := rfl
theorem mmaE5m2 (y : Bool) (d : BitVec 4) (a : BitVec 7) (b : BitVec 7) : Statement (.mmaE5m2 y d a b) := rfl
theorem mmaBf16 (y : Bool) (d : BitVec 4) (a : BitVec 7) (b : BitVec 7) : Statement (.mmaBf16 y d a b) := rfl
theorem mmaF16 (y : Bool) (d : BitVec 4) (a : BitVec 7) (b : BitVec 7) : Statement (.mmaF16 y d a b) := rfl
theorem mmaMxe4m3 (y : Bool) (d : BitVec 4) (a : BitVec 7) (b : BitVec 7) : Statement (.mmaMxe4m3 y d a b) := rfl
theorem mmaMxe2m3 (y : Bool) (d : BitVec 4) (a : BitVec 7) (b : BitVec 7) : Statement (.mmaMxe2m3 y d a b) := rfl
theorem mmaMxe2m1 (y : Bool) (d : BitVec 4) (a : BitVec 7) (b : BitVec 7) : Statement (.mmaMxe2m1 y d a b) := rfl
theorem mmaS8 (y : Bool) (d : BitVec 4) (a : BitVec 7) (b : BitVec 7) : Statement (.mmaS8 y d a b) := rfl
theorem qset (y : Bool) (a : BitVec 4) : Statement (.qset y a) := rfl
theorem qarr (y : Bool) : Statement (.qarr y) := rfl
theorem qwait (y : Bool) : Statement (.qwait y) := rfl
theorem qdrop (y : Bool) : Statement (.qdrop y) := rfl
theorem samp (y : Bool) (d : BitVec 7) (a : BitVec 7) (r : BitVec 7) : Statement (.samp y d a r) := rfl
theorem sampg (y : Bool) (d : BitVec 7) (a : BitVec 7) (r : BitVec 7) : Statement (.sampg y d a r) := rfl
theorem sampb (y : Bool) (d : BitVec 7) (a : BitVec 7) (r : BitVec 7) : Statement (.sampb y d a r) := rfl
theorem fetch (y : Bool) (d : BitVec 7) (a : BitVec 7) (r : BitVec 7) : Statement (.fetch y d a r) := rfl
theorem fetchf (y : Bool) (d : BitVec 7) (a : BitVec 7) (r : BitVec 7) : Statement (.fetchf y d a r) := rfl
theorem gath4 (y : Bool) (d : BitVec 7) (a : BitVec 7) (r : BitVec 7) : Statement (.gath4 y d a r) := rfl
theorem resq (y : Bool) (d : BitVec 7) (a : BitVec 7) (r : BitVec 7) : Statement (.resq y d a r) := rfl
theorem rayld (y : Bool) (a : BitVec 7) : Statement (.rayld y a) := rfl
theorem boxt (y : Bool) (d : BitVec 7) (a : BitVec 7) : Statement (.boxt y d a) := rfl
theorem trit (y : Bool) (d : BitVec 7) (a : BitVec 7) : Statement (.trit y d a) := rfl
theorem stkinit (y : Bool) (d : BitVec 7) (a : BitVec 4) (b : BitVec 4) : Statement (.stkinit y d a b) := rfl
theorem stkpush (y : Bool) (a : BitVec 7) : Statement (.stkpush y a) := rfl
theorem stkpop (y : Bool) (d : BitVec 7) : Statement (.stkpop y d) := rfl
theorem ordbPx (y : Bool) : Statement (.ordbPx y) := rfl
theorem ordbSmp (y : Bool) : Statement (.ordbSmp y) := rfl
theorem orde (y : Bool) : Statement (.orde y) := rfl
theorem frag (y : Bool) (d : BitVec 7) (a : BitVec 4) : Statement (.frag y d a) := rfl
theorem cover (y : Bool) (d : BitVec 7) (a : BitVec 7) : Statement (.cover y d a) := rfl
theorem scq (y : Bool) (d : BitVec 7) (a : BitVec 7) : Statement (.scq y d a) := rfl
theorem scwait (y : Bool) (d : BitVec 7) (a : BitVec 7) : Statement (.scwait y d a) := rfl
theorem scpub (y : Bool) (d : BitVec 7) (a : BitVec 4) : Statement (.scpub y d a) := rfl
theorem scabort (y : Bool) (d : BitVec 7) (a : BitVec 4) : Statement (.scabort y d a) := rfl
theorem scinv (y : Bool) (d : BitVec 7) (a : BitVec 7) : Statement (.scinv y d a) := rfl
theorem scpin (y : Bool) (d : BitVec 7) (a : BitVec 7) : Statement (.scpin y d a) := rfl
theorem scunpin (y : Bool) (d : BitVec 7) (a : BitVec 7) : Statement (.scunpin y d a) := rfl
theorem sctick (y : Bool) : Statement (.sctick y) := rfl
theorem br (y : Bool) (o : BitVec 18) : Statement (.br y o) := rfl
theorem brQ (y : Bool) (q : BitVec 3) (o : BitVec 18) : Statement (.brQ y q o) := rfl
theorem brNq (y : Bool) (q : BitVec 3) (o : BitVec 18) : Statement (.brNq y q o) := rfl
theorem brZ (y : Bool) (o : BitVec 18) : Statement (.brZ y o) := rfl
theorem brNz (y : Bool) (o : BitVec 18) : Statement (.brNz y o) := rfl
theorem brFull (y : Bool) (o : BitVec 18) : Statement (.brFull y o) := rfl
theorem jmp (y : Bool) (a : BitVec 4) : Statement (.jmp y a) := rfl
theorem call (y : Bool) (d : BitVec 7) (a : BitVec 4) : Statement (.call y d a) := rfl
theorem calli (y : Bool) (d : BitVec 7) (a : BitVec 7) : Statement (.calli y d a) := rfl
theorem ret (y : Bool) (a : BitVec 7) : Statement (.ret y a) := rfl
theorem jmpi (y : Bool) (a : BitVec 7) : Statement (.jmpi y a) := rfl
theorem psplit (y : Bool) (d : BitVec 7) (i : BitVec 14) : Statement (.psplit y d i) := rfl
theorem pjoin (y : Bool) : Statement (.pjoin y) := rfl
theorem pyield (y : Bool) : Statement (.pyield y) := rfl
theorem meld (y : Bool) (d : BitVec 7) (p : BitVec 2) (n : BitVec 6) : Statement (.meld y d p n) := rfl
theorem melde (y : Bool) : Statement (.melde y) := rfl
theorem pren (y : Bool) (a : BitVec 7) (e : BitVec 4) (p : BitVec 2) (s : BitVec 1) (b : BitVec 7) : Statement (.pren y a e p s b) := rfl
theorem barSync (y : Bool) (k : BitVec 4) : Statement (.barSync y k) := rfl
theorem barArr (y : Bool) (k : BitVec 4) : Statement (.barArr y k) := rfl
theorem barWait (y : Bool) (k : BitVec 4) : Statement (.barWait y k) := rfl
theorem cbarSync (y : Bool) (k : BitVec 3) : Statement (.cbarSync y k) := rfl
theorem cbarArr (y : Bool) (k : BitVec 3) : Statement (.cbarArr y k) := rfl
theorem cbarWait (y : Bool) (k : BitVec 3) : Statement (.cbarWait y k) := rfl
theorem gbarArr (y : Bool) (d : BitVec 7) : Statement (.gbarArr y d) := rfl
theorem gbarWait (y : Bool) : Statement (.gbarWait y) := rfl
theorem fenceAcq (y : Bool) (s : BitVec 2) : Statement (.fenceAcq y s) := rfl
theorem fenceRel (y : Bool) (s : BitVec 2) : Statement (.fenceRel y s) := rfl
theorem fenceAr (y : Bool) (s : BitVec 2) : Statement (.fenceAr y s) := rfl
theorem fenceSc (y : Bool) (s : BitVec 2) : Statement (.fenceSc y s) := rfl
theorem yield_ (y : Bool) : Statement (.yield_ y) := rfl
theorem sleep (y : Bool) (n : BitVec 14) : Statement (.sleep y n) := rfl
theorem watchPhase (y : Bool) : Statement (.watchPhase y) := rfl
theorem rpush (y : Bool) (a : BitVec 7) (b : BitVec 7) : Statement (.rpush y a b) := rfl
theorem rpop (y : Bool) (d : BitVec 7) (a : BitVec 7) : Statement (.rpop y d a) := rfl
theorem rpeek (y : Bool) (d : BitVec 7) (a : BitVec 7) : Statement (.rpeek y d a) := rfl
theorem rclose (y : Bool) (a : BitVec 7) : Statement (.rclose y a) := rfl
theorem trap (y : Bool) (n : BitVec 14) : Statement (.trap y n) := rfl
theorem tfence (y : Bool) : Statement (.tfence y) := rfl
theorem brk (y : Bool) (n : BitVec 14) : Statement (.brk y n) := rfl
theorem exit (y : Bool) : Statement (.exit y) := rfl
theorem tclr (y : Bool) (m : BitVec 5) (m2 : BitVec 5) : Statement (.tclr y m m2) := rfl
theorem tret (y : Bool) : Statement (.tret y) := rfl
theorem xregAcq (y : Bool) : Statement (.xregAcq y) := rfl
theorem xregRel (y : Bool) : Statement (.xregRel y) := rfl
theorem srd (y : Bool) (g : Bool) (d : BitVec 7) (i : BitVec 8) : Statement (.srd y g d i) := rfl
theorem swr (y : Bool) (g : Bool) (d : BitVec 7) (i : BitVec 8) : Statement (.swr y g d i) := rfl
theorem srdl (y : Bool) (g : Bool) (d : BitVec 7) (i : BitVec 8) : Statement (.srdl y g d i) := rfl
theorem invr (y : Bool) (a : BitVec 4) (b : BitVec 4) : Statement (.invr y a b) := rfl
theorem invrRangedesc (y : Bool) (a : BitVec 4) (b : BitVec 4) : Statement (.invrRangedesc y a b) := rfl
theorem replayByPage (y : Bool) (a : BitVec 4) (b : BitVec 4) : Statement (.replayByPage y a b) := rfl
theorem replayByToken (y : Bool) (a : BitVec 4) (b : BitVec 4) : Statement (.replayByToken y a b) := rfl
theorem pin (y : Bool) (d : BitVec 7) (a : BitVec 4) (b : BitVec 4) : Statement (.pin y d a b) := rfl
theorem unpin (y : Bool) (d : BitVec 7) (a : BitVec 4) (b : BitVec 4) : Statement (.unpin y d a b) := rfl
theorem migr (y : Bool) (d : BitVec 7) (a : BitVec 4) : Statement (.migr y d a) := rfl
theorem frpop (y : Bool) (d : BitVec 7) : Statement (.frpop y d) := rfl
theorem dbghalt (y : Bool) (d : BitVec 7) (a : BitVec 4) : Statement (.dbghalt y d a) := rfl
theorem dbgres (y : Bool) (d : BitVec 7) (a : BitVec 4) : Statement (.dbgres y d a) := rfl
theorem rst (y : Bool) (d : BitVec 7) (a : BitVec 7) (r : BitVec 7) : Statement (.rst y d a r) := rfl
theorem rld (y : Bool) (d : BitVec 7) (a : BitVec 7) (r : BitVec 7) : Statement (.rld y d a r) := rfl
theorem ratom (y : Bool) (d : BitVec 7) (a : BitVec 7) (r : BitVec 7) : Statement (.ratom y d a r) := rfl
theorem rfence (y : Bool) : Statement (.rfence y) := rfl
theorem tlaunch (y : Bool) (d : BitVec 7) (a : BitVec 4) (b : BitVec 4) : Statement (.tlaunch y d a b) := rfl
theorem tlaunchJob (y : Bool) (d : BitVec 7) (a : BitVec 4) (b : BitVec 4) : Statement (.tlaunchJob y d a b) := rfl
theorem tdec (y : Bool) (d : BitVec 7) (a : BitVec 4) (b : BitVec 4) : Statement (.tdec y d a b) := rfl
theorem tcancel (y : Bool) (d : BitVec 7) (a : BitVec 4) : Statement (.tcancel y d a) := rfl
theorem tstat (y : Bool) (d : BitVec 7) (a : BitVec 4) : Statement (.tstat y d a) := rfl
theorem tdispLock (vf : Nat) (config : List (BitVec 8)) : Statement (.tdispLock vf config) := rfl
theorem linkRetrain (port : Nat) : Statement (.linkRetrain port) := rfl

end Sys2Proof.Laws.Code

open Sys2Proof Sys2Proof.Laws.Code in
theorem Sys2Proof.Laws.Code.fun (y : Bool) (d : BitVec 7) (a : BitVec 7) (b : BitVec 7) : Statement (.fun y d a b) := rfl
end

