-- ==== Sys2Proof/Tests/Slice0.lean ====
section
/-! SUPPORT. Tests on small states: the encodings and worked examples of the spec, and for every statement states that meet its
hypotheses. -/

namespace Sys2Proof.Tests

open Sys2Proof Sys2Proof.Machine

-- one theorem after another: each kernel evaluation takes a thread of its own
set_option Elab.async false

/-! ### Small states -/

/-- A launch record: ENTRY 0x10000, RECVA 0x12000, HANDLER 0x11000, 64 threads, B = 64, X = 16, 127 records, 64 tile rows, 4 KiB of
scratchpad, S mode. -/
def launchRec : BitVec 2048 :=
  BitVec.ofNat 2048 (0x10000 + 0x12000 * 2 ^ 128 + 0x11000 * 2 ^ 192 + 63 * 2 ^ 576 + 64 * 2 ^ 600 + 16 * 2 ^ 608 + 127 * 2 ^ 616 +
    2 ^ 632 + 4096 * 2 ^ 640)

/-- The header that the issuing path is under: COUNT 15 and a class, all thresholds 15. -/
def header (cls : Nat) : Word := BitVec.ofNat 32 (0b11110 * 2 ^ 27 + 15 * 2 ^ 23 + cls * 2 ^ 20 + 0xFFFF)

/-- A block of the launch on core 0 whose wave 0 issues at word 1 of a clause of class 7, with g-registers `gs`; its code, and
64 KiB mapped for every access, lie from 0x10000 on. -/
def rig (r : BitVec 2048 := launchRec) (gs : List (Nat × Word) := []) (fp : Path → Path := id) (fv : Wave → Wave := id) : State :=
  let s := State.reset.placeWord 0
  let blk := (newBlock r 0 0 0 0 0 1 0).modWv 0 fun v =>
    fv ({ v with g := gs }.modPath 0 fun x => fp { x with cpos := 1, hdr := header 7 })
  { s with launches := [{ record := r, nextBlock := 1 }], blocks := [blk], cur := some (0, 0, 0) }

/-- The issuing path of a state, and a word that passes the checks there, with more that holds. -/
noncomputable def met (s : State) (i : Instr) (p : Ctx → Bool) : Bool :=
  match s.ctx with
  | some c => c.wv.ra.isNone && (c.check (info i) false).isNone && p c
  | none => false

theorem met_spec {s : State} {i : Instr} {P : Ctx → Prop} [DecidablePred P] (h : met s i (fun c => decide (P c)) = true) :
    ∃ c, At s c ∧ Passes c i ∧ P c := by
  unfold met at h
  split at h
  · rename_i c hc
    simp only [Bool.and_eq_true, Option.isNone_iff_eq_none, decide_eq_true_eq] at h
    exact ⟨c, ⟨hc, h.1.1⟩, h.1.2, h.2⟩
  · cases h

theorem met_all {s : State} {l : List Instr} {P : Ctx → Prop} [DecidablePred P]
    (h : (l.all fun i => met s i fun c => decide (P c)) = true) : ∀ i ∈ l, ∃ c, At s c ∧ Passes c i ∧ P c :=
  fun i hi => met_spec (List.all_eq_true.1 h i hi)

/-- The same for what is said of the issuing path alone. -/
noncomputable def here (s : State) (p : Ctx → Bool) : Bool :=
  match s.ctx with
  | some c => c.wv.ra.isNone && p c
  | none => false

theorem here_spec {s : State} {P : Ctx → Prop} [DecidablePred P] (h : here s (fun c => decide (P c)) = true) :
    ∃ c, At s c ∧ P c := by
  unfold here at h
  split at h
  · rename_i c hc
    simp only [Bool.and_eq_true, Option.isNone_iff_eq_none, decide_eq_true_eq] at h
    exact ⟨c, ⟨hc, h.1⟩, h.2⟩
  · cases h

/-- A fetch of word `w` succeeds. -/
def fetches (s : State) (c : Ctx) (va : DWord) (p : Word → Bool) : Bool :=
  match c.fetch s va with
  | .ok w _ => p w
  | _ => false

theorem fetches_spec {s : State} {c : Ctx} {va : DWord} {p : Word → Bool} (h : fetches s c va p = true) :
    ∃ w s1, c.fetch s va = .ok w s1 ∧ p w = true := by
  unfold fetches at h
  split at h
  · rename_i w s1 hw
    exact ⟨w, s1, hw, h⟩
  · cases h

/-- A state with a word of memory. -/
def poke (s : State) (pa : Nat) (w : Word) : State := { s with mem := memPut s.mem pa (wordBytes w) }

/-! ### Words written out in the spec's chapters -/

/-- Each word decodes to the instruction beside it. -/
noncomputable def reads (l : List (Word × Instr)) : Prop := ∀ e ∈ l, decode e.1 = .ok e.2

theorem test_words_memory : reads [(0x1A820103, .ld32 false false 8 2 3), (0x1A823B03, .ld32 false false 8 0x76 3), (0x1AE40104, .ldE false false 16 2 4),
    (0x5AA50200, .ld64 false true 20 4 0), (0x1B424103, .st32 false false 9 2 3), (0x1B628200, .st64 false false 10 4 0),
    (0x1C024143, .atomAdd false 9 2 2 3), (0x1D028260, .atomxCas false 10 4 3 0), (0x1EE24123, .redFadd false 9 2 1 3),
    (0x1F814104, .ldl32 false 5 2 4), (0x20850182, .stl128 false 20 3 2), (0x21C18182, .atomlCas false 6 3 2), (0x22000103, .pref false 2 3),
    (0x34030105, .rst false 12 2 5), (0x34230105, .rld false 12 2 5), (0x34420103, .ratom false 8 2 3), (0x231E3A76, .cpyGl false 8 4 6),
    (0x233D3C76, .cpyLg false 4 8 6), (0x235D3D76, .cpyGg false 4 10 6), (0x237E3A7C, .cptGl false 8 4 3), (0x239E3A7C, .cptLg false 8 4 3),
    (0x23A03D00, .cpbatch false 10), (0x23C27B80, .cpwait false 9 7)] := by unfold reads; decide +kernel

theorem test_words_units : reads [(0x240A3B0F, .tld false 40 6 15), (0x242A3B0F, .tst false 40 6 15), (0x245DBA78, .tldg false 6 4 8), (0x247DBA78, .tstg false 6 4 8),
    (0x249D8079, .tzero false 6 9), (0x24BDFB79, .tcvt false 7 6 9), (0x255D8820, .mmaBf16 false 6 16 32), (0x26003A80, .qset false 5), (0x26200000, .qarr false),
    (0x27050402, .samp false 20 8 2), (0x27850402, .fetchf false 20 8 2), (0x28000400, .rayld false 8), (0x28250500, .boxt false 20 10),
    (0x28450500, .trit false 20 10), (0x28743A76, .stkinit false 80 4 6), (0x28800F00, .stkpush false 30), (0x28A78000, .stkpop false 30), (0x29000000, .ordbPx false),
    (0x29653A00, .frag false 20 4), (0x29860A00, .cover false 24 20), (0x2A050400, .scq false 20 8), (0x2A427A80, .scpub false 9 5),
    (0x2A824400, .scinv false 9 8)] := by unfold reads; decide +kernel

theorem test_words_control : reads [(0x2B03FFF8, .br false 0x3FFF8), (0x2B4BFFF8, .brNq false 2 0x3FFF8), (0x2BA3FFF8, .brFull false 0x3FFF8), (0x2C003A00, .jmp false 4),
    (0x2C478500, .calli false 30 10), (0x2C800500, .jmpi false 10), (0x2D050010, .psplit false 20 16), (0x2D200000, .pjoin false), (0x2D65400C, .meld false 21 0 12),
    (0x2DA30CA8, .pren false 12 3 0 1 40), (0x2E000003, .barSync false 3), (0x2EA00001, .cbarWait false 1), (0x2EC50000, .gbarArr false 20),
    (0x2F000002, .fenceAcq false 2), (0x2F600003, .fenceSc false 3), (0x2FA00064, .sleep false 100), (0x30000A18, .rpush false 20 24), (0x30260A00, .rpop false 24 20)] := by
  unfold reads; decide +kernel

theorem test_words_system : reads [(0x31000005, .trap false 5), (0x31400001, .brk false 1), (0x31600000, .exit false), (0x31801F1F, .tclr false 31 31), (0x31A00000, .tret false),
    (0x72050000, .srd false true 20 0), (0x32014002, .srd false false 5 2), (0x72458000, .srdl false true 22 0), (0x72224009, .swr false true 9 9),
    (0x33003A76, .invr false 4 6), (0x33427A76, .pin false 9 4 6), (0x33827C00, .migr false 9 8), (0x33A40000, .frpop false 16), (0x33C27A80, .dbghalt false 9 5),
    (0x35027A76, .tlaunch false 9 4 6), (0x35227A76, .tdec false 9 4 6), (0x35427A00, .tcancel false 9 4)] := by unfold reads; decide +kernel

theorem test_words_arithmetic : reads [(0x01E18380, .not_ false false 6 7), (0x16014403, .shli false false 5 8 3), (0x04A14409, .bfeZ false false 5 8 9),
    (0x0602840C, .add64 false false 10 8 12), (0x120A20FF, .andi false false 5 8 0xFF), (0x140BFFFF, .movi false false 5 0x1FFFF), (0x55280001, .lit64 false true 20),
    (0x17C54400, .redadd false 21 8), (0x5880C082, .qand false 3 1 2), (0x59854100, .qmov false 21 2), (0x48450A96, .fmul false true 20 21 22),
    (0x0982860E, .fmaF64 false 10 12 14), (0x0A414409, .hfma2F16 false 5 8 9), (0x0B438409, .flt false 14 8 9), (0x0C00C180, .rcp false false 3 3),
    (0x0D60C181, .cvtN32F32 false false 3 3 0 1), (0x0DA14408, .cvtF32F64 false false 5 8 1 0), (0x0E02860E, .faddF64 false 10 12 14), (0x0EA14403, .frndF32 false 5 8 3),
    (0x0F214409, .packBf16 false 5 8 9), (0x0F814409, .dot4E4m3 false 5 8 9), (0x10E20280, .xcvtE2m1 false 8 5 0)] := by unfold reads; decide +kernel

/-- Reserved words are refused by name: a reserved MAJOR (R34), a LIT kind (R44), a reserved function value, a BR condition, a reserved bit. -/
theorem test_reserved_words : decode 0x36000000 = .error .reservedMajor ∧ decode 0x15280002 = .error .litKind ∧ decode 0x2BC00000 = .error .branchCond ∧
    decode 0x2F000004 = .error .reservedBits := by decide +kernel

/-- Ill-formed terms: a v run past v111, an odd pair, a g run past g127, a predicate above q7, a rounding mode, a record, a special register, a
destination that is a broadcast field; and the terms they miss by one. -/
theorem test_ill_formed : (∀ i ∈ [Instr.add false false 0x70 8 9, .add64 false false 11 8 12, .ld128 false false 109 2 3, .ld64 false true 126 4 0, .shlW false true 127 12 9,
      .icmpEq false true 8 1 2, .cvtF32S32 false false 5 8 0 6, .xcvtE4m3 false 60 5 3, .ld32 false false 8 2 127, .samp false 20 8 127, .meld false 20 0 61,
      .gbarArr false 0x7D, .srd false true 20 0x2C, .swr false true 20 0x01, .srdl false true 20 1, .swr false false 0x6F 0x09, .cpyGl false 8 5 6,
      .stkpop false 0x70], i.wellFormed = false) ∧
    ∀ i ∈ [Instr.add false false 0x6F 0x7F 9, .ld128 false false 108 2 3, .icmpEq false true 7 1 2, .ld32 false false 8 2 126, .gbarArr false 0x7C,
      .srd false true 20 0x2B], i.wellFormed = true := by decide +kernel

/-- A word stored where the next instruction is fetched is the one that the step runs: ADD of v5 and v8 leaves 0 and moves the PC on by 4 (R27). -/
theorem test_fetch_word : decodeTableWord 32 0x00014409 = some (.add false false 5 8 9) ∧
    (match step (State.reset.withFetchWord 32 0x00014409) with
     | .next t => ((t.wv 0 0).path 0).pc == 0x10004 && ((t.wv 0 0).path 0).cpos == 2
     | _ => false) = true := by decide +kernel

/-! ### Worked examples of the spec -/

/-- Whether a word goes on to a state of which `p` holds. -/
noncomputable def leads (i : Instr) (s : State) (p : State → Bool) : Bool :=
  match exec i s with
  | .next t => p t
  | _ => false

/-- The rig with v8, v9 and v5 of every lane set. -/
def valRig (x y z : Word) (fv : Wave → Wave := id) : State :=
  (rig launchRec [] id fv).modBlk 0 fun k =>
    { k with v := SMap.put zeroRow (SMap.put zeroRow (SMap.put zeroRow k.v 5 (List.replicate 32 z)) 8 (List.replicate 32 x)) 9 (List.replicate 32 y) }

/-- Chapter 09: BFE.Z and BFE.S of 12 bits from bit 4, and a field cut at bit 32; PRMT. -/
theorem test_bit_field_examples :
    leads (.bfeZ false false 5 8 9) (valRig 0x00ABCDEF 0x0C04 0) (fun t => rowGet (t.blk 0).v 5 31 == 0x00000CDE) = true ∧
    leads (.bfeS false false 5 8 9) (valRig 0x00ABCDEF 0x0C04 0) (fun t => rowGet (t.blk 0).v 5 31 == 0xFFFFFCDE) = true ∧
    leads (.bfeZ false false 5 8 9) (valRig 0xF0000000 0x201C 0) (fun t => rowGet (t.blk 0).v 5 0 == 0xF) = true := by decide +kernel

/-- Chapter 10: CVT.S32.F32 under a partial mask, with TNV enabled. -/
theorem test_partial_mask_example :
    let s := (rig launchRec [] (fun p => { p with exm := 0xF }) fun v => { v with fctrl := 0x1000 }).modBlk 0 fun k =>
      { k with v := SMap.put zeroRow k.v 8 ([0x40200000, 0xC0200000, 0x4F800000, 0x7FA00000, 0, 0xBF800000] ++ List.replicate 26 0) }
    leads (.cvtS32F32 false false 5 8 0 0) s (fun t => (List.range 6).map (rowGet (t.blk 0).v 5) == [2, 0xFFFFFFFE, 0x7FFFFFFF, 0, 0, 0] &&
      (t.wv 0 0).fflags == 0x1011) = true := by decide +kernel

/-- Chapter 08: FP32 inputs encoded into E4M3: to the even mantissa, beyond the overflow midpoint, −Inf saturated, a subnormal. -/
theorem test_rounding_examples :
    let f (x : Word) (sat m : Nat) : Instr × State := (.cvtbE4m3 false 5 60 (BitVec.ofNat 1 sat) (BitVec.ofNat 3 m), (rig).modBlk 0 fun k =>
      { k with v := (List.range 4).foldl (fun v j => SMap.put zeroRow v (60 + j) (List.replicate 32 x)) k.v })
    (∀ e ∈ [((0x41880000 : Word), 0, 0, (0x58585858 : Word), (1 : Word)), (0x43E60000, 0, 0, 0x7E7E7E7E, 1), (0x43EB0000, 0, 0, 0x7F7F7F7F, 5), (0x43EB0000, 1, 0, 0x7E7E7E7E, 5),
        (0x43EB0000, 0, 1, 0x7E7E7E7E, 1), (0xFF800000, 1, 0, 0xFEFEFEFE, 16), (0x3A83126F, 0, 0, 0x01010101, 3)],
      leads (f e.1 e.2.1 e.2.2.1).1 (f e.1 e.2.1 e.2.2.1).2 (fun t => rowGet (t.blk 0).v 5 0 == e.2.2.2.1 && (t.wv 0 0).fflags == e.2.2.2.2) = true) := by decide +kernel

/-- Chapters 03 and 04: the translation example, the direct window, and the homes of its line and of its granule. -/
theorem test_translation_example :
    rangeMap [BitVec.ofNat 256 (0x0000010000000000 + 0x10000 * 2 ^ 64 + 0x0003000040000000 * 2 ^ 128 + 2 ^ 192 + 0b1011 * 2 ^ 200)] 3 true .load 0x000001000A234560 =
      .ok 0x000300004A234560 ∧
    directIA 3 0x002100043118 = 0x0003F02100043118 ∧ homeSlice 0x000300004A234560 = 19 ∧ homeSlice 0x000300004A230000 = 24 := by decide +kernel

/-- Chapter 10: FMA rounds once: (1 + 2⁻²³)² − (1 + 2⁻²²) is 2⁻⁴⁶. -/
theorem test_fma_example :
    leads (.fma false 5 8 9) (valRig 0x3F800001 0x3F800001 0xBF800002) (fun t => rowGet (t.blk 0).v 5 7 == 0x28800000) = true := by decide +kernel

/-! ### Register-only words (chapters 09 and 10) -/

/-- Words of every shape pass the checks in one state, with G = 0 and G = 1. -/
theorem witness_integer_words : ∀ i ∈ [Instr.add false false 5 8 9, .add false true 9 9 127, .not_ true false 63 0x7F, .shl false false 0 1 2,
    .shli false false 5 8 63, .shlW false false 10 12 9, .sarWi false true 126 0 32, .mul false true 1 2 3, .mulwS false false 62 1 2,
    .madwN false true 126 1 2, .popc false false 5 8, .bfi false false 5 8 9, .prmt false true 5 8 9, .icmpEq false false 127 0x70 63,
    .icmpTest false true 7 0 127, .add64 false false 10 0x7E 62, .lea16 false true 126 126 127, .sext8 false false 5 8,
    .sext32 false false 62 63, .trunc64 false true 127 126, .addi false true 9 9 0x3FF, .ori false false 5 0x70 0x3FF,
    .movi false true 127 0x1FFFF], ∃ c, At (rig) c ∧ Passes c i ∧ True :=
  met_all (by decide +kernel)

theorem witness_lane_mask_move_words : ∀ i ∈ [Instr.shflIdx false 5 8 9, .shflXor false 63 0x7F 63, .bcast false 0x7F 63, .vset false 7 14,
    .redadd false 0x70 8, .redmaxS false 21 8, .mpopc false 20 127, .mffs false 0 127, .mfls false 127 0, .mtest false 7 20 127,
    .qand false 3 1 2, .qnot false 0 7, .mov false 5 0x73, .movg false 20 4, .movv false 62 0x7E, .movq false 2 20, .qmov false 21 2],
    ∃ c, At (rig) c ∧ Passes c i ∧ True :=
  met_all (by decide +kernel)

/-- The literal words of a LIT can be fetched: they read 0 here. -/
theorem witness_literals : ∃ c, At (rig) c ∧ Passes c (.lit64 false false 62) ∧
    (fetches (rig) c (c.pa.pc + 4) (fun w => w == 0) && fetches (rig) c (c.pa.pc + 8) fun w => w == 0) = true :=
  met_spec (by decide +kernel)

theorem witness_float_words : ∀ i ∈ [Instr.fadd false false 5 8 9, .fmax false true 5 8 9, .fcopysign false false 5 8 9, .fma false 5 8 9,
    .fnmsF64 false 62 0 0x7E, .hfma2Bf16 false 5 8 9, .hmin2F16 false 5 8 9, .feq false 0x7F 8 9, .fleF64 false 127 8 10, .rcp false true 5 8,
    .tanh false false 5 8, .cvtF32S32 false false 5 8 1 5, .cvtF64F32 false true 126 8 0 0, .cvtS32F64 false false 5 62 0 1,
    .faddF64 false 62 8 10, .frndF32 false 5 8 4, .packF16 false 5 8 9, .dot2F16 false 5 8 9, .dot4S8 false 5 8 9,
    .cvtbE4m3 false 5 60 1 0, .xcvtE4m3 false 60 5 0, .xcvtE2m1 false 62 5 2], ∃ c, At (rig) c ∧ Passes c i ∧ True :=
  met_all (by decide +kernel)

/-! ### Control flow (chapter 15) -/

theorem witness_branches : ∀ i ∈ [Instr.br false 0x20000, .brQ false 1 0x3FFFF, .brNq true 7 0, .brZ false 5, .brNz false 5, .brFull false 5,
    .jmp false 4], ∃ c, At (rig) c ∧ Passes c i ∧ (c.pa.exm = c.pa.full ∧ c.pa.exm ≠ 0) :=
  met_all (by decide +kernel)

/-- A branch back by the least offset, and with a false condition. -/
theorem witness_branch_not_taken : ∃ c, At (rig (fp := fun p => { p with exm := 0 })) c ∧ Passes c (.brNz false 5) ∧
    (c.pa.exm = 0 ∧ c.q 1 = false ∧ c.q 0 = true) :=
  met_spec (by decide +kernel)

/-- Lanes with two targets, and path entries for them. -/
def twoTargets : State := (rig launchRec []).modBlk 0 fun k => { k with v := SMap.put zeroRow k.v 10 ((List.range 32).map fun ln => if ln < 16 then 0x10040 else 0x10080) }

theorem witness_spread : ∀ i ∈ [Instr.ret false 10, .jmpi true 10], ∃ c, At twoTargets c ∧ Passes c i ∧
    (c.pa.st = .run ∧ c.wv.paths.length = 8 ∧ c.manyTargets (fun ln => c.opnd64 false 10 ln) = false ∧
      (targetsOf (fun ln => c.opnd64 false 10 ln) (activeLanes c)).length = 2 ∧
      (targetsOf (fun ln => c.opnd64 false 10 ln) (activeLanes c)).length ≤ (freeEntries c.wv.paths).length + 1) :=
  met_all (by decide +kernel)

/-- One target whose entry word allows the whole budget. -/
def callee : State := poke ((rig launchRec [(4, 0x10100)]).modBlk 0 fun k => { k with v := SMap.put zeroRow k.v 10 (List.replicate 32 0x10100) }) 0x100FC 0xED000040

theorem witness_call : ∃ c, At callee c ∧ Passes c (.call false 62 4) ∧
    (c.bc64 4 = 0x10100 ∧ fetches callee c 0x100FC (fun w => w == 0xED000040) = true ∧ c.B = 64 ∧ canonical 0x10100 = true) :=
  met_spec (by decide +kernel)
theorem witness_calli : ∃ c, At callee c ∧ Passes c (.calli false 30 10) ∧
    (activeLanes c ≠ [] ∧ ∀ ln ∈ activeLanes c, c.opnd64 false 10 ln = 0x10100) :=
  met_spec (by decide +kernel)

/-- A target off its word, one without an entry word, and one with a budget above B + X. -/
theorem witness_call_traps :
    (∃ c, At (rig launchRec [(4, 0x10101)]) c ∧ Passes c (.call false 30 4) ∧ (c.pa.exm ≠ 0 ∧ (c.bc64 4).toNat % 4 ≠ 0)) ∧
    (∃ c, At (rig launchRec [(4, 0x10100)]) c ∧ Passes c (.call false 30 4) ∧
      (c.pa.exm ≠ 0 ∧ (c.bc64 4).toNat % 4 = 0 ∧ fetches (rig launchRec [(4, 0x10100)]) c 0x100FC (fun w => fld w 31 24 != 0xED) = true)) ∧
    (∃ c, At (poke callee 0x100FC 0xED000051) c ∧ Passes c (.call false 30 4) ∧
      fetches (poke callee 0x100FC 0xED000051) c 0x100FC (fun w => fld w 31 24 == 0xED && fld w 23 7 == 0 && c.B + c.X < fld w 6 0) = true) ∧
    ∃ c, At (rig launchRec [(4, 0x10100), (5, 0x7FFFFFFF)]) c ∧ Passes c (.calli false 30 0x74) ∧
      (c.pa.exm ≠ 0 ∧ canonical (c.bc64 4) = false ∧ ∀ ln ∈ activeLanes c, c.opnd64 false 0x74 ln = 0x7FFFFFFF00010100) :=
  ⟨met_spec (by decide +kernel), met_spec (by decide +kernel), met_spec (by decide +kernel), met_spec (by decide +kernel)⟩

/-- PSPLIT of no lane, of all lanes, of one lane with a free entry, and with none. -/
theorem witness_split :
    (∃ c, At (rig) c ∧ Passes c (.psplit false 20 0x2000) ∧ (c.inHandler = false ∧ c.pa.st = .run ∧ c.g 20 &&& c.pa.exm = 0)) ∧
    (∃ c, At (rig launchRec [(20, 0xFFFFFFFF)]) c ∧ Passes c (.psplit false 20 0x1FFF) ∧
      (c.g 20 &&& c.pa.exm ≠ 0 ∧ c.g 20 &&& c.pa.exm = c.pa.full)) ∧
    (∃ c, At (rig launchRec [(20, 0x80000000)]) c ∧ Passes c (.psplit false 20 1) ∧
      (c.g 20 &&& c.pa.exm ≠ 0 ∧ c.g 20 &&& c.pa.exm ≠ c.pa.full ∧ freeEntries c.wv.paths ≠ [] ∧ c.wv.paths.length = 8)) ∧
    ∃ c, At (rig launchRec [(20, 1)] id fun v => { v with paths := v.paths.map fun p => if p.st = .free then { p with st := .wait } else p }) c ∧
      Passes c (.psplit false 20 1) ∧ (c.g 20 &&& c.pa.exm ≠ 0 ∧ c.g 20 &&& c.pa.exm ≠ c.pa.full ∧ freeEntries c.wv.paths = []) :=
  ⟨met_spec (by decide +kernel), met_spec (by decide +kernel), met_spec (by decide +kernel), met_spec (by decide +kernel)⟩

theorem witness_path_words :
    (∀ i ∈ [Instr.pjoin false, .pyield true], ∃ c, At (rig) c ∧ Passes c i ∧ True) ∧
    (∃ c, At (rig launchRec [] fun p => { p with cpos := 15 }) c ∧ Passes c (.meld false 20 3 5) ∧
      (c.inHandler = false ∧ c.pa.cpos = fld c.pa.hdr 26 23 ∧ c.wv.pairInUse 3 = false)) ∧
    (∃ c, At (rig launchRec [] fun p => { p with mode := .melded, hdr := p.hdr ||| 0x80000, cpos := 15 }) c ∧ Passes c (.melde false) ∧ True) ∧
    ∃ c, At (rig) c ∧ Passes c (.pren false 79 15 3 1 79) ∧ (c.wv.pairInUse 3 = false ∧ 79 < c.B + c.X) :=
  ⟨met_all (by decide +kernel), met_spec (by decide +kernel), met_spec (by decide +kernel), met_spec (by decide +kernel)⟩

/-! ### Traps, SYS, special registers, fences, barriers, rings (chapters 14, 16 and 17) -/

/-- TrapEntry at the highest code, CPOS and path. -/
theorem witness_trap_entry :
    let s := rig launchRec [] id fun v => { v with fflags := 0x1F1F }
    let v := s.wv 0 1
    (0 < s.blocks.length ∧ 1 < (s.blk 0).waves.length ∧ 7 < v.paths.length ∧ v.tinfo.getLsbD 31 = false ∧
      recHandler (s.launchOf 0).record ≠ 0) ∧ (0xFF < 256 ∧ 2 ^ 24 - 1 < 2 ^ 24 ∧ 15 < 16) := by decide +kernel

/-- A trap in handler mode, and one without a handler. -/
theorem witness_trap_ends_wave :
    let s := rig launchRec [] id fun v => { v with tinfo := 0x80000000 }
    let u := rig (setFld launchRec 255 192 0)
    (0 < s.blocks.length ∧ 0 < (s.blk 0).waves.length ∧ (s.wv 0 0).tinfo.getLsbD 31 = true) ∧
      (0 < (u.blk 0).waves.length ∧ recHandler (u.launchOf 0).record = 0) := by decide +kernel

theorem witness_system_words : ∀ i ∈ [Instr.trap false 0x3FFF, .brk false 0, .tfence false, .exit true, .tclr false 31 31, .xregAcq false],
    ∃ c, At (rig) c ∧ Passes c i ∧
      ((rig).debuggers c.b = [] ∧ c.wv.fflags.toNat / 2 ^ 8 % 2 ^ 5 = 0 ∧ c.inHandler = false ∧ c.X ≠ 0 ∧ c.blk.xwait = [] ∧
        SMap.get none c.blk.xlock (c.w / 2) = none) :=
  met_all (by decide +kernel)

/-- A pending flag; handler mode with a well-formed THDR, and with CPOS 0; the lock held. -/
theorem witness_system_words_elsewhere :
    (∃ c, At (rig launchRec [] id fun v => { v with fflags := 0x100 }) c ∧ Passes c (.tfence false) ∧
      c.wv.fflags.toNat / 2 ^ 8 % 2 ^ 5 ≠ 0) ∧
    (∀ i ∈ [Instr.exit false, .tret false], ∃ c,
      At (rig launchRec [] id fun v => { v with tinfo := 0x800F0000, thdr := header 0 }) c ∧ Passes c i ∧
        (c.inHandler = true ∧ c.wv.tinfo.toNat / 2 ^ 16 % 16 = 15 ∧ fld c.wv.thdr 31 27 = 0b11110 ∧ 15 ≤ fld c.wv.thdr 26 23)) ∧
    (∃ c, At (rig launchRec [] id fun v => { v with tinfo := 0x80000000 }) c ∧ Passes c (.tret false) ∧
      (c.inHandler = true ∧ c.wv.tinfo.toNat / 2 ^ 16 % 16 = 0)) ∧
    ∀ i ∈ [Instr.xregAcq false, .xregRel false], ∃ c,
      At ((rig).modBlk 0 fun k => { k with xlock := SMap.put none k.xlock 0 (some 0) }) c ∧ Passes c i ∧
        (c.X ≠ 0 ∧ c.holdsLock = true ∧ c.wv.lc = 0 ∧ c.wv.cc = 0 ∧ c.wv.mc = 0) :=
  ⟨met_spec (by decide +kernel), met_all (by decide +kernel), met_spec (by decide +kernel), met_all (by decide +kernel)⟩

/-- Every special register that SRD reads passes; so does SWR of those it writes, with allowed bits and with others. -/
theorem witness_special_registers :
    (∀ i ∈ [Instr.srd false false 5 0x01, .srd false true 20 0x2B, .srd false true 127 0x26, .clkloRead false false 63, .srdl false false 62 0,
        .srdl false true 126 0x0B, .swr false true 20 0x09, .swr false false 0x74 0x2A, .swr false true 20 0x26], ∃ c, At (rig launchRec [(4, 0xFF), (20, 0xFFFFFFFF)]) c ∧
      Passes c i ∧ (c.g 20 &&& 0xFFFFE0F8 ≠ 0 ∧ (c.g 4 &&& 0x3FC0FFF8 ≠ 0))) ∧
    (∃ c, At (rig launchRec [(20, 1)] id fun v => { v with mextlo := 0x10040 }) c ∧ Passes c (.mextRequest false true 20) ∧
      (c.pa.phase = 0 ∧ c.g 20 = 1 ∧ (c.wv.mexthi ++ c.wv.mextlo).toNat % 64 = 0 ∧
        (match c.readVA (rig launchRec [(20, 1)] id fun v => { v with mextlo := 0x10040 }) (c.wv.mexthi ++ c.wv.mextlo) 64 with | .ok _ => true | _ => false) = true)) ∧
    ∃ c, At (rig launchRec [(20, 1)] fun p => { p with phase := 2 }) c ∧ Passes c (.mextRequest false true 20) ∧ c.pa.phase = 2 :=
  ⟨met_all (by decide +kernel), met_spec (by decide +kernel), met_spec (by decide +kernel)⟩

/-- The rig whose wave 0 has operations in flight. -/
def waveOf (ops : List AsyncOp) : State := rig launchRec [] id fun v => { v with ops }

/-- Fences with every counter at zero, with SC and LC raised, and with stores deferred, at the widest and narrowest scopes. -/
theorem witness_fences :
    (∀ i ∈ [Instr.fenceAcq false 0, .fenceRel false 2, .fenceAr true 1, .fenceSc false 2, .fenceSc false 0, .fenceRel false 3, .fenceAcq false 3],
      ∃ c, At (rig) c ∧ Passes c i ∧ (recWatch c.lr = false ∧ c.pa.phase = 0 ∧ c.wv.sc = 0 ∧ c.wv.r75 = true ∧
        c.wv.tstgPending = false ∧ c.wv.readsLeft = false ∧ c.wv.lc = 0)) ∧
    (∀ i ∈ [Instr.fenceAcq false 2, .fenceRel false 0, .fenceAr false 2, .fenceSc false 1], ∃ c,
      At (rig launchRec [] id fun v => { v with sc := 63, lc := 1 }) c ∧ Passes c i ∧ (c.wv.sc ≠ 0 ∧ c.wv.lc ≠ 0)) ∧
    (∀ i ∈ [Instr.fenceAr false 3, .fenceAr false 2, .fenceSc false 3, .fenceSc false 0], ∃ c,
      At (rig launchRec [] id fun v => { v with lc := 63 }) c ∧ Passes c i ∧ (c.pa.phase = 0 ∧ c.wv.sc = 0 ∧ c.wv.readsLeft = false ∧ c.wv.lc ≠ 0)) ∧
    (∃ c, At (rig launchRec [] fun p => { p with phase := 1 }) c ∧ Passes c (.fenceSc false 3) ∧ (c.pa.phase ≠ 0 ∧ c.wv.lc = 0)) ∧
    (∃ c, At (rig launchRec [] (fun p => { p with phase := 1 }) fun v => { v with lc := 1 }) c ∧ Passes c (.fenceSc false 0) ∧
      (c.pa.phase ≠ 0 ∧ c.wv.lc ≠ 0)) ∧
    ∃ c, At (waveOf [{ id := 3, kind := .load 4 false 0, lanes := [{ lane := 31 }] }]) c ∧ Passes c (.fenceRel false 2) ∧ c.wv.readsLeft = true :=
  ⟨met_all (by decide +kernel), met_all (by decide +kernel), met_all (by decide +kernel), met_spec (by decide +kernel), met_spec (by decide +kernel),
    met_spec (by decide +kernel)⟩

theorem witness_yield_sleep_watch : ∀ i ∈ [Instr.yield_ false, .sleep false 0, .sleep true 0x3FFF, .watchPhase false],
    ∃ c, At (rig) c ∧ Passes c i ∧ True := met_all (by decide +kernel)

theorem witness_sleep_end :
    let s := rig launchRec [] id fun v => { v with sleepUntil := some 0 }
    (s.wv 0 0).sleepUntil = some 0 ∧ 0 ≤ s.clk := by decide +kernel

/-- BAR and CBAR with nothing arrived, at the first and last barrier; with an arrival; at the second phase. -/
theorem witness_barriers :
    (∀ i ∈ [Instr.barArr false 0, .barSync false 15, .barWait false 15, .cbarArr false 7, .cbarSync false 0, .cbarWait false 7],
      ∃ c, At (rig) c ∧ Passes c i ∧ (c.inHandler = false ∧ c.wv.relReady = true ∧ c.pa.barArr = [] ∧ c.pa.cbarArr = [] ∧
        c.pa.phase = 0 ∧ (∀ k < 16, (c.blk.bars.getD k {}).arrived.contains c.w = false) ∧ recWatch c.lr = false ∧ c.wv.lc = 0 ∧
        (let cl := (rig).clusters.getD c.blk.cluster {}
         cl.live = true ∧ c.wv.cticket.toNat = cl.ticket ∧ ∀ j < 8, (cl.bars.getD j {}).arrived.contains c.blk.rank = false))) ∧
    (∃ c, At (rig launchRec [] fun p => { p with barArr := [(15, 0)] }) c ∧ Passes c (.barWait false 15) ∧
      openArr c.pa.barArr 15 (c.blk.bars.getD 15 {}).gen = true) ∧
    (∃ c, At (rig launchRec [] fun p => { p with phase := 1 }) c ∧ Passes c (.cbarSync false 7) ∧
      (c.pa.phase = 1 ∧ openArr c.pa.cbarArr 7 0 = false ∧ c.wv.lc = 0)) ∧
    ∃ c, At ({ rig with clusters := [{ ticket := 1, members := [0, 1] }] } : State) c ∧ Passes c (.cbarSync false 7) ∧
      (let s1 := ((relState c 1 { rig with clusters := [{ ticket := 1, members := [0, 1] }] }).modPath c.b c.w c.p fun p =>
        { p with cbarArr := arrive 7 0 p.cbarArr }).checkCbars c.b
       ((s1.clusters.getD c.blk.cluster {}).bars.getD 7 {}).gen = 0) :=
  ⟨met_all (by decide +kernel), met_spec (by decide +kernel), met_spec (by decide +kernel), met_spec (by decide +kernel)⟩

/-- A stage ring of capacity 2 ^ `log2cap` at local address 64, its entries from 128 on; g4 points at it. -/
def ringRig (closed log2cap esz tail head : Nat) : State :=
  let h := head + tail * 2 ^ 32 + esz * 2 ^ 64 + log2cap * 2 ^ 72 + closed * 2 ^ 80 + 128 * 2 ^ 96
  (rig launchRec [(4, 64), (20, 7)]).modBlk 0 fun k => k.sWrite 64 (natBytes 16 h)

/-- Whether `RingAt` holds with the header at 64, and more. -/
def ringOk (s : State) (p : StageRing → Bool) (c : Ctx) : Bool :=
  let r := stageRing ((s.blk c.b).sRead 64 16) c.sb
  (c.g 4).toNat == 64 && decide (80 ≤ c.sb) && r.ok && (c.wv.localLeft.isNone && (List.range 4).all fun k => !(s.blk c.b).badWords.contains (16 + k)) && p r

theorem ringOk_spec {s : State} {p : StageRing → Bool} {c : Ctx} (h : ringOk s p c = true) : ∃ r, RingAt c s 4 64 r ∧ p r = true := by
  simp only [ringOk, Bool.and_eq_true, beq_iff_eq, decide_eq_true_eq, Option.isNone_iff_eq_none, List.all_eq_true, List.mem_range] at h
  obtain ⟨⟨⟨⟨h1, h2⟩, h3⟩, h4, h5⟩, h6⟩ := h
  exact ⟨_, ⟨h1.symm, rfl, h2, rfl, h3, h4, fun k hk => by simpa using h5 k hk⟩, h6⟩

/-- A ring one short of full, with TAIL at its wrap; full; empty and open; empty and closed; a run that ends at g126. -/
theorem witness_stage_rings :
    (∀ i ∈ [Instr.rpush false 4 123, .rpop false 123 4, .rpeek false 20 4, .rclose false 4], ∃ c,
      At (ringRig 0 1 3 0 0xFFFFFFFF) c ∧ Passes c i ∧
        (ringOk (ringRig 0 1 3 0 0xFFFFFFFF) (fun r => r.used == 1 && r.esz == 3 && !r.closed && r.log2cap == 1 && r.head != r.tail) c = true ∧
          c.wv.relReady = true)) ∧
    (∃ c, At (ringRig 0 0 0 1 0) c ∧ Passes c (.rpeek false 126 4) ∧
      ringOk (ringRig 0 0 0 1 0) (fun r => r.used == 2 ^ r.log2cap) c = true) ∧
    (∃ c, At (ringRig 0 5 0 9 9) c ∧ Passes c (.rpop false 126 4) ∧
      ringOk (ringRig 0 5 0 9 9) (fun r => r.head == r.tail && !r.closed) c = true) ∧
    ∀ i ∈ [Instr.rpop false 126 4, .rpush false 4 126], ∃ c, At (ringRig 1 0 0 9 9) c ∧ Passes c i ∧
      (ringOk (ringRig 1 0 0 9 9) (fun r => r.head == r.tail && r.closed && r.esz == 0) c = true ∧ c.wv.relReady = true) :=
  ⟨met_all (by decide +kernel), met_spec (by decide +kernel), met_spec (by decide +kernel), met_all (by decide +kernel)⟩

/-- GBAR.ARR at an aligned mapped address with the highest generation; GBAR.WAIT at each state of the latch. -/
theorem witness_grid_barriers :
    (∃ c, At (rig launchRec [(20, 0x14020), (22, 0xFFFF)]) c ∧ Passes c (.gbarArr false 20) ∧
      (c.inHandler = false ∧ (c.g 22).toNat < 2 ^ 16 ∧ (c.gPair 20).toNat % 32 = 0 ∧ c.wv.relReady = true ∧
        (match c.map (rig launchRec [(20, 0x14020), (22, 0xFFFF)]) (.atomic true) (c.gPair 20) with | .ok _ => true | _ => false) = true)) ∧
    (∃ c, At (rig launchRec [] id fun v => { v with glatch := .applied, greleased := true }) c ∧ Passes c (.gbarWait false) ∧
      (c.inHandler = false ∧ c.wv.glatch = .applied ∧ c.wv.greleased = true ∧ c.wv.lc = 0)) ∧
    (∃ c, At (rig) c ∧ Passes c (.gbarWait false) ∧ c.wv.glatch = .empty) ∧
    (∃ c, At (rig launchRec [] id fun v => { v with glatch := .applied }) c ∧ Passes c (.gbarWait false) ∧
      (c.wv.glatch = .applied ∧ c.wv.greleased = false)) ∧
    (∃ c, At (rig launchRec [] id fun v => { v with glatch := .diverted }) c ∧ Passes c (.gbarWait false) ∧ c.wv.glatch = .diverted) ∧
    let s := rig launchRec [] id fun v => { v with glatch := .pending, greplies := [true, false], gsent := 1 }
    (s.wv 0 0).greplies = [true, false] ∧ (s.wv 0 0).gsent = 1 ∧ (s.wv 0 0).glatch = .pending ∧ 0 < s.blocks.length ∧
      0 < (s.blk 0).waves.length :=
  ⟨met_spec (by decide +kernel), met_spec (by decide +kernel), met_spec (by decide +kernel), met_spec (by decide +kernel),
    met_spec (by decide +kernel), by decide +kernel⟩

/-! ### Memory words (chapters 05 and 07) -/

/-- A buffer record of kind 1: 256 bytes at 0x14000, read, written and atomic by `perms`, its elements by MENC, RFMT and EPA. -/
def bufRec (perms menc rfmt epa : Nat) : BitVec 320 :=
  BitVec.ofNat 320 (0x14000 + 256 * 2 ^ 64 + 2 ^ 144 + menc * 2 ^ 152 + rfmt * 2 ^ 160 + perms * 2 ^ 288 + epa * 2 ^ 296)

/-- The rig with `r` as record 5, and lanes of v10 and g20 that hold `x` (v11 and g21 zero). -/
def bufRig (r : BitVec 320) (x : Word) (fp : Path → Path := id) (fv : Wave → Wave := id) : State :=
  let s := (rig launchRec (if x = 0 then [] else [(20, x)]) fp fv).modBlk 0 fun k => { k with v := SMap.put zeroRow k.v 10 (List.replicate 32 x) }
  { s with mem := memPut s.mem (0x12000 + 64 * 5) (natBytes 40 r.toNat) }

/-- Every check of a fixed-size access passes. -/
def accessOk (s : State) (g : Bool) (a : Field) (rn : Nat) (need : Need) (size : Nat) (c : Ctx) : Bool :=
  match c.record s rn with
  | .ok rc s1 =>
    (rn == 0 || !recordMalformed rc) && rbPermits rc need && ((c.execLanes g).all fun ln => (c.address g a rn rc ln).toNat % size == 0) &&
      (rn == 0 || (c.execLanes g).all fun ln => c.offset g a rc ln + size ≤ rbExtent rc) &&
      ((c.execLanes g).all fun ln => (c.map s1 need (c.address g a rn rc ln)).toOption.isSome) && !recWatch (s1.launchOf c.b).record
  | _ => false

theorem accessOk_spec {s : State} {g : Bool} {a : Field} {rn : Nat} {need : Need} {size : Nat} {c : Ctx}
    (h : accessOk s g a rn need size c = true) : ∃ s1 rc ia, Access c s s1 g a rn rc need size ia ∧ NoConflict c s1 g rc fun ln => [ia ln] := by
  unfold accessOk at h
  split at h
  · rename_i rc s1 hr
    simp only [Bool.and_eq_true, Bool.or_eq_true, beq_iff_eq, List.all_eq_true, decide_eq_true_eq, Bool.not_eq_true'] at h
    obtain ⟨⟨⟨⟨⟨h1, h2⟩, h3⟩, h4⟩, h5⟩, h6⟩ := h
    refine ⟨s1, rc, fun ln => (c.map s1 need (c.address g a rn rc ln)).toOption.getD 0, ⟨hr, fun hn => h1.resolve_left hn, h2, h3,
      fun hn => h4.resolve_left hn, fun ln hl => ?_⟩, fun hw => by rw [h6] at hw; cases hw⟩
    have := h5 ln hl
    revert this
    cases c.map s1 need (c.address g a rn rc ln) <;> simp [Except.toOption]
  · cases h

/-- A fixed-size access whose checks all pass, with lanes to access and room in its counter. -/
theorem witness_accesses :
    (∀ i ∈ [Instr.ldS8 false false 5 10 0, .ldZ16 true false 5 10 0, .ld128 false false 60 10 0], ∃ c, At (bufRig (bufRec 7 0 0 1) 0x14010) c ∧ Passes c i ∧
      (accessOk (bufRig (bufRec 7 0 0 1) 0x14010) false 10 0 .load 16 c = true ∧ activeLanes c ≠ [] ∧ c.wv.lc < 63)) ∧
    (∃ c, At (bufRig (bufRec 7 0 0 1) 252) c ∧ Passes c (.ld32 false false 63 10 5) ∧
      (accessOk (bufRig (bufRec 7 0 0 1) 252) false 10 5 .load 4 c = true)) ∧
    (∃ c, At (bufRig (bufRec 7 0 0 1) 248 id fun v => { v with lc := 63 }) c ∧ Passes c (.ld64 false true 124 20 5) ∧
      (accessOk (bufRig (bufRec 7 0 0 1) 248 id fun v => { v with lc := 63 }) true 20 5 .load 8 c = true ∧ 63 ≤ c.wv.lc)) ∧
    (∃ c, At (bufRig (bufRec 7 0 0 1) 255 fun p => { p with exm := 0 }) c ∧ Passes c (.ldZ8 false false 5 10 5) ∧
      (accessOk (bufRig (bufRec 7 0 0 1) 255 fun p => { p with exm := 0 }) false 10 5 .load 1 c = true ∧ activeLanes c = [])) ∧
    (∀ i ∈ [Instr.st8 false false 5 10 5, .st16 false false 0x73 10 5, .st64 true false 62 10 5], ∃ c, At (bufRig (bufRec 7 0 0 1) 248) c ∧ Passes c i ∧
      (accessOk (bufRig (bufRec 7 0 0 1) 248) false 10 5 .store 8 c = true ∧ activeLanes c ≠ [] ∧ c.wv.sc < 63)) ∧
    ∀ i ∈ [Instr.atomAdd false 5 10 2 5, .atomxCas false 62 10 3 5, .atomxCas64 false 60 10 0 5, .redFadd false 5 10 1 5], ∃ c,
      At (bufRig (bufRec 7 0 0 1) 248 id fun v => { v with armed := some 2 }) c ∧ Passes c i ∧
        (accessOk (bufRig (bufRec 7 0 0 1) 248 id fun v => { v with armed := some 2 }) false 10 5 (.atomic true) 8 c = true ∧
          activeLanes c ≠ [] ∧ c.wv.lc < 63 ∧ c.wv.sc < 63 ∧ c.wv.r75 = true ∧ c.wv.tstgPending = false) :=
  ⟨met_all (by decide +kernel), met_spec (by decide +kernel), met_spec (by decide +kernel), met_spec (by decide +kernel),
    met_all (by decide +kernel), met_all (by decide +kernel)⟩

/-- Every check of a .E access passes; its record has no scale bytes. -/
def elementOk (s : State) (g : Bool) (d a : Field) (rn : Nat) (need : Need) (c : Ctx) : Bool :=
  match c.record s rn with
  | .ok rc s1 =>
    (rn == 0 || !recordMalformed rc) && ePermitted rc && (g || (if d.toNat < 0x70 then !c.runIll d.toNat (eRegs rc) (eEven rc) && !c.runXreg d.toNat (eRegs rc) else rbEpa rc == 1)) &&
      rbPermits rc need && ((c.execLanes g).all fun ln => eAligned rc (c.offset g a rc ln)) &&
      (rn == 0 || (c.execLanes g).all fun ln => eMortonOk rc (c.offset g a rc ln) && (eBytes rc (c.offset g a rc ln)).all (· < rbExtent rc)) &&
      ((c.execLanes g).all fun ln => (mapAll (c.map s1 need) (eVas rc (c.offset g a rc ln))).toOption.isSome) && rbSmode rc ≠ 2 &&
      !recWatch (s1.launchOf c.b).record
  | _ => false

theorem elementOk_spec {s : State} {g : Bool} {d a : Field} {rn : Nat} {need : Need} {c : Ctx}
    (h : elementOk s g d a rn need c = true) : ∃ s1 rc ias, ElementAccess c s s1 g d a rn rc need ias ∧ NoConflict c s1 g rc ias := by
  unfold elementOk at h
  split at h
  · rename_i rc s1 hr
    simp only [Bool.and_eq_true, Bool.or_eq_true, beq_iff_eq, List.all_eq_true, decide_eq_true_eq, Bool.not_eq_true', ne_eq] at h
    obtain ⟨⟨⟨⟨⟨⟨⟨⟨h1, h2⟩, h3⟩, h4⟩, h5⟩, h6⟩, h7⟩, h8⟩, h9⟩ := h
    refine ⟨s1, rc, fun ln => (mapAll (c.map s1 need) (eVas rc (c.offset g a rc ln))).toOption.getD [], ⟨hr, fun hn => h1.resolve_left hn, h2,
      fun hg => ?_, h4, h5, fun hn => h6.resolve_left hn, fun ln hl => ?_⟩, fun hw => by rw [h9] at hw; cases hw⟩
    · have := h3.resolve_left (by simp [hg])
      unfold RunOk
      split at this <;> rename_i hd
      · rw [if_pos hd]; simpa using this
      · rw [if_neg hd]; simpa using this
    · have := h7 ln hl
      revert this
      cases hm : mapAll (c.map s1 need) (eVas rc (c.offset g a rc ln)) with
      | error e => simp [Except.toOption]
      | ok l => exact fun _ => ⟨l, [], rfl, by simp [Except.toOption], by rw [if_neg h8]⟩
  · cases h

/-- .E accesses of two F16 elements into F32 registers, and of one F64 element. -/
theorem witness_element_accesses :
    (∃ c, At (bufRig (bufRec 7 0x08 0x21 2) 252) c ∧ Passes c (.ldE false false 62 10 5) ∧
      (elementOk (bufRig (bufRec 7 0x08 0x21 2) 252) false 62 10 5 .load c = true ∧ activeLanes c ≠ [] ∧ c.wv.lc < 63)) ∧
    ∃ c, At (bufRig (bufRec 7 0x0B 0x24 1) 248) c ∧ Passes c (.stE false false 62 10 5) ∧
      (elementOk (bufRig (bufRec 7 0x0B 0x24 1) 248) false 62 10 5 .store c = true ∧ c.wv.sc < 63) :=
  ⟨met_spec (by decide +kernel), met_spec (by decide +kernel)⟩

/-- A well-formed record can be read. -/
def recordFound (s : State) (rn : Nat) (c : Ctx) : Bool :=
  match c.record s rn with | .ok rc _ => rn == 0 || !recordMalformed rc | _ => false

theorem witness_cache_and_remote :
    (∀ i ∈ [Instr.pref false 10 5, .prefx false 10 126, .evict true 10 5], ∃ c, At (bufRig (bufRec 7 0 0 1) 252) c ∧ Passes c i ∧
      recordFound (bufRig (bufRec 7 0 0 1) 252) 5 c = true) ∧
    (∀ i ∈ [Instr.rst false 62 10 5, .rld false 62 10 5], ∃ c, At (bufRig (bufRec 7 0 0 2) 248) c ∧ Passes c i ∧
      (accessOk (bufRig (bufRec 7 0 0 2) 248) false 10 5 .load 8 c = true ∧ accessOk (bufRig (bufRec 7 0 0 2) 248) false 10 5 .store 8 c = true ∧
        c.runIll 62 2 false = false ∧ c.runXreg 62 2 = false)) ∧
    (∃ c, At (bufRig (bufRec 7 0 0 1) 252) c ∧ Passes c (.ratom false 8 10 5) ∧
      (accessOk (bufRig (bufRec 7 0 0 1) 252) false 10 5 (.atomic true) 4 c = true ∧ ∀ ln ∈ activeLanes c, (c.src 8 ln 1).toNat < 8)) ∧
    (∃ c, At (rig) c ∧ Passes c (.rfence false) ∧ c.wv.remotePending = false) ∧
    ∃ c, At (rig launchRec [] id fun v => { v with ops := [{ ctr := .sc, kind := .remStore 4 0, lanes := [{ lane := 0 }] }] }) c ∧
      Passes c (.rfence false) ∧ c.wv.remotePending = true :=
  ⟨met_all (by decide +kernel), met_all (by decide +kernel), met_spec (by decide +kernel), met_spec (by decide +kernel), met_spec (by decide +kernel)⟩

/-- An index at the record count, a record with a reserved field set, one without a permission, lanes off their alignment, and lanes
whose last byte is the first beyond the extent. -/
theorem witness_access_traps :
    (∃ c, At (rig (setFld launchRec 622 616 5)) c ∧ Passes c (.ld32 false false 5 10 5) ∧
      (c.wv.armed = none ∧ (match c.record (rig (setFld launchRec 622 616 5)) 5 with | .bad _ => true | _ => false) = true)) ∧
    (∃ c, At (bufRig (bufRec 15 0 0 1) 0) c ∧ Passes c (.st64 false false 62 10 5) ∧
      (match c.record (bufRig (bufRec 15 0 0 1) 0) 5 with | .ok rc _ => recordMalformed (rc ||| BitVec.ofNat 320 (2 ^ 292)) | _ => false) = true) ∧
    (∃ c, At (bufRig (bufRec 1 0 0 1) 0) c ∧ Passes c (.redAdd false 5 10 0 5) ∧
      (match c.record (bufRig (bufRec 1 0 0 1) 0) 5 with | .ok rc _ => !recordMalformed rc && !rbPermits rc (.atomic false) | _ => false) = true) ∧
    (∃ c, At (bufRig (bufRec 7 0 0 1) 255) c ∧ Passes c (.ldS16 false false 5 10 5) ∧
      (match c.record (bufRig (bufRec 7 0 0 1) 255) 5 with | .ok rc _ => (c.address false 10 5 rc 31).toNat % 2 ≠ 0 | _ => false) = true) ∧
    ∃ c, At (bufRig (bufRec 7 0 0 1) 256) c ∧ Passes c (.atomxCas64 false 60 10 0 5) ∧
      (match c.record (bufRig (bufRec 7 0 0 1) 256) 5 with
        | .ok rc _ => (c.address false 10 5 rc 31).toNat % 8 == 0 && decide (rbExtent rc < c.offset false 10 rc 31 + 8) | _ => false) = true :=
  ⟨met_spec (by decide +kernel), met_spec (by decide +kernel), met_spec (by decide +kernel), met_spec (by decide +kernel), met_spec (by decide +kernel)⟩

/-- Every check of a local access passes; none of its lanes names the cluster or the profiling control. -/
def localOk (s : State) (a : Field) (o : BitVec 7) (size : Nat) (atom : Bool) (c : Ctx) : Bool :=
  (activeLanes c).all fun ln => c.la a o size ln % size == 0 && c.la a o size ln < 0x64040020 &&
    match c.localAt s (c.la a o size ln) size atom with | some (.cluster _ _) => false | some _ => true | none => false

theorem localOk_spec {s : State} {d a : Field} {o : BitVec 7} {size nregs : Nat} {store atom : Bool} {c : Ctx}
    (h : localOk s a o size atom c = true) : LocalAccess c s d a o size nregs store atom := by
  simp only [localOk, List.all_eq_true, Bool.and_eq_true, beq_iff_eq, decide_eq_true_eq] at h
  refine ⟨fun ln hl => (h ln hl).1.1, fun ln hl => ?_, fun _ => Or.inl (List.filter_eq_nil_iff.2 fun ln hl => ?_)⟩
  · have := (h ln hl).2
    split at this
    · cases this
    · rename_i t ht _
      exact ⟨_, ‹_›, fun rank off e => by subst e; simp_all⟩
    · cases this
  · have := (h ln hl).1.2
    simp only [Bool.and_eq_true, decide_eq_true_eq, not_and]
    intro h1; omega

theorem witness_local_accesses :
    (∀ i ∈ [Instr.ldlS8 false 5 10 0, .ldl128 false 60 10 0, .stl64 false 62 10 0, .atomlCas false 62 10 0, .stl32 true 0x7F 10 0], ∃ c,
      At (bufRig 0 4080) c ∧ Passes c i ∧ (localOk (bufRig 0 4080) 10 0 16 false c = true ∧ localOk (bufRig 0 4080) 10 0 4 true c = true ∧
        activeLanes c ≠ [] ∧ c.wv.lc < 63 ∧ c.wv.sc < 63)) ∧
    ∃ c, At (bufRig 0 3584) c ∧ Passes c (.ldl32 false 5 10 127) ∧ localOk (bufRig 0 3584) 10 127 4 false c = true :=
  ⟨met_all (by decide +kernel), met_spec (by decide +kernel)⟩

/-- Lanes off their alignment, and lanes at the first byte beyond the scratchpad. -/
theorem witness_local_traps :
    (∃ c, At (bufRig 0 4081) c ∧ Passes c (.ldl64 false 62 10 0) ∧ (activeLanes c).filter (fun ln => decide (c.la 10 0 8 ln % 8 ≠ 0)) ≠ []) ∧
    ∃ c, At (bufRig 0 4096) c ∧ Passes c (.atomlAdd false 5 10 0) ∧
      ((activeLanes c).filter (fun ln => decide (c.la 10 0 4 ln % 4 ≠ 0)) = [] ∧
        (activeLanes c).filter (fun ln => (c.localAt (bufRig 0 4096) (c.la 10 0 4 ln) 4 true).isNone) ≠ []) :=
  ⟨met_spec (by decide +kernel), met_spec (by decide +kernel)⟩

/-! ### Copies and the matrix engine (chapters 06 and 11) -/

/-- The rig with `r` as record 5. -/
def recRig (r : BitVec 320) (gs : List (Nat × Word)) (fv : Wave → Wave := id) : State :=
  let s := rig launchRec gs id fv
  { s with mem := memPut s.mem (0x12000 + 64 * 5) (natBytes 40 r.toNat) }

def recordIs (s : State) (c : Ctx) (rn : Nat) (p : BitVec 320 → State → Bool) : Bool :=
  match c.record s rn with
  | .ok rc s1 => p rc s1
  | _ => false

/-- Every check of a CPY passes. -/
def copyOk (s : State) (x : Copy) (rn : Nat) (c : Ctx) : Bool :=
  x.dst % 4 == 0 && x.src % 4 == 0 && x.len % 4 == 0 && x.len != 0 &&
  recordIs s c rn fun rc s1 => (rn == 0 || !recordMalformed rc) && rbKind rc == 1 &&
    [((fnSides x.fn).2, x.dst, Need.store), ((fnSides x.fn).1, x.src, Need.load)].all fun e =>
      (e.1 != .loc || decide (e.2.1 + x.len ≤ c.sb)) &&
      (e.1 != .glob || rbPermits rc e.2.2 && (rn == 0 || decide (rbBase rc ≤ e.2.1 ∧ e.2.1 + x.len ≤ rbBase rc + rbExtent rc)) &&
        (spanVas e.2.1 x.len).all fun va => (c.map s1 e.2.2 (BitVec.ofNat 64 va)).toOption.isSome)

theorem copyOk_spec {s : State} {x : Copy} {rn : Nat} {c : Ctx} (h : copyOk s x rn c = true) : ∃ s1 rc, CopyOk c s s1 x rn rc := by
  simp only [copyOk, recordIs, Bool.and_eq_true, beq_iff_eq, bne_iff_ne, ne_eq] at h
  obtain ⟨⟨⟨⟨h1, h2⟩, h3⟩, h4⟩, h5⟩ := h
  split at h5
  · rename_i rc s1 hr
    simp only [Bool.and_eq_true, Bool.or_eq_true, beq_iff_eq, List.all_eq_true, Bool.not_eq_true', bne_iff_ne, ne_eq, decide_eq_true_eq] at h5
    obtain ⟨⟨h5, h6⟩, h7⟩ := h5
    refine ⟨s1, rc, ⟨h1, h2, h3, h4⟩, hr, ⟨fun hn => h5.resolve_left hn, h6⟩, fun e he => ⟨fun hs => ?_, fun hs => ?_⟩⟩
    · exact (h7 e he).1.resolve_left (fun h => h hs)
    · obtain ⟨⟨h8, h9⟩, h10⟩ := (h7 e he).2.resolve_left (fun h => h hs)
      refine ⟨h8, fun hn => h9.resolve_left hn, fun va hv => ?_⟩
      have := h10 va hv
      revert this
      cases c.map s1 e.2.2 (BitVec.ofNat 64 va) <;> simp [Except.toOption]
  · cases h5

/-- A copy of `len` bytes between 0x14000 and g4. -/
def copyRig (g4 : Word) (len : Nat) : State := recRig (bufRec 7 0 0 1) [(2, 0x14000), (4, g4), (6, BitVec.ofNat 32 (len * 128 + 5))]
/-- The same with a full copy unit. -/
def fullUnit : State := { copyRig 0x14080 128 with copies := List.replicate 64 {} }

/-- 256 bytes, to the end of the extent and of the scratchpad, both ways; 128 bytes within memory; a copy unit that is full. -/
theorem witness_copies :
    (∃ c, At (copyRig 3840 256) c ∧ Passes c (.cpyGl false 4 2 6) ∧
      (copyOk (copyRig 3840 256) { fn := 0, ops := c.copyWords 0 4 2 6 1 } 5 c = true ∧ (c.g 6).toNat % 128 = 5 ∧
        (copyRig 3840 256).unitLoad c.blk.core < 64)) ∧
    (∃ c, At (copyRig 3840 256) c ∧ Passes c (.cpyLg false 2 4 6) ∧
      copyOk (copyRig 3840 256) { fn := 1, ops := c.copyWords 1 2 4 6 1 } 5 c = true) ∧
    (∃ c, At (copyRig 0x14080 128) c ∧ Passes c (.cpyGg false 4 2 6) ∧
      copyOk (copyRig 0x14080 128) { fn := 2, ops := c.copyWords 2 4 2 6 1 } 5 c = true) ∧
    ∃ c, At fullUnit c ∧ Passes c (.cpyGg false 4 2 6) ∧
      (copyOk fullUnit { fn := 2, ops := c.copyWords 2 4 2 6 1 } 5 c = true ∧ 64 ≤ fullUnit.unitLoad c.blk.core) :=
  ⟨met_spec (by decide +kernel), met_spec (by decide +kernel), met_spec (by decide +kernel), met_spec (by decide +kernel)⟩

/-- A CPT of a shape record at 0x15000: rank 1, a box of 4 of the 4 elements at 0x14000, its encodings `enc`. -/
def shapeRig (enc : Nat) (la : Word) : State :=
  let s := rig launchRec [(4, la), (8, 0x15000)]
  { s with mem := memPut s.mem 0x15000 (natBytes 64 (0x14000 + 4 * 2 ^ 64 + 3 * 2 ^ 312 + 2 ^ 344 + enc * 2 ^ 352 + enc * 2 ^ 360)) }

/-- What a CPT meets up to its shape record, and how the copy enters. -/
def shapeOk (s : State) (fn : Nat) (ok inside : Bool) (c : Ctx) : Bool :=
  let x0 : Copy := { fn, ops := c.copyWords fn 4 8 4 4 }
  (c.g 4).toNat % 16 == 0 && x0.word64 2 % 64 == 0 && (c.g 5).toNat < 2 ^ 20 && s.unitLoad c.blk.core < 64 &&
    match c.shapeRecord s (BitVec.ofNat 64 (x0.word64 2)) with
    | (.ok r, s1) =>
      let x : Copy := { x0 with next := x0.first, snap := r }
      s1.unitLoad c.blk.core < 64 && shValid (fn == 3) r (x.org 0) == ok && decide ((c.g 4).toNat + shFoot r ≤ c.sb) == inside
    | _ => false

/-- A valid record whose footprint ends at the scratchpad's end; an invalid one; a footprint beyond the scratchpad. -/
theorem witness_shaped_copies :
    (∀ i ∈ [Instr.cptGl false 4 8 1, .cptLg false 4 8 1], ∃ c, At (shapeRig 0x0A 4080) c ∧ Passes c i ∧
      (shapeOk (shapeRig 0x0A 4080) 3 true true c = true ∧ shapeOk (shapeRig 0x0A 4080) 4 true true c = true)) ∧
    (∃ c, At (shapeRig 0xFF 0) c ∧ Passes c (.cptGl false 4 8 1) ∧ shapeOk (shapeRig 0xFF 0) 3 false true c = true) ∧
    ∃ c, At (shapeRig 0x0A 4096) c ∧ Passes c (.cptLg false 4 8 1) ∧ shapeOk (shapeRig 0x0A 4096) 4 true false c = true :=
  ⟨met_all (by decide +kernel), met_spec (by decide +kernel), met_spec (by decide +kernel)⟩

/-- A wave whose batches are complete up to 1, with a failure of batch `b` latched. -/
def batchRig (b : Nat) : State := rig launchRec [(4, 1), (8, 0x14020)] id fun v =>
  { v with openBatch := 2, batchDone := 1, latch := some (b, 0xFF), sc := 1 }

/-- CPBATCH with and without a cell; CPWAIT for a batch below, at and above those complete, with its failure latched, with a later
one, and with none; RECFENCE with SC zero and not. -/
theorem witness_batch_words :
    (∀ i ∈ [Instr.cpbatch false 0, .cpbatch false 8, .cpwait false 5 4, .recfence false], ∃ c, At (batchRig 1) c ∧ Passes c i ∧
      ((c.bc64 8).toNat % 32 = 0 ∧ (c.map (batchRig 1) .store (c.bc64 8)).toOption.isSome = true ∧
        (c.bc 4 - BitVec.ofNat 32 (c.wv.openBatch - 1)).toInt = 0 ∧ (c.wv.batchDone - c.bc 4).toInt = 0 ∧ c.wv.sc ≠ 0 ∧
        c.wv.latch = some (1, 0xFF))) ∧
    (∃ c, At (batchRig 2) c ∧ Passes c (.cpwait false 5 4) ∧
      ((c.wv.batchDone - c.bc 4).toInt = 0 ∧ c.wv.latch = some (2, 0xFF) ∧ (c.bc 4 - BitVec.ofNat 32 2).toInt = -1)) ∧
    (∃ c, At (rig launchRec [(4, 0xFFFFFFFF)]) c ∧ Passes c (.cpwait false 5 4) ∧
      (c.wv.latch = none ∧ (c.bc 4 - BitVec.ofNat 32 (c.wv.openBatch - 1)).toInt ≤ 0 ∧ 0 ≤ (c.wv.batchDone - c.bc 4).toInt)) ∧
    (∃ c, At (rig launchRec [(4, 2)] id fun v => { v with openBatch := 3, batchDone := 1 }) c ∧ Passes c (.cpwait false 5 4) ∧
      ((c.bc 4 - BitVec.ofNat 32 (c.wv.openBatch - 1)).toInt = 0 ∧ (c.wv.batchDone - c.bc 4).toInt = -1)) ∧
    ∃ c, At (rig) c ∧ Passes c (.recfence false) ∧ c.wv.sc = 0 :=
  ⟨met_all (by decide +kernel), met_spec (by decide +kernel), met_spec (by decide +kernel), met_spec (by decide +kernel), met_spec (by decide +kernel)⟩

/-- A wave of a quorum with itself as A0 and wave 1 as B0, with more of its state set. -/
def quorumRig (gs : List (Nat × Word)) (fv : Wave → Wave := id) : State :=
  rig launchRec gs id fun v => fv { v with quorum := 0x80000000 + 0x421 }

/-- Each MMA of a wave in role A, with MC below its limit and at it; the other role's run, and the scaled formats' 17 registers. -/
theorem witness_matrix_multiply :
    (∀ i ∈ [Instr.mmaE4m3 false 4 0 0, .mmaE5m2 false 4 0 0, .mmaBf16 false 4 0 0, .mmaF16 false 4 0 0, .mmaMxe4m3 false 4 0 0,
        .mmaMxe2m3 false 4 0 0, .mmaMxe2m1 false 4 0 0, .mmaS8 false 4 47 0], ∃ c, At (quorumRig []) c ∧ Passes c i ∧
      (c.wv.roleRun c.w 47 0 = some 47 ∧ c.runIll 47 17 false = false ∧ c.runXreg 47 17 = false ∧
        tdOk (c.g 4) c.trows (64 * (qrA c.wv.quorum).length) (64 * (qrB c.wv.quorum).length) = true ∧
        (c.wv.paths.filter Path.live).length ≤ 1 ∧ (∀ w ∈ qrMembers c.wv.quorum, ((quorumRig []).wv c.b w).st = .live) ∧ c.wv.mc < 63)) ∧
    ∃ c, At (quorumRig [] fun v => { v with mc := 63 }) c ∧ Passes c (.mmaE4m3 false 4 0 0) ∧ 63 ≤ c.wv.mc :=
  ⟨met_all (by decide +kernel), met_spec (by decide +kernel)⟩

/-- TILE words whose region ends at the tile store's last column; a full queue; no active lane. -/
theorem witness_tile_words :
    (∀ i ∈ [Instr.tld false 5 1 15, .tst false 5 1 15, .tldg false 4 2 6, .tstg false 4 2 6, .tzero false 4 6, .tcvt false 4 5 6], ∃ c,
      At (rig launchRec [(1, 0xF0020), (2, 0x14000), (4, 0xFF03C), (6, 0x0300), (7, 4)]) c ∧ Passes c i ∧
        ((activeLanes c).getLast? = some 31 ∧ tdOk (c.bc 1) c.trows 32 16 = true ∧ tdOk (c.bc 4) c.trows 4 1 = true ∧ (c.bc 6).toNat < 2 ^ 16 ∧
          tdOk (c.bc 4) c.trows 4 (tcvtCols 0 1) = true ∧ tdOk (c.bc 5) c.trows 4 1 = true ∧ (c.g 7).toNat % 4 = 0 ∧ 4 ≤ (c.g 7).toNat ∧
          (((List.range 4).flatMap fun r => spanVas ((c.bc64 2).toNat + r * 4) 4).all fun x =>
            (c.map (rig) .store (BitVec.ofNat 64 x)).toOption.isSome) = true ∧ c.wv.mc < 63)) ∧
    (∃ c, At ((rig).modCore 0 fun k => { k with matq := List.replicate 16 { block := 0, waves := [], kind := .tzero 0 1 1, lanes := [] } }) c ∧
      Passes c (.tzero false 4 6) ∧ 16 ≤ (((rig).modCore 0 fun k => { k with matq := List.replicate 16 { block := 0, waves := [], kind := .tzero 0 1 1, lanes := [] } }).core c.blk.core).matq.length) ∧
    ∃ c, At (rig (fp := fun p => { p with exm := 0 })) c ∧ Passes c (.tld false 5 1 0) ∧ activeLanes c = [] :=
  ⟨met_all (by decide +kernel), met_spec (by decide +kernel), met_spec (by decide +kernel)⟩

/-- Values that QSET takes and does not; QARR, QWAIT and QDROP with MC zero and not, with members behind, and with no quorum. -/
theorem witness_quorum_words :
    (∃ c, At (rig launchRec [(4, 0x80000421)]) c ∧ Passes c (.qset false 4) ∧ (c.bc 4 = 0x80000421 ∧ c.w = 0 ∧ c.nw = 2 ∧ recRV c.lr = false)) ∧
    (∃ c, At (rig launchRec [(4, 0x80000000)]) c ∧ Passes c (.qset false 4) ∧ ¬(qrA (c.bc 4) ++ qrB (c.bc 4)).Nodup) ∧
    (∀ i ∈ [Instr.qarr false, .qwait false, .qdrop false], ∃ c, At (quorumRig []) c ∧ Passes c i ∧
      (c.wv.quorum.getLsbD 31 = true ∧ c.wv.mc = 0 ∧ qrMembers c.wv.quorum ≠ [] ∧
        ∀ w ∈ qrMembers c.wv.quorum, c.wv.qarr ≤ ((quorumRig []).wv c.b w).qarr)) ∧
    (∃ c, At (quorumRig [] fun v => { v with qarr := 1 }) c ∧ Passes c (.qwait false) ∧
      (((quorumRig [] fun v => { v with qarr := 1 }).wv c.b 1).qarr < c.wv.qarr ∧ 1 ∈ qrMembers c.wv.quorum ∧
        ∀ w ∈ qrMembers c.wv.quorum, ((quorumRig [] fun v => { v with qarr := 1 }).wv c.b w).st = .live)) ∧
    (∀ i ∈ [Instr.qarr false, .qdrop false], ∃ c, At (quorumRig [] fun v => { v with mc := 1 }) c ∧ Passes c i ∧
      (c.wv.mc ≠ 0 ∧ c.wv.quorum.getLsbD 31 = true)) ∧
    ∀ i ∈ [Instr.qarr false, .qwait false], ∃ c, At (rig) c ∧ Passes c i ∧ c.wv.quorum.getLsbD 31 = false :=
  ⟨met_spec (by decide +kernel), met_spec (by decide +kernel), met_all (by decide +kernel), met_spec (by decide +kernel), met_all (by decide +kernel),
    met_all (by decide +kernel)⟩

/-! ### Co-processors, the shading cache, TASK and PRIV (chapters 12, 13, 16, 03 and 20) -/

/-- An image record of one texel of format 3 at 0x10000, with read permission by `rd`. -/
def imageRec (rd : Nat) : BitVec 320 := BitVec.ofNat 320 (0x10000 + 2 * 2 ^ 144 + 3 * 2 ^ 176 + rd * 2 ^ 288)

theorem witness_textures :
    (∀ i ∈ [Instr.samp false 20 8 5, .sampg false 20 8 5, .sampb false 20 8 5, .fetch false 20 8 5, .fetchf false 59 8 5, .gath4 false 20 8 5,
        .resq false 20 8 5], ∃ c, At (recRig (imageRec 1) []) c ∧ Passes c i ∧
      ((recordIs (recRig (imageRec 1) []) c 5 fun rc s1 => imOk rc && rbRD rc && imLp rc (imLevels rc) == 1 && s1.unitOps c.blk.core 1 == 0 &&
        (c.map s1 .load (BitVec.ofNat 64 (rbBase rc))).toOption.isSome) = true ∧ activeLanes c ≠ [] ∧ c.wv.cc < 63)) ∧
    ∃ c, At (recRig (imageRec 0) [] fun v => { v with ops := List.replicate 64 { ctr := .cc, kind := .tex 6 0, lanes := [{}] } }) c ∧
      Passes c (.resq false 20 8 5) ∧
      64 ≤ (recRig (imageRec 0) [] fun v => { v with ops := List.replicate 64 { ctr := .cc, kind := .tex 6 0, lanes := [{}] } }).unitOps c.blk.core 1 :=
  ⟨met_all (by decide +kernel), met_spec (by decide +kernel)⟩

/-- A stack of `n` registers at v32 and one spilled entry, of depth `k` in every lane. -/
def stackRig (n k : Nat) (x : Word := 0) : State :=
  (rig launchRec [(2, 0x14000), (4, BitVec.ofNat 32 (2 ^ 16 + n - 1))] id fun v =>
    { v with stkInit := true, stkReg := 32, stkCtl := BitVec.ofNat 32 (2 ^ 16 + n - 1), stkSpill := 0x14000
             stkDepth := (List.range 32).map fun ln => (ln, k) }).modBlk 0 fun b => { b with v := SMap.put zeroRow b.v 10 (List.replicate 32 x) }

/-- RAYLD and STKINIT; BOXT and TRIT at aligned mapped nodes; pushes and pops in registers, in the spill area, full and empty;
a wave without a stack. -/
theorem witness_traversal :
    (∀ i ∈ [Instr.rayld false 56, .boxt false 54 10, .trit false 60 10, .stkinit false 32 2 4], ∃ c, At (stackRig 32 0 0x14040) c ∧ Passes c i ∧
      ((stackRig 32 0 0x14040).unitOps c.blk.core 2 < 64 ∧ c.pa.mode = .plain ∧ c.runIll 32 32 false = false ∧ c.runXreg 32 32 = false ∧
        (c.bc64 2).toNat % 128 = 0 ∧ (c.bc 4).toNat / 32 % 2 ^ 11 = 0 ∧
        ((spanVas (c.bc64 2).toNat 128).all fun x => (c.map (rig) .store (BitVec.ofNat 64 x)).toOption.isSome) = true ∧
        (∀ ln ∈ activeLanes c, (c.v ln 10 1 ++ c.v ln 10 0).toNat % 64 = 0) ∧
        (activeLanes c).all (fun ln => (c.map (stackRig 32 0 0x14040) .load (c.v ln 10 1 ++ c.v ln 10 0 + 191)).toOption.isSome) = true)) ∧
    (∀ i ∈ [Instr.stkpush false 10, .stkpop false 20], ∃ c, At (stackRig 4 3) c ∧ Passes c i ∧
      (c.wv.stkInit = true ∧ ∀ ln ∈ activeLanes c, SMap.get 0 c.wv.stkDepth ln = 3)) ∧
    (∀ i ∈ [Instr.stkpush false 10, .stkpop false 20], ∃ c, At (stackRig 4 5) c ∧ Passes c i ∧
      (c.wv.stkInit = true ∧ ∀ ln ∈ activeLanes c, SMap.get 0 c.wv.stkDepth ln = stkN c.wv.stkCtl + stkSpillN c.wv.stkCtl)) ∧
    (∃ c, At (stackRig 4 0) c ∧ Passes c (.stkpop false 20) ∧ SMap.get 0 c.wv.stkDepth 31 = 0) ∧
    ∃ c, At (rig) c ∧ Passes c (.stkpush false 10) ∧ c.wv.stkInit = false :=
  ⟨met_all (by decide +kernel), met_all (by decide +kernel), met_all (by decide +kernel), met_spec (by decide +kernel), met_spec (by decide +kernel)⟩

/-- The wave's job is `mine`, of the jobs `js` of its core; its lane 0 holds fragment `f`. -/
def rasterRig (js : List Nat) (f : List Frag) : State :=
  (rig launchRec [(4, 0x14000)] id fun v => { v with rjob := some 0x14000, frags := f }).modCore 0 fun k =>
    { k with rjobs := js.map fun va => { asid := 0, va } }

theorem witness_raster :
    (∀ i ∈ [Instr.frag false 61 4, .cover false 60 10, .ordbPx false, .ordbSmp false, .orde false], ∃ c, At (rasterRig [0x14000] []) c ∧ Passes c i ∧
      (c.pa.mode = .plain ∧ recWatch c.lr = false ∧ (((rasterRig [0x14000] []).core c.blk.core).rjobs.any (isJob c.asid (c.bc64 4).toNat)) = true ∧
        c.wv.rjob = some 0x14000 ∧ activeLanes c ≠ [] ∧ c.activeFrags = [] ∧ c.wv.lc = 0 ∧ c.wv.relReady = true)) ∧
    (∃ c, At (rasterRig [1, 2, 3, 4] []) c ∧ Passes c (.frag false 61 4) ∧
      (((rasterRig [1, 2, 3, 4] []).core c.blk.core).rjobs.any (isJob c.asid (c.bc64 4).toNat) = false ∧
        4 ≤ ((rasterRig [1, 2, 3, 4] []).core c.blk.core).rjobs.length)) ∧
    ∀ e ∈ [(false, Instr.ordbPx false), (true, .ordbSmp false)], ∃ c,
      At (rasterRig [0x14000] [{ job := 0x14000, lane := 0, tri := 1, mask := 1, places := 1 }, { job := 0x14000, lane := 1, mask := 1, places := 1 }]) c ∧
      Passes c e.2 ∧ (c.activeFrags.any fun f => (rasterRig [0x14000] [{ job := 0x14000, lane := 0, tri := 1, mask := 1, places := 1 },
        { job := 0x14000, lane := 1, mask := 1, places := 1 }]).ordered c.blk.core c.asid f e.1) = true := by
  refine ⟨met_all (by decide +kernel), met_spec (by decide +kernel), fun e he => ?_⟩
  rcases List.mem_cons.1 he with rfl | he
  · exact met_spec (by decide +kernel)
  · rw [List.mem_singleton.1 he]; exact met_spec (by decide +kernel)

/-- A shade-stage wave, with operands that fit and that do not; another wave; SCWAIT with its outcomes, and without. -/
def shadeRig (x : Word) (fp : Path → Path := id) (fv : Wave → Wave := id) : State :=
  (rig (setFld launchRec 737 736 3) [] fp fv).modBlk 0 fun k => { k with v := SMap.put zeroRow k.v 11 (List.replicate 32 x) }

theorem witness_shading :
    (∀ i ∈ [Instr.scq false 60 10, .scinv false 5 10, .scpin false 5 10, .scunpin false 5 10, .scabort false 5 4, .scpub false 5 4, .sctick false],
      ∃ c, At (shadeRig 0xFFFFFF) c ∧ Passes c i ∧ (c.shade = true ∧ c.pa.mode = .plain ∧ recWatch c.lr = false ∧ c.wv.relReady = true ∧
        (∀ ln ∈ activeLanes c, (c.opnd64 false 10 ln).toNat < 2 ^ 56 ∧ (c.src 10 ln 0).toNat < 2 ^ 24) ∧ activeLanes c ≠ [] ∧
        c.world = (shadeRig 0).shade.clockw ∧ c.wv.cc < 63 ∧ (shadeRig 0).unitOps c.blk.core 4 < 64)) ∧
    (∀ i ∈ [Instr.scq false 60 10, .scinv false 5 11], ∃ c, At (shadeRig 0x1000000) c ∧ Passes c i ∧
      (2 ^ 56 ≤ (c.opnd64 false 10 31).toNat ∧ 2 ^ 24 ≤ (c.src 11 31 0).toNat ∧ 31 ∈ activeLanes c)) ∧
    (∀ i ∈ [Instr.scpub false 5 4, .sctick false], ∃ c, At ({ rig with shade := { (rig).shade with clockw := 1 } } : State) c ∧ Passes c i ∧
      (c.shade = false ∧ c.world ≠ 1)) ∧
    (∃ c, At (shadeRig 0 (fun p => { p with phase := 2 }) fun v => { v with scwait := [(31, 0, some 7)] }) c ∧ Passes c (.scwait false 5 10) ∧
      (c.pa.phase = 2 ∧ activeLanes c ≠ [] ∧ c.wv.scwait = [(31, 0, some 7)] ∧ c.wv.cc < 63)) ∧
    ∃ c, At (shadeRig 0 (fun p => { p with phase := 2 }) fun v => { v with scwait := [(31, 0, none)] }) c ∧ Passes c (.scwait false 5 10) ∧
      (c.pa.phase = 2 ∧ c.wv.scwait = [(31, 0, none)]) :=
  ⟨met_all (by decide +kernel), met_all (by decide +kernel), met_all (by decide +kernel), met_spec (by decide +kernel), met_spec (by decide +kernel)⟩

/-- TASK at an aligned mapped VA: the highest DEC amount, TLAUNCH of a job and of a record; an address off its alignment. -/
theorem witness_tasks :
    (∀ i ∈ [Instr.tlaunch false 5 2 4, .tdec false 5 2 6, .tcancel false 5 2, .tstat false 5 2, .tlaunchJob false 5 2 8], ∃ c,
      At (rig launchRec [(2, 0x14000), (6, 0xFFFF), (8, 15)]) c ∧ Passes c i ∧ ((c.bc64 2).toNat % 256 = 0 ∧ c.bc 4 = 0 ∧ c.bc 6 = 0xFFFF ∧
        c.bc 8 = 15 ∧ (c.map (rig) (.atomic true) (c.bc64 2)).toOption.isSome = true ∧ (c.map (rig) .load (c.bc64 2)).toOption.isSome = true ∧ c.wv.lc < 63)) ∧
    ∀ i ∈ [Instr.tdec false 5 2 4, .tstat false 5 2], ∃ c, At (rig launchRec [(2, 0x14010)]) c ∧ Passes c i ∧ (c.bc64 2).toNat % 32 ≠ 0 :=
  ⟨met_all (by decide +kernel), met_all (by decide +kernel)⟩

/-- PRIV with operands at both ends of their ranges, and with another world's control word. -/
theorem witness_privileged :
    (∀ i ∈ [Instr.invr false 2 4, .invrRangedesc false 2 6, .replayByPage false 2 8, .replayByToken false 2 10, .pin false 5 2 12, .unpin false 5 2 12,
        .frpop false 5, .migr false 5 14, .dbghalt false 5 8, .dbgres false 5 8], ∃ c,
      At (rig launchRec [(4, 0x00100000), (6, 0x00010000), (10, 0x00010000), (12, 0x00010000), (14, 0x14020)]) c ∧ Passes c i ∧
        (c.world = 0 ∧ OwnIA c (c.bc64 2) ∧ (c.bc64 2).toNat % 2 ^ 16 = 0 ∧ (c.bc 4).toNat / 2 ^ 20 = 1 ∧ (c.bc 6).toNat / 2 ^ 16 % 4 = 1 ∧
          (c.bc 8) = 0 ∧ (c.bc 12).toNat / 2 ^ 16 = 1 ∧ (c.bc64 14).toNat % 32 = 0 ∧
          (c.map (rig) .load (c.bc64 14)).toOption.isSome = true ∧ c.wv.lc < 63 ∧ c.wv.sc < 63)) ∧
    ∀ i ∈ [Instr.invr false 2 4, .replayByPage false 2 4, .pin false 5 2 4, .unpin false 5 2 4], ∃ c, At (rig launchRec [(4, 0x1000)]) c ∧
      Passes c i ∧ ¬((c.bc 4).toNat / 2 ^ 12 % 16 = c.world) := by
  constructor
  · exact met_all (P := fun c => c.world = 0 ∧ ((c.bc64 2).toNat / 2 ^ 48 % 16 = c.world ∧ (c.bc64 2).toNat / 2 ^ 44 % 16 ≠ 15 ∧ (c.bc64 2).toNat < 2 ^ 52) ∧
      (c.bc64 2).toNat % 2 ^ 16 = 0 ∧ (c.bc 4).toNat / 2 ^ 20 = 1 ∧ (c.bc 6).toNat / 2 ^ 16 % 4 = 1 ∧
      (c.bc 8) = 0 ∧ (c.bc 12).toNat / 2 ^ 16 = 1 ∧ (c.bc64 14).toNat % 32 = 0 ∧
      (c.map (rig) .load (c.bc64 14)).toOption.isSome = true ∧ c.wv.lc < 63 ∧ c.wv.sc < 63) (by decide +kernel)
  · exact met_all (by decide +kernel)

/-! ### Events (chapters 03, 04, 05, 06, 07, 11, 12, 13 and 15) -/

/-- The rig with wave 0 changed. -/
def waveRig (fv : Wave → Wave) : State := rig launchRec [] id fv

/-- The IA of the code and data of the rig at `pa`. -/
def ia0 (pa : Nat) : Nat := directIA 0 pa

/-- A path of the rig at a clause header. -/
def headRig (hdr : Word) (fp : Path → Path := id) (fv : Wave → Wave := id) : State :=
  poke (rig launchRec [] (fun p => fp { p with cpos := 0 }) fv) 0x10000 hdr

/-- The header at the path's PC, and the words of its clause, are fetched; whether one of them is misplaced. -/
def headFound (s : State) (hdr : Word) (bad : Bool) (c : Ctx) : Bool :=
  match c.fetch s c.pa.pc with
  | .ok w s1 => w == hdr && (match c.clauseWords c.pa.pc 15 s1 15 1 0 with | .bad _ => bad | .ok _ _ => !bad | .park _ => false)
  | _ => false

/-- A header that is well formed, its waits met and not, one with a misplaced word behind it, one that is no header, one off its word, one
that is not mapped; a held header, its waits met and not. -/
theorem witness_clause_headers :
    (∃ c, At (headRig (header 7)) c ∧ (c.pa.headerHeld = false ∧ c.pa.pc.toNat % 4 = 0 ∧ headFound (headRig (header 7)) (header 7) false c = true ∧
      c.pa.mode = .plain ∧ c.wv.mc = 0)) ∧
    (∃ c, At (headRig (header 7 - 15) id fun v => { v with mc := 1 }) c ∧
      (c.pa.headerHeld = false ∧ headFound (headRig (header 7 - 15) id fun v => { v with mc := 1 }) (header 7 - 15) false c = true ∧ c.wv.mc = 1)) ∧
    (∃ c, At (poke (headRig (header 7)) 0x10004 0x2B27FFF8) c ∧ headFound (poke (headRig (header 7)) 0x10004 0x2B27FFF8) (header 7) true c = true) ∧
    (∃ c, At (headRig 0) c ∧ (c.pa.headerHeld = false ∧ headFound (headRig 0) 0 false c = true ∧ fld (0 : Word) 31 27 ≠ 0b11110)) ∧
    (∃ c, At (headRig 0 fun p => { p with pc := 0x10002 }) c ∧ (c.pa.headerHeld = false ∧ c.pa.pc.toNat % 4 ≠ 0)) ∧
    (∃ c, At (headRig 0 fun p => { p with pc := 0x70000000 }) c ∧ (c.pa.headerHeld = false ∧
      (match c.fetch (headRig 0 fun p => { p with pc := 0x70000000 }) c.pa.pc with | .trap code _ => decide (code ≠ 0) | _ => false) = true)) ∧
    ∀ n ∈ [(0 : Nat), 1], ∃ c, At (headRig 0 (fun p => { p with hdr := header 7 - 15, words := [some 0], blocked := some .waitMx }) fun v => { v with mc := n }) c ∧
      (c.pa.headerHeld = true ∧ c.wv.mc = n ∧ c.pa.hdr = header 7 - 15) := by
  refine ⟨here_spec (by decide +kernel), here_spec (by decide +kernel), here_spec (by decide +kernel), here_spec (by decide +kernel),
    here_spec (by decide +kernel), here_spec (by decide +kernel), fun n hn => ?_⟩
  rcases List.mem_cons.1 hn with rfl | hn
  · exact here_spec (by decide +kernel)
  · rcases List.mem_singleton.1 hn with rfl
    exact here_spec (by decide +kernel)

theorem witness_arbitration : let s := { rig with cur := none }
    s.cur = none ∧ (s.contenders 0 64 ≠ [] ∨ s.contenders 0 0 ≠ []) := by decide +kernel

/-- A load of lanes 0 and 31 into v63, lane 31 performed; a store all of whose lanes have taken effect. -/
def loadOp (st : LaneSt) : AsyncOp := { id := 3, lanes := [{ lane := 0, st }, { lane := 31, dst := 63, res := [7], st := .ready }], kind := .load 4 false 0 }
def storeOp : AsyncOp := { id := 3, ctr := .sc, kind := .store 4 0, lanes := [{ lane := 0, st := .ready }, { lane := 31, st := .returned }] }

/-- The lane that has been performed is not the last of its operation, and is; a store to acknowledge. -/
theorem witness_async_results :
    (∀ st ∈ [LaneSt.pending, .returned], let s := waveRig fun v => { v with lc := 1, ops := [loadOp st] }
      (s.wv 0 0).op? 3 = some (loadOp st) ∧ (s.wv 0 0).ra = none ∧ (loadOp st).ctr ≠ .sc ∧ (loadOp st).kind ≠ .scq ∧
        lastLane (loadOp st) 31 = (st == .returned) ∧
        (loadOp st).lanes.find? (fun l => l.lane == 31) = some { lane := 31, dst := 63, res := [7], st := .ready }) ∧
    let s := waveRig fun v => { v with sc := 1, ops := [storeOp] }
    (s.wv 0 0).op? 3 = some storeOp ∧ (s.wv 0 0).ra = none ∧ ∀ x ∈ storeOp.lanes, x.st = .ready ∨ x.st = .returned := by decide +kernel

/-- A lane's load or store at an IA: its line, an IA that nothing maps, a line that a copy unit owns, and a lane that is gone. -/
def lineOp (k : OpKind) (ia : Nat) (st : LaneSt) : AsyncOp :=
  { id := 3, ctr := if k matches .store _ _ then .sc else .lc, kind := k, lanes := [{ lane := 31, ia, st }] }
def lineRig (k : OpKind) (ia : Nat) (st : LaneSt := .pending) (owned wait : List Nat := []) : State :=
  { waveRig (fun v => { v with ops := [lineOp k ia st] }) with
    owned := owned.map fun l => (l, 1, 9), ownWait := wait.map fun l => (l, 0, 0, 3, 31) }

def who0 : Who := { b := 0, w := 0, op := 3, lane := 31, core := 0, world := 0 }

/-- How the line of a load, and of a store, answers: 0 with a value, 1 a fault, 2 a wait. -/
def accHow {α : Type} : Acc α → Nat
  | .ok _ _ => 0
  | .fault _ _ _ => 1
  | .wait _ => 2

def served (s : State) (ia : Nat) : Bool × Nat × Nat :=
  ((match (s.wv 0 0).op? 3 with
    | some o => match o.lanes.find? (fun l => l.lane == 31 && l.st == .pending) with | some l => turnOf s 0 0 o l | none => false
    | none => false), accHow (s.loadLine who0 ia 4 0 true), accHow (s.storeLine who0 ia (natBytes 4 7) 0))

theorem witness_requests :
    (∀ k ∈ [OpKind.load 4 false 0, .store 4 0], served (lineRig k (ia0 0x1407C)) (ia0 0x1407C) = (true, 0, 0) ∧
      served (lineRig k (2 ^ 51)) (2 ^ 51) = (true, 1, 1) ∧
      served (lineRig k (ia0 0x1407C) .pending [ia0 0x1407C / 128]) (ia0 0x1407C) = (true, 2, 2)) ∧
    (let s := lineRig (.load 4 false 0) (ia0 0x1407C) .pending [] [ia0 0x1407C / 128]
     s.ownWait.find? (fun e => e.1 == ia0 0x1407C / 128) = some (ia0 0x1407C / 128, 0, 0, 3, 31) ∧ s.isOwned (ia0 0x1407C / 128) = false) ∧
    let s := lineRig (.load 4 false 0) (ia0 0x1407C) .ready [] [ia0 0x1407C / 128]
    (s.wv 0 0).op? 3 = some (lineOp (.load 4 false 0) (ia0 0x1407C) .ready) ∧
      (lineOp (.load 4 false 0) (ia0 0x1407C) .ready).lanes.find? (fun l => l.lane == 31 && l.st == .pending) = none := by
  decide +kernel

/-- A walk wanted by a lane; a lane in a compare-and-swap loop, at its first and at its last try; a link at each count of failures. -/
theorem witness_memory_events :
    (((lineRig (.load 4 false 0) (ia0 0x14000)).wv 0 0).op? 3 = some (lineOp (.load 4 false 0) (ia0 0x14000) .pending) ∧ iaRegion (ia0 0x14000) = 0) ∧
    (let s := lineRig (.atomic .add false 2 true 0) (ia0 0x14000) .port
     ((s.wv 0 0).op? 3 = some (lineOp (.atomic .add false 2 true 0) (ia0 0x14000) .port) ∧
       (s.translate 0 (ia0 0x14000) true).2 = .pa 0x14000 ∧ accHow ((s.translate 0 (ia0 0x14000) true).1.rmwFar 0 (ia0 0x14000) 0x14000 .add false 0) = 0 ∧ s.casTries = []) ∧
     ({ s with casTries := [(0, 0, 3, 31, 63)] } : State).casTries.find? (fun e => (e.1, e.2.1, e.2.2.1, e.2.2.2.1) == (0, 0, 3, 31)) = some (0, 0, 3, 31, 63)) ∧
    ∀ n ∈ [0, 1, 2, 3], SMap.get 0 ({ rig with flitTries := SMap.put 0 [] 15 n } : State).flitTries 15 = n := by
  decide +kernel

/-- Lane 31 of a load faulted, the rest of its path's lanes did not. -/
def faultOp : AsyncOp := { id := 3, kind := .load 4 false 0, lanes := [{ lane := 0 }, { lane := 31, st := .faulted 0x10 0 0x20000 (ia0 0x20000) }] }

theorem witness_faulted_lanes :
    let s := waveRig fun v => { v with lc := 1, ops := [faultOp] }
    let v := s.wv 0 0
    v.op? 3 = some faultOp ∧ v.st = .live ∧ v.ra = none ∧ v.tinfo.getLsbD 31 = false ∧ v.paths.length = 8 ∧ faultOp.once = false ∧
      (v.path 0).st = .run ∧ (v.path 0).mode = .plain ∧
      (maskOf fun ln => (faultOp.lanes.filter fun l => l.fault?.isSome).any fun l => l.lane == ln) = 0x80000000 ∧ (v.path 0).full = 0xFFFFFFFF ∧
      (∀ k < 8, k ≠ 0 → (v.path k).live = false) ∧ (∀ k < 8, (v.path k).isFault = false) ∧ v.deferred = [] ∧ freeEntries v.paths = [1, 2, 3, 4, 5, 6, 7] ∧
      (s.core (s.blk 0).core).wait = [] := by decide +kernel

def replayOp : AsyncOp := { id := 3, ctr := .sc, kind := .replay 0x20000, phase := 1, lanes := [{}] }

/-- A wave whose one path is a FAULT path with an access not yet recorded; one whose run-ahead has ended; one with one record to write, and its
ring; a core that a REPLAY has reached; a FAULT path with nothing left to return. -/
theorem witness_deferred_faults :
    (let s := rig launchRec [] (fun p => { p with st := .fault }) fun v => { v with deferred := [{ op := faultOp, path := 0 }] }
     let v := s.wv 0 0
     v.st = .live ∧ v.ra = none ∧ v.delivering = false ∧ v.atRest = true ∧ (s.blk 0).stopping = false ∧ 0 < s.blocks.length ∧
       0 < (s.blk 0).waves.length ∧ v.unrecorded = [0] ∧ (v.path 0).st = .fault ∧ 0 < v.paths.length) ∧
    (let s := waveRig fun v => { v with ra := some { ended := true } }
     (s.wv 0 0).ra = some { ended := true }) ∧
    (let s := waveRig fun v => { v with ringWait := [5], delivering := true }
     let s := { s with worlds := s.worlds.modify 0 fun x => { x with record := setFld x.record 831 768 (ia0 0x16000) }
                       mem := memPut s.mem 0x16000 (natBytes 12 (ia0 0x18000 + 64 * 2 ^ 64)) }
     (s.wv 0 0).ringWait = [5] ∧ (s.writeRecord (s.launchOf 0).world 5).1 = .done) ∧
    (let s := (waveRig fun v => { v with sc := 1, ops := [replayOp] }).modCore 1 fun k =>
      { k with replays := [(0, 0, 3)], wait := SMap.put none k.wait 0 (some { key := .granule 0 0 }) }
     (s.core 1).replays = [(0, 0, 3)] ∧ s.wavesOn 1 = [] ∧ (s.wv 0 0).op? 3 = some replayOp ∧
       (0x20000#32).getLsbD 16 = false ∧ (s.wv 0 0).ra = none) ∧
    let s := rig launchRec [] fun p => { p with st := .fault, retrying := true }
    let x := (s.wv 0 0).path 0
    0 < (s.wv 0 0).paths.length ∧ x.st = .fault ∧ x.retrying = true ∧ x.waitOn = .none ∧ (s.wv 0 0).ops = [] := by
  decide +kernel

/-- A CPY.GL of 256 bytes at local 3840 in state `st`, its granule mapped. -/
def copyAt (st : CopySt) : Copy :=
  { id := 1, fn := 0, ops := [3840, 0, 0x14000, 0, 256 * 128 + 5, 0, 0, 0], snap := (bufRec 7 0 0 1).setWidth 512, st
    gmap := [(1, ia0 0x10000 / 65536)], batch := 1 }
def copiesRig (x : Copy) (fv : Wave → Wave := id) : State := { waveRig fv with copies := [x] }

theorem witness_copy_events :
    (∀ st ∈ [CopySt.queued, .refused, .pinned, .moved],
      let s := copiesRig (copyAt st)
      s.copy? 1 = some (copyAt st) ∧ (copyAt st).wave = 0 * 32 + 0 ∧ (s.blk 0).st = .resident ∧ (s.blk 0).stopping = false ∧
        (s.launchOf 0).cancelled = false ∧ (copyAt st).next < (copyAt st).segs.length ∧ s.copyBehind (copyAt st) = false ∧
        s.batchStopped (copyAt st) = false ∧ 0 < s.blocks.length) ∧
    (copyAt .pinned).segs.getD 0 (0, 0) = (0, 256) := by
  refine ⟨by decide +kernel, by decide +kernel⟩

/-- A batch with nothing to wait for, with a copy that failed, and with a latch already held. -/
theorem witness_batches : ∀ x ∈ [copyAt .done, { copyAt .done with code := 0xFF }], ∀ l ∈ [none, some (0, 1)],
    let s := copiesRig x fun v => { v with openBatch := 2, batches := [{ num := 1, closed := true, copies := 1 }], latch := l }
    0 < s.blocks.length ∧ 0 < (s.blk 0).waves.length ∧ (s.blk 0).st = .resident ∧ (s.wv 0 0).openBatches ≠ 0 ∧
      (s.copies.filter fun c => c.wave == 0 * 32 + 0 && c.batch == 1) = [x] ∧ x.st = .done ∧
      ((s.wv 0 0).batches.find? fun x => x.num == 1).bind Batch.comp = none := by decide +kernel

/-- Both waves of a quorum held at the same MMA. -/
def saddleRig : State :=
  let f (v : Wave) : Wave := { v with saddle := some (0x12345678, 0, 0x80000421), quorum := 0x80000421
                                      paths := v.paths.modify 0 fun p => { p with word := 0x12345678, blocked := some .quorum } }
  (waveRig f).modWv 0 1 f
/-- A TZERO of the last tile row and column, or a TLD, at the head of its core's queue. -/
def matRig (k : OpKind) : State :=
  (waveRig fun v => { v with mc := 1, ops := [{ id := 3, ctr := .mc, kind := k, lanes := [{ lane := 31 }] }] }).modCore 0 fun c =>
    { c with matq := [{ block := 0, waves := [(0, 3)], kind := k, lanes := [{ lane := 31 }] }] }

theorem witness_matrix_events :
    (let s := saddleRig
     (s.wavesOn 0).find? (fun bw =>
        let v := s.wv bw.1 bw.2
        !(s.blk bw.1).stopping && v.st == .live && v.saddlePath.isSome &&
          (qrMembers v.quorum).all fun w => (s.wv bw.1 w).st == .live && (s.wv bw.1 w).saddlePath.isSome) = some (0, 0) ∧
       qrMembers (s.wv 0 0).quorum = [0, 1] ∧
       (∀ m ∈ [0, 1], (s.wv 0 m).saddle = some (0x12345678, 0, 0x80000421) ∧ (s.wv 0 m).saddlePath = some 0 ∧ (s.wv 0 m).ra = none ∧
         0 < (s.wv 0 m).paths.length ∧ ((s.wv 0 m).path 0).mode = .plain) ∧ (s.core 0).matq = []) ∧
    (∀ k ∈ [OpKind.tzero 0xFF03F 1 1, .tld 0 1], ((matRig k).core 0).matq = [{ block := 0, waves := [(0, 3)], kind := k, lanes := [{ lane := 31 }] }] ∧
      ((matRig k).wv 0 0).op? 3 = some { id := 3, ctr := .mc, kind := k, lanes := [{ lane := 31 }] } ∧ ((matRig k).wv 0 0).ra = none ∧
      4 * tdCol 0xFF03F + 4 * 1 ≤ 1024) ∧
    ∀ k ∈ [OpKind.tzero 0xFF03F 1 1, .tld 0 1], (matRig k).matAccept 0 = matRig k := by
  refine ⟨by decide +kernel, by decide +kernel, by decide +kernel⟩

/-- A feedback report and the ring that takes it; a notice of a token that a wave waits for. -/
def feedRig : State :=
  { (rig).modCore 0 fun k => { k with reports := [(0, 0, 3, 31, 5, 9)] } with
    worlds := (rig).worlds.modify 0 fun x => { x with record := setFld x.record 767 704 (ia0 0x16000) }
    mem := memPut (rig).mem 0x16000 (natBytes 12 (ia0 0x18000 + 64 * 2 ^ 64)) }
def noticeRig : State := (waveRig fun v => { v with scKeys := [0], scwait := [(31, 0x40, none)] }).modCore 0 fun k =>
  { k with notices := [(true, 0x40)], wait := SMap.put none k.wait 0 (some { key := .token 0x40 }) }

def feedEnds : RingRes :=
  (((feedRig.modCore 0 fun k => { k with reports := k.reports.tail })).ringAppend 0 (wrFbia (feedRig.world 0).record) 64 65536 4096 16
    (fun a => if iaRegion a = 0 then some a else none) fun tail => natBytes 16 ((5 : BitVec 128).toNat + tail)).1

theorem witness_feedback_and_notices :
    ((feedRig.core 0).reports.head? = some (0, 0, 3, 31, 5, 9) ∧ (feedRig.launchOf 0).world = 0 ∧ feedEnds = .done) ∧
    ((noticeRig.core 0).notices = [(true, 0x40)] ∧ (0, 0) ∈ noticeRig.wavesOn 0 ∧ noticeRig.hasTokenKey 0 (noticeRig.wv 0 0) 0x40 = true) ∧
    (31, 0x40, none) ∈ (noticeRig.wv 0 0).scwait := by
  refine ⟨by decide +kernel, by decide +kernel, ?_⟩
  show ((31 : Nat), (0x40 : Nat), (none : Option Nat)) ∈ _
  decide +kernel

/-! ### Dispatch, blocks and the command processor (chapters 15, 16 and 17) -/

/-- A launch with a second block to dispatch, its first on core 0, one ridge open. -/
def gridRec : BitVec 2048 := setFld (setFld (setFld launchRec 543 512 2) 559 544 1) 575 560 1

theorem witness_dispatch :
    let s := rig gridRec
    s.restorePending 0 = false ∧ ((s.readyOrder 0).find? (fun l => (s.openRidges 0).any fun r => s.roomOn (s.launches.getD l default) r)) = some 0 ∧
      s.placement (s.launches.getD 0 default) [7] = true ∧ recSV gridRec = false ∧ recB gridRec ≠ 0 ∧ recCluster gridRec = 1 := by decide +kernel

/-- A block whose waves have ended. -/
def endedRig : State := (rig).modBlk 0 fun k => { k with endCode := 1, waves := k.waves.map fun v => { v with st := .done } }

theorem witness_block_retires :
    let k := endedRig.blk 0
    0 < endedRig.blocks.length ∧ k.st = .resident ∧ (∀ v ∈ k.waves, v.st = .done ∧ v.ops = [] ∧ v.openBatches = 0) ∧
      ∀ m ∈ (endedRig.clusters.getD k.cluster {}).members, (endedRig.blk m).endCode ≠ 0 := by decide +kernel

/-- A block all of whose waves have been parked for long, with a block of its launch to come. -/
def idleRig : State :=
  { ((rig gridRec).modBlk 0 fun k => { k with waves := k.waves.map fun v =>
      { v with waitSince := 0, glatch := .applied, paths := v.paths.modify 0 fun p => { p with blocked := some .cbarrier, word := 0x2F000000 } } }) with clk := 2 ^ 40 }

theorem witness_block_displaced :
    let ms := (idleRig.mates 0).filter fun m => (idleRig.blk m).st == .resident
    0 < idleRig.blocks.length ∧ idleRig.displaceable 0 = true ∧ ms = [0] ∧ idleRig.hasHeir 0 = true ∧ idleRig.ridgeOpen 0 0 = true ∧
      (idleRig.launchOf 0).cancelled = false := by decide +kernel

/-- A stopped block whose world has a spill region, so that there is room for its context whatever its share of the shadow store; a saved
block and a core that takes it. -/
def stopRig : State :=
  let s := (rig).modBlk 0 fun k => { k with stopping := true }
  { s with worlds := s.worlds.modify 0 fun x => { x with record := setFld (setFld x.record 639 576 0x100000) 575 512 0x10000000 } }
def savedRig : State := (rig).modBlk 0 fun k => { k with st := .saved 0 }

/-- Where the spill region has room there is room for a context. -/
theorem saveRoom_of_spill (s : State) (b : Nat)
    (h : (s.spillRoom (s.launchOf b).world (roundUp ((layoutOf (s.launchOf b).record).d + 1024 * (s.blk b).deferredList.length +
      128 * (s.copiesOf b).length) 128)).isSome = true) : ∃ place, s.saveRoom b = some place := by
  obtain ⟨a, ha⟩ := Option.isSome_iff_exists.1 h
  simp only [State.saveRoom, ha]
  split <;> exact ⟨_, rfl⟩

theorem witness_save_and_restore :
    ((stopRig.mates 0).filter (fun m => (stopRig.blk m).st == .resident) = [0] ∧ (stopRig.blk 0).stopping = true ∧ (stopRig.blk 0).displaced = false ∧
      stopRig.closing (stopRig.blk 0).core = false ∧ stopRig.drained 0 = true ∧
      (∀ w < (stopRig.blk 0).waves.length, (stopRig.wv 0 w).unrecorded = []) ∧ 0 < stopRig.worlds.length) ∧
    (∃ place, stopRig.saveRoom 0 = some place) ∧
    ((savedRig.blk 0).st = .saved 0 ∧ savedRig.ridgeOpen 0 0 = true ∧ savedRig.restoreTurn 0 7 = true ∧ savedRig.savedMates 0 = [0] ∧
      savedRig.restorable 0 7 = true ∧ 7 ∈ (savedRig.launchOf 0).coresOf 0 ∧ savedRig.contextBad 0 = false) := by
  exact ⟨by decide +kernel, saveRoom_of_spill _ _ (by decide +kernel), by decide +kernel⟩

/-- Waves 0 and 1 await each other at the saddle; probes with a wave to visit, with one that has been reached, and back from a closed cycle. -/
def cycleRig (p : Probe) : State :=
  let f (x : Word) (v : Wave) : Wave := { v with quorum := 0x80000421, qarr := x.toNat, waitSince := 0
                                                 paths := v.paths.modify 0 fun p => { p with blocked := some .pair } }
  { ((waveRig (f 0)).modWv 0 1 (f 0)) with clk := 2 ^ 40, probes := [p] }

theorem witness_probes :
    (let s := cycleRig { sender := (0, 0), todo := [(0, 1)], reached := [(0, 0)] }
     (s.awaited 0 0).isSome = true ∧ (s.awaited 0 1).isSome = true ∧ (s.wv 0 0).waitSince + 1000 * cyclesPerUs ≤ s.clk ∧
       (s.wv 0 0).probedAt + 1000 * cyclesPerUs ≤ s.clk) ∧
    ({ sender := (0, 0), todo := [(0, 0)], reached := [(0, 0)] } : Probe).reached.contains (0, 0) = true ∧
    (let s := cycleRig { sender := (0, 0), reached := [(0, 0)] }
     s.awaited 0 0 = some [(0, 0)]) ∧
    (rig).awaited 0 1 = none := by decide +kernel

/-- A world whose space 0 has the rig's range descriptor in memory, at 0x1A000. -/
def inSpace (s : State) : State :=
  { s with worlds := s.worlds.modify 0 fun x => { x with record := setFld x.record 959 896 (ia0 0x1A000) }
           mem := memPut s.mem 0x1A000 (natBytes 32 (0x10000 + 2 ^ 64 + ia0 0x10000 * 2 ^ 128 + 2 ^ 192 + 15 * 2 ^ 200)) }

/-- An arrival on a counter at 0x14000 of generation 3 with `count` left, of kind `kind`; from the command processor, or from a grid barrier. -/
def arrivalRig (kind count : Nat) (src : ArrSrc) (gen : Nat) : State :=
  let o : Counter := { parent := 0, pgen := 0, target := if kind = 1 then 2 else 0, count, kind, status := 0, gen := 3, reserved := false }
  { inSpace rig with arrivals := [{ world := 0, asid := 0, va := 0x14000, gen, src }], mem := memPut (inSpace rig).mem 0x14000 o.bytes }

/-- What the command processor reads at the arrival's counter, and whether it can be written. -/
def counterIs (s : State) (p : Counter → Bool) : Bool :=
  match s.arrivals.find? (fun a => a.world == 0) with
  | some a =>
    (match ({ s with arrivals := s.arrivals.erase a } : State).readCounter a.asid a.va with
     | (.ok o, s1) => p o && !o.malformed a.va && (s1.writeCounter a.asid a.va o).1.isNone && (kindFits o.kind a.src)
     | _ => false)
  | none => false

theorem witness_arrivals :
    counterIs (arrivalRig 0 2 .cp 3) (fun o => o.gen == 3 && 1 < o.count) = true ∧
    counterIs (arrivalRig 1 1 (.gbar 0 0) 3) (fun o => o.gen == 3 && o.count == 1 && o.kind == 1) = true ∧
    counterIs (arrivalRig 0 2 .cp 2) (fun o => o.gen ≠ 2) = true := by decide +kernel

/-- A launch whose one block is over; a cancellation of it. -/
theorem witness_launch_ends :
    let s := { endedRig with launches := [{ record := setFld (setFld (setFld launchRec 543 512 1) 559 544 1) 575 560 1, nextBlock := 1 }]
                             cancels := [{ launches := [0] }] }
    let x := s.launches.getD 0 default
    0 < s.launches.length ∧ x.st = .ready ∧ x.cancelled = false ∧ (∀ b ∈ s.blocksOf 0, s.blockQuiet b = true) ∧ recSV x.record = false ∧
      x.nextBlock = recGridX x.record * recGridY x.record * recGridZ x.record ∧ s.cancels[0]? = some { launches := [0] } ∧
      ∀ l ∈ [0], ∀ b ∈ s.blocksOf l, s.blockQuiet b = true := by decide +kernel

/-- A wave of pipeline 1 sends a job to stage 0, whose queue is at 0x16000 with `tail` jobs of its 2 places, closed or not. -/
def stageRig (tail closed : Nat) : State :=
  let r := setFld (setFld launchRec 751 744 1) 736 736 1
  let s := inSpace (rig (setFld r 831 768 (ia0 0x16000)) [] id fun v => { v with ops := [{ id := 3, kind := .tlaunchJob 0, lanes := [{ va := 0x14000 }] }] })
  { s with mem := memPut s.mem 0x16000 (natBytes 64 (ia0 0x18000 + 2 * 2 ^ 64 + tail * 2 ^ 128 + closed * 2 ^ 160)) }

def jobGoes (s : State) : Option Bool :=
  match s.cpRead 0 [.load] 0x14000 32 with
  | (.ok job, s1) => (match s1.enqueueJob 0 (ia0 0x16000) job with | (.ok b, _) => some b | _ => none)
  | _ => none

theorem witness_stages :
    (jobGoes (stageRig 1 0) = some true ∧ jobGoes (stageRig 2 0) = some false ∧ jobGoes (stageRig 0 1) = some false) ∧
    ((stageRig 0 0).wv 0 0).op? 3 = some { id := 3, kind := .tlaunchJob 0, lanes := [{ va := 0x14000 }] } ∧
    (let s := stageRig 0 1
     let me := s.launchOf 0
     me.st = .ready ∧ recSV me.record = true ∧ recPipe me.record = 1 ∧ recSidx me.record = 0 ∧ recSqia me.record = ia0 0x16000 ∧
       (s.ridges.getD 0 {}).world = some 0 ∧
       (match s.stageRead 0 (recSqia me.record) with | (.ok q, _) => q.ok && q.closed | _ => false) = true) := by
  refine ⟨by decide +kernel, by decide +kernel, by decide +kernel⟩

/-! ### Debug, PRIV commands, shutters, the host and management (chapters 03, 18, 19 and 20) -/

/-- A debug request of the wave for path `p` of wave 0, with the block attached to itself or to nothing, path 0 held or running. -/
def debugRig (attach : BitVec 256) (k : OpKind) (st : PathSt) : State :=
  ((rig launchRec [] (fun p => { p with st }) fun v => { v with ops := [{ id := 3, kind := k, lanes := [{}] }] }).modBlk 0 fun b =>
    { b with attach }).modCore 0 fun c => { c with dbg := [(0, 0, 3)] }

theorem witness_debug_requests :
    (let s := debugRig 0 (.dbghalt 0) .run
     (s.core 0).dbg = [(0, 0, 3)] ∧ ((s.wv 0 0).op? 3).isSome = true ∧ s.target 0 = none ∧ s.attached 0 = none) ∧
    ∀ st ∈ [PathSt.held, .run], ∀ k ∈ [OpKind.dbghalt 0, .dbgres 0, .dbgres 0x1F, .dbghalt 0xE0],
      let s := debugRig (2 ^ 128) k st
      ((s.wv 0 0).op? 3).isSome = true ∧ s.target 0 = some 0 ∧ fld (0 : Word) 4 0 < (s.blk 0).waves.length ∧
        (s.blk 0).waves.length ≤ fld (0x1F : Word) 4 0 ∧ ((s.wv 0 0).path (fld (0xE0 : Word) 7 5)).live = false ∧
        ((s.wv 0 0).path (fld (0 : Word) 7 5)).st = st ∧ s.closing 0 = false ∧ (s.wv 0 0).st = .live := by decide +kernel

/-- An INVR in a step of its way, by range, and of a space's descriptors. -/
def invrRig (ctl : Word) (phase : Nat) : State :=
  { waveRig (fun v => { v with ops := [{ id := 3, ctr := .sc, kind := .invr ctl, phase, lanes := [{ addr := 0x10000 }] }] }) with
    tlb := [{ world := 0, base := 0x10000, size := 0x10000 }] }

theorem witness_invalidation :
    (∀ ph ∈ [0, 1], let s := invrRig 0x00100000 ph
      (s.wv 0 0).op? 3 = some { id := 3, ctr := .sc, kind := .invr 0x00100000, phase := ph, lanes := [{ addr := 0x10000 }] } ∧
        fld (0x00100000 : Word) 17 16 ≠ 1 ∧ s.pinnedIn (invrRange 0x00100000 0x10000).1 (invrRange 0x00100000 0x10000).2 = false ∧
        s.atPort (invrRange 0x00100000 0x10000).1 (invrRange 0x00100000 0x10000).2 = []) ∧
    let s := invrRig 0x00010005 0
    ((s.wv 0 0).op? 3).isSome = true ∧ fld (0x00010005 : Word) 17 16 = 1 ∧
      (s.cores.filter fun e => e.2.ranges.any fun r => r.1 == fld (0x00010005 : Word) 15 0) = [] := by decide +kernel

/-- A MIGR command `r` at the head of world 0's queue, `prog` of it done, its images placed or not; the world also holds the first 32 MiB of
the foothill. -/
def migrRig (r : BitVec 256) (prog : Nat) (aux : List Nat := []) : State :=
  let s := waveRig fun v => { v with ops := [{ id := 3, kind := .migr, phase := 1, lanes := [{ data := r.setWidth 512, aux }] }] }
  { s with worlds := s.worlds.modify 0 fun x =>
      { x with migrq := [(0, 0, 3)], migrDone := prog
               record := setFld (setFld (setFld x.record 9 5 2) 2239 2176 0x040000000000) 2303 2240 (2 ^ 25) } }

theorem witness_migration :
    (∀ e ∈ [(1, 1), (2, 1), (3, 1), (4, 0), (5, 1)], ∀ prog ∈ [0, e.2], ∀ aux ∈ [[], [3]],
      let r : BitVec 256 := BitVec.ofNat 256 (e.1 + 2 ^ 32 + (if e.1 = 4 ∨ e.1 = 5 then 0 else 0x10000 * 2 ^ 64 + 0x040000000000 * 2 ^ 128) + (ia0 0x14000) * 8 * 2 ^ 192)
      (migrRig r prog aux).migrHead 0 e.1 = some ((0, 0, 3), r, prog) ∧ mgCount r = 1 ∧
        (((((migrRig r prog aux).wv 0 0).op? 3).getD {}).lanes.headD {}).aux = aux) ∧
    0 < (migrRig 0 0).worlds.length ∧
    (match ((migrRig 0 0).engRead 0 (directIA 0 0x400000) 65536).1 with | .error _ => true | .ok _ => false) = true ∧
    ((migrRig 0 0).mapBit 0 (ia0 0x14000 * 8 + 7) true).1 = 0 ∧ ((migrRig 0 0).mapBit 0 (ia0 0x14000 * 8 + 7) false).1 = 0 ∧
    (migrRig 0 0).lookupsOut 0 = false ∧
    -- an image that lies in HBM
    let s : State := { migrRig 0 0 with images := [{ pa := 0x14000, world := 0, len := 16, frame := [] }] }
    s.image 0 0x14000 = some { pa := 0x14000, world := 0, len := 16, frame := [] } ∧
    s.imagesFit 0 0x14000 1 = false := by
  refine ⟨by decide +kernel, by decide +kernel, by decide +kernel, by decide +kernel, by decide +kernel, by decide +kernel, by decide +kernel⟩

/-- A DEMOTE to frames of HBM finds no place for its images, whatever their lengths. -/
theorem witness_migration_tier (s : State) (n : Nat) : s.inTier 0 0x10000 n true = false := by
  have h : paKind 0x10000 = .hbm := by decide +kernel
  unfold State.inTier
  rw [h]
  cases paKind (0x10000 + n - 1) <;> simp

/-- A slot-table entry of 25 µs, the last, that gives ridge 0 to world `w` and every other to none. -/
def entryOf (w : Nat) : BitVec 512 := BitVec.ofNat 512 (25 + 2 ^ 16 + (2 ^ 128 - 16 + w) * 2 ^ 112 + (2 ^ 64 - 1) * 2 ^ 336 + (2 ^ 48 - 1) * 2 ^ 400)
/-- Ridge 0 in phase `ph`, at an entry edge to `entryOf w`. -/
def edgeRig (ph : RPhase) (w : Nat) : State :=
  { rig with slots := [entryOf w], clk := 2 ^ 40, ridges := (rig).ridges.modify 0 fun r => { r with phase := ph } }

theorem witness_entry_edge : ∀ ph ∈ [RPhase.open_, .drain], ∀ w ∈ [0, 15],
    let s := edgeRig ph w
    s.slots ≠ [] ∧ s.thermal = false ∧ s.slotEnd ≤ s.clk ∧ s.ridges.length = 32 ∧ s.nextEntry = ([entryOf w], 0) ∧ (s.ridge 0).phase = ph ∧
      (s.ridge 0).world = some 0 ∧ slWorld (entryOf w) 0 = if w = 0 then some 0 else none := by decide +kernel

theorem witness_shutter_phases :
    (let s := edgeRig .drain 15
     (s.ridge 0).phase = .drain ∧ s.onRidge 0 = [0] ∧ (s.onRidge 0).all s.drained = true ∧ SMap.wf none s.l2 = true) ∧
    (∀ ph ∈ [RPhase.stop, .drain, .seal, .scrub], let s : State := { edgeRig ph 15 with blocks := [] }
      (s.ridge 0).phase = ph ∧ s.onRidge 0 = [] ∧ s.drainEnd 0 ≤ s.clk ∧ s.ridges.length = 32 ∧ (s.ridge 0).world = some 0 ∧ 0 < s.worlds.length ∧
        ∀ x < 32, x ≠ 0 → (s.ridge x).world ≠ some 0) := by decide +kernel

theorem witness_heat : (rig).powered = true ∧ (rig).frozen = false ∧ (rig).ridges.length = 32 ∧ ((rig).ridge 0).phase = .open_ ∧
    ((rig).ridge 0).world.isSome = true ∧
    (let s : State := { edgeRig .open_ 0 with thermal := true }
     s.thermal = true ∧ s.slotsNext.getD s.slots ≠ []) := by decide +kernel

/-- A booted device whose VF 0 is world 0's, in state `t`, with the registers `h` of its queue 3. -/
def hostRig (t : Tdi) (h : HostQ) : State :=
  let s : State := { rig with bootStep := 0, worlds := (rig).worlds.modify 0 fun x => { x with record := setFld x.record 416 416 1 } }
  (s.setTdi 0 t).setQueue 0 3 h

theorem witness_host :
    (∀ t ∈ [Tdi.run, .configUnlocked, .configLocked], ∀ h ∈ [({ cap := 4 } : HostQ), { cap := 4, tail := 4 }],
      let s := hostRig t h
      (s.hostUp = true ∧ 0 < 96 ∧ 3 < 4) ∧ s.queue 0 3 = h ∧ s.tdiOf 0 = t ∧ s.vfWorld 0 = some 0 ∧ h.err = 0) ∧
    ((4 + 2 ^ 32 - 0) % 2 ^ 32 ≤ 4 ∧ 4 < (5 + 2 ^ 32 - 0) % 2 ^ 32) := by decide +kernel

theorem witness_inbound :
    let s := hostRig .run {}
    s.inboundWorld false 1 0 = none ∧ s.inboundWorld false 0 0 = some 0 ∧ inGrant (s.grant 0) 0x14000 128 = true ∧
      inGrant (s.grant 0) 0x1FFFF 2 = false ∧ s.owned = [] ∧ s.l2 = [] ∧
      (match s.engRead 0 (ia0 0x14000) 16 with | (.ok _, _) => true | _ => false) = true ∧
      (s.engWrite 0 (ia0 0x14000) [1, 2]).1 = none := by decide +kernel

/-- A world record that breaks no rule: world 11, with 2 MiB from 2 MiB on. -/
def worldRec : BitVec 4096 :=
  let ia := 11 * 2 ^ 48
  BitVec.ofNat 4096 (11 + 2 ^ 5 + 4 * 2 ^ 384 + ia * (2 ^ 640 + 2 ^ 704 + 2 ^ 768 + 2 ^ 896) + 2 ^ 21 * 2 ^ 832 + 2 ^ 21 * 2 ^ 2048 + 2 ^ 21 * 2 ^ 2112)
def bootRig : State := { edgeRig .open_ 0 with bootStep := 0 }

theorem witness_world_commands :
    (bootRig.bootStep = 0 ∧ bootRig.powered = true ∧ 11 < bootRig.worlds.length ∧ wrV (bootRig.world 11).record = false ∧ bootRig.recordOk 11 worldRec = true ∧
      bootRig.recordOk 11 0 = false) ∧
    (let s := { bootRig with worlds := bootRig.worlds.modify 11 fun x => { x with record := withV worldRec } }
     wrV (s.world 11).record = true ∧ s.recordOk 11 worldRec = true ∧ s.worldBusy 11 = false ∧ s.vfLocked 11 = false ∧ s.worldBusy 0 = true) ∧
    (∀ w ∈ [0, 11], (bootRig.slots.any fun e => (slNames e).contains w || (List.range 12).any fun x => slDonee e x == w) = (w == 0)) ∧
    (tableRun [entryOf 0] = some [entryOf 0] ∧ [entryOf 0].any bootRig.entryBad = false ∧ [entryOf 5].any bootRig.entryBad = true ∧
      tableRun [entryOf 5] = some [entryOf 5]) := by decide +kernel

/-- A device with an object table of one entry in region 12's grant, entry 0 valid or not. -/
def objectRig (v : Nat) : State :=
  { bootRig with shade := { objcount := 1, otia := directIA 12 0x200000 }, sharedGrant := [(0x200000, 0x200000)], keys := [(0x200000, 0x200000, 12)], sharedWays := 0xFFFF
                 mem := memPut bootRig.mem 0x200000 (natBytes 32 (v * 2 ^ 37)) }

theorem witness_device_commands :
    (∀ w < 12, wrHeapva (bootRig.world w).record = 0) ∧
    (∀ v ∈ [0, 1], ((objectRig v).readObject 0).1 = some (BitVec.ofNat 256 (v * 2 ^ 37)) ∧ obValid (BitVec.ofNat 256 (v * 2 ^ 37)) = (v == 1) ∧
      ((objectRig v).writeObject 0 (2 ^ 37)).1 = true) ∧
    objectForm 0 = true ∧ obOwner (2 ^ 16 : BitVec 256) ≠ obOwner (2 ^ 37 : BitVec 256) ∧ (objectRig 0).shade.tags = [] ∧ SMap.wf none (objectRig 0).l2 = true ∧
    95 ∈ (((rig).modCore 255 fun k => { k with gated := [95] }).core 255).gated := by decide +kernel

/-- World 0 with a request in its queue. -/
def mextRig (v : Option (BitVec 512)) : State := { bootRig with worlds := bootRig.worlds.modify 0 fun x => { x with mextq := [(0, 0, v)] } }

theorem witness_management :
    bootRig.powered = true ∧ measIndex 28 = false ∧ measIndex 0 = false ∧ 0x1FE0 % 32 = 0 ∧
      ((mextRig none).world 0).mextq = [(0, 0, none)] ∧ ((mextRig (some 5)).world 0).mextq = [(0, 0, some 5)] := by
  decide +kernel

theorem witness_profiling :
    (let l : LaneOp := { lane := 31, va := 0x64040000 }
     l.attachLane (.storeLocal 16) = true) ∧
    (let l : LaneOp := { lane := 31, va := 0x6404003C }
     l.profLane (.storeLocal 4) = true) ∧
    (let s : State := { rig with clk := 2048, launches := [{ record := launchRec, profile := BitVec.ofNat 256 (1024 * 2 ^ 128) }] }
     0 < s.launches.length ∧ s.sampleDue 0 = true ∧ fld (s.launches.getD 0 default).profile 63 0 = 0) := by decide +kernel

/-! ### Steps and issue -/

/-- Nothing comes before the issuing path. -/
def free0 (s : State) (c : Ctx) : Prop :=
  s.agenda = [] ∧ s.powered = true ∧ s.urgent = none ∧ s.waveOpen c.b c.w = true ∧ c.wv.qualifies c.p = true ∧ c.pa.acq = none

/-- A path at a header; one held at a word; one at a word that is an instruction, and at one that is not; an input that waits. -/
theorem witness_steps :
    (∃ c, At (rig launchRec [] fun p => { p with cpos := 0 }) c ∧ (free0 (rig launchRec [] fun p => { p with cpos := 0 }) c ∧ c.pa.cpos = 0)) ∧
    (∃ c, At (rig launchRec [] fun p => { p with blocked := some .waitLd, again := true, word := 0x2F000002 }) c ∧
      (free0 (rig launchRec [] fun p => { p with blocked := some .waitLd, again := true, word := 0x2F000002 }) c ∧ c.pa.cpos ≠ 0 ∧
        decode c.pa.word = .ok (.fenceAcq false 2))) ∧
    (∃ c, At (poke (rig) 0x10000 0x00014409) c ∧ (free0 (poke (rig) 0x10000 0x00014409) c ∧ c.pa.cpos ≠ 0 ∧ c.pa.blocked = none ∧
      fetches (poke (rig) 0x10000 0x00014409) c c.pa.pc (fun w => w == 0x00014409) = true)) ∧
    (∃ c, At (poke (rig) 0x10000 0x36000000) c ∧ (fetches (poke (rig) 0x10000 0x36000000) c c.pa.pc (fun w => w == 0x36000000) = true ∧
      decode 0x36000000 = .error .reservedMajor)) ∧
    ({ rig with agenda := [.eventsUnfreeze] } : State).agenda = [.eventsUnfreeze] := by
  unfold free0
  exact ⟨here_spec (by decide +kernel), here_spec (by decide +kernel), here_spec (by decide +kernel), here_spec (by decide +kernel), rfl⟩

/-- A word that fails each check of issue: a register beyond the budget, PRIV in U mode, the clause's class, the role's classes, and an extended
register without the lock. -/
theorem witness_issue_checks :
    (∃ c, At (rig) c ∧ c.ill (info (.add false false 111 8 9)) = true) ∧
    (∃ c, At (rig (setFld launchRec 687 672 1)) c ∧ (c.ill (info (.frpop false 5)) = false ∧ needsS (.frpop false 5) = true ∧ c.smode = false)) ∧
    (∃ c, At (rig launchRec [] fun p => { p with hdr := header 2 }) c ∧ (c.ill (info (.add false false 5 8 9)) = false ∧
      c.classErr (info (.add false false 5 8 9)) = true)) ∧
    (∃ c, At (rig (setFld (setFld launchRec 709 704 1) 728 728 1)) c ∧ (c.classErr (info (.add false false 5 8 9)) = false ∧
      c.roleAllows (info (.add false false 5 8 9)).cls = false)) ∧
    ∃ c, At (rig) c ∧ (c.ill (info (.add false false 79 8 9)) = false ∧ c.runXreg 79 1 = true) :=
  ⟨here_spec (by decide +kernel), here_spec (by decide +kernel), here_spec (by decide +kernel), here_spec (by decide +kernel), here_spec (by decide +kernel)⟩

theorem witness_no_stop : (rig).ctx ≠ none ∧ (rig).agenda = [] := by decide +kernel


/-! ### Clauses at their bounds, and where events complete -/

/-- TLD and TST without an active lane: a descriptor without reserved bits, one with, and a block without tile rows. -/
theorem witness_tile_descriptors :
    (∀ i ∈ [Instr.tld false 5 1 0, .tst false 5 1 0], ∃ c, At (rig launchRec [(1, 0x7FFFFF)] fun p => { p with exm := 0 }) c ∧ Passes c i ∧
      (activeLanes c = [] ∧ (c.bc 1).toNat < 2 ^ 23 ∧ c.trows ≠ 0)) ∧
    (∀ i ∈ [Instr.tld false 5 1 0, .tst false 5 1 0], ∃ c, At (rig launchRec [(1, 0x800000)] fun p => { p with exm := 0 }) c ∧ Passes c i ∧
      2 ^ 23 ≤ (c.bc 1).toNat) ∧
    ∀ i ∈ [Instr.tld false 5 1 0, .tst false 5 1 0], ∃ c, At (rig (setFld launchRec 639 632 0)) c ∧ Passes c i ∧ c.trows = 0 :=
  ⟨met_all (by decide +kernel), met_all (by decide +kernel), met_all (by decide +kernel)⟩

/-- QWAIT once its wait has ended, and with a member that has retired. -/
theorem witness_quorum_waits :
    (∃ c, At (rig launchRec [] fun p => { p with phase := 2 }) c ∧ Passes c (.qwait false) ∧ c.pa.phase = 2) ∧
    ∃ c, At ((quorumRig []).modWv 0 1 fun v => { v with st := .done }) c ∧ Passes c (.qwait false) ∧
      (c.pa.phase ≠ 2 ∧ 1 ∈ qrMembers c.wv.quorum ∧ (((quorumRig []).modWv 0 1 fun v => { v with st := .done }).wv c.b 1).st ≠ .live) :=
  ⟨met_spec (by decide +kernel), met_spec (by decide +kernel)⟩

/-- A stack whose last register is the first of the extended set, without the lock and with it. -/
theorem witness_stack_runs :
    (∀ i ∈ [Instr.stkpush false 10, .stkpop false 20], ∃ c, At ((stackRig 4 3).modWv 0 0 fun v => { v with stkReg := 61 }) c ∧ Passes c i ∧
      (activeLanes c ≠ [] ∧ c.wv.stkInit = true ∧ ¬(c.holdsLock = true ∨ c.wv.stkReg + stkN c.wv.stkCtl ≤ c.B))) ∧
    ∀ i ∈ [Instr.stkpush false 10, .stkpop false 20], ∃ c, At ((stackRig 4 3).modWv 0 0 fun v => { v with stkReg := 60 }) c ∧ Passes c i ∧
      (c.holdsLock = true ∨ c.wv.stkReg + stkN c.wv.stkCtl ≤ c.B) :=
  ⟨met_all (by decide +kernel), met_all (by decide +kernel)⟩

/-- COVER where its job is open and started, and where it has not been; a wave whose FRAG has not been served; no active lane. -/
theorem witness_cover :
    (∃ c, At ((rasterRig [] []).modCore 0 fun k => { k with rjobs := [{ asid := 0, va := 0x14000, started := true }] }) c ∧ Passes c (.cover false 60 10) ∧
      (c.pa.exm ≠ 0 ∧ c.wv.fragPending = false ∧ (({ asid := 0, va := 0x14000, started := true } : RJob).started && isJob c.asid 0x14000 { asid := 0, va := 0x14000, started := true }) = true ∧
        c.wv.rjob = some 0x14000)) ∧
    (∃ c, At (rasterRig [0x14000] []) c ∧ Passes c (.cover false 60 10) ∧ (c.pa.exm ≠ 0 ∧ c.wv.fragPending = false ∧
      ((rasterRig [0x14000] []).core c.blk.core).rjobs.all (fun j => !j.started) = true)) ∧
    (∀ i ∈ [Instr.cover false 60 10, .ordbPx false, .ordbSmp false, .orde false], ∃ c,
      At ((rasterRig [0x14000] []).modWv 0 0 fun v => { v with ops := [{ ctr := .cc, kind := .frag, lanes := [{}] }] }) c ∧ Passes c i ∧
        (c.pa.exm ≠ 0 ∧ c.wv.fragPending = true)) ∧
    ∀ i ∈ [Instr.cover false 60 10, .ordbPx false, .ordbSmp false, .orde false], ∃ c,
      At ((rasterRig [0x14000] []).modPath 0 0 0 fun p => { p with exm := 0 }) c ∧ Passes c i ∧ c.pa.exm = 0 :=
  ⟨met_spec (by decide +kernel), met_spec (by decide +kernel), met_all (by decide +kernel), met_all (by decide +kernel)⟩

/-- INVR of range descriptors with COUNT 0 at GRAN 3 and below it, with a COUNT, and of a whole region. -/
theorem witness_invr_counts :
    ∀ i ∈ [Instr.invrRangedesc false 2 4, .invrRangedesc false 2 6, .invrRangedesc false 2 8, .invr false 2 10], ∃ c,
      At (rig launchRec [(4, 0x000D0000), (6, 0x00050000), (8, 0x00150000), (10, 0x000C0000)]) c ∧ Passes c i ∧
        (c.world = 0 ∧ (c.bc 4).toNat / 2 ^ 16 % 4 = 1 ∧ (c.bc 4).toNat / 2 ^ 18 % 4 = 3 ∧ (c.bc 6).toNat / 2 ^ 16 % 4 = 1 ∧ (c.bc 6).toNat / 2 ^ 18 % 4 ≠ 3 ∧
          (c.bc 6).toNat / 2 ^ 20 = 0 ∧ (c.bc 8).toNat / 2 ^ 20 = 1 ∧ (c.bc 10).toNat / 2 ^ 16 % 4 = 0 ∧ (c.bc 10).toNat / 2 ^ 18 % 4 = 3 ∧
          (c.bc64 2).toNat / 2 ^ 48 % 16 = c.world ∧ (c.bc64 2).toNat < 2 ^ 52 ∧ c.wv.sc < 63) :=
  met_all (by decide +kernel)

/-- A path's word that its clause's issue has fetched; a word fetched now that is misplaced. -/
theorem witness_clause_words :
    (∃ c, At (rig launchRec [] fun p => { p with words := [some 0x00014409] }) c ∧
      (free0 (rig launchRec [] fun p => { p with words := [some 0x00014409] }) c ∧
        (match c.clauseWord (rig launchRec [] fun p => { p with words := [some 0x00014409] }) 0 with | .ok w _ => w == 0x00014409 | _ => false) = true)) ∧
    ∃ c, At (poke (rig) 0x10000 0x2B27FFF8) c ∧ (free0 (poke (rig) 0x10000 0x2B27FFF8) c ∧ (c.pa.words.getD 0 none = none ∧
      (match c.clauseRest (poke (rig) 0x10000 0x2B27FFF8) with | .bad _ => true | _ => false) = true)) := by
  unfold free0
  exact ⟨here_spec (by decide +kernel), here_spec (by decide +kernel)⟩

/-- A walk for a store. -/
theorem witness_store_walk : let k := OpKind.store 4 0
    ((lineRig k (ia0 0x14000)).wv 0 0).op? 3 = some (lineOp k (ia0 0x14000) .pending) ∧ iaRegion (ia0 0x14000) = 0 ∧ k.isLocal = false ∧
      k.writesGlobal = true := by decide +kernel

/-- All lanes of a path of one lane fault; a wave at rest with a FAULT path; the end of a run-ahead whose access is awaited. -/
theorem witness_fault_events :
    (let s := rig launchRec [] (fun p => { p with full := 0x80000000, exm := 0x80000000 }) fun v => { v with lc := 1, ops := [faultOp] }
     let v := s.wv 0 0
     v.op? 3 = some faultOp ∧ v.st = .live ∧ v.ra = none ∧ (v.path 0).st = .run ∧ (v.path 0).mode = .plain ∧ 0 < v.paths.length ∧
       (maskOf fun ln => (faultOp.lanes.filter fun l => l.fault?.isSome).any fun l => l.lane == ln) = (v.path 0).full ∧
       (∀ k < 8, k ≠ 0 → (v.path k).live = false) ∧ (∀ k < 8, (v.path k).isFault = false) ∧ (s.core (s.blk 0).core).wait = []) ∧
    (let s := rig launchRec [] (fun p => { p with st := .fault }) fun v => { v with deferred := [{ op := faultOp, path := 0 }] }
     (s.wv 0 0).atRest = true ∧ (s.wv 0 0).unrecorded ≠ [] ∧ ∀ x ∈ (s.wv 0 0).paths, x.retrying = false) ∧
    let s := (waveRig fun v => { v with ra := some { ended := true }, deferred := [{ op := faultOp, path := 0, keys := [511] }] }).modCore 0 fun k =>
      { k with wait := SMap.put none k.wait 511 (some { key := .granule 0 2 }) }
    (s.wv 0 0).ra = some { ended := true } ∧ ∀ d ∈ (s.wv 0 0).deferred, 511 ∈ d.keys ∧
      (SMap.get none (s.core (s.blk 0).core).wait 511).map WaitEntry.replayed = some 0 := by
  decide +kernel

/-- The granule of a CPY.GL is mapped and reached: its segment starts, and is tried again. -/
theorem witness_copy_start : ∀ st ∈ [CopySt.queued, .refused],
    let x : Copy := { copyAt st with ops := [4080, 0, 0x14000, 0, 16 * 128 + 5, 0, 0, 0] }
    let s := copiesRig x
    s.copy? x.id = some x ∧ s.copyRuns x = true ∧ (s.launchOf 0).cancelled = false ∧ x.fn = 0 ∧ x.segs = [(0, 16)] ∧
      x.reads.map (iaOf x.gmap) = (List.range 16).map (ia0 0x14000 + ·) ∧
      (match s.segMap x with | .ok g => g == x.gmap | .error _ => false) = true ∧
      (match s.translate 0 (ia0 0x14000) false with | (_, .pa pa) => pa == 0x14000 | _ => false) = true ∧ x.pinning = [] := by
  decide +kernel

/-- A segment all of whose source lines have been read. -/
theorem witness_copy_move :
    let x : Copy := { copyAt .pinned with ops := [4080, 0, 0x14000, 0, 16 * 128 + 5, 0, 0, 0], lines := [(ia0 0x14000 / 128, some 5)] }
    (copiesRig x).copy? x.id = some x ∧ x.left ≠ [] ∧
      (∀ u ∈ x.left, ∀ a ∈ x.feeds [u / 128], x.lines.find? (fun e => e.1 == a) = some (a, some 5)) := by decide +kernel

/-- Counters at their last arrival: with a parent, without, and with no more links to follow. -/
theorem witness_last_arrivals :
    counterIs (arrivalRig 0 1 .cp 3) (fun o => o.gen == 3 && o.count == 1 && o.kind == 0 && o.parent == 0) = true ∧
    (∀ links ∈ [none, some 0, some 3],
      let o : Counter := { parent := 0x14040, pgen := 0, target := 0, count := 1, kind := 0, status := 0, gen := 3, reserved := false }
      let s : State := { inSpace rig with arrivals := [{ world := 0, asid := 0, va := 0x14000, gen := 3, links }], mem := memPut (inSpace rig).mem 0x14000 o.bytes }
      counterIs s (fun o => o.count == 1 && o.parent == 0x14040) = true) := by decide +kernel

/-- A ridge whose division is due, with a core of it that holds a block of a stage; the stage that a job goes to. -/
theorem witness_division :
    let s : State := { stageRig 1 0 with clk := 50 * cyclesPerUs }
    (s.ridge 0).world = some 0 ∧ (s.ridge 0).divided + 50 * cyclesPerUs ≤ s.clk ∧ 0 < s.ridges.length ∧
      (s.launches.getD 0 default).st = .ready ∧ recSV (s.launches.getD 0 default).record = true ∧ s.coreHolds 0 0 = true ∧
      (List.range s.launches.length).find? (fun t =>
        let x := s.launches.getD t default
        x.world == (s.launchOf 0).world && x.st == .ready && !x.cancelled && recSV x.record && recPipe x.record == recPipe (s.launchOf 0).record &&
          recSidx x.record == 0) = some 0 := by decide +kernel

/-- An idle ridge at an entry edge. -/
theorem witness_idle_ridge : ((edgeRig .open_ 0).ridge 31).phase = .open_ ∧ ((edgeRig .open_ 0).ridge 31).world = none ∧
    slWorld (entryOf 0) 31 = none := by decide +kernel

/-- A saddle all of whose members hold the same word, with the issuing wave among them; a request of the management core while the world
holds a ridge. -/
theorem witness_unit_events : (∀ m ∈ qrMembers (saddleRig.wv 0 0).quorum, (saddleRig.wv 0 m).saddle = some (0x12345678, 0, 0x80000421)) ∧
    0 ∈ qrMembers (saddleRig.wv 0 0).quorum ∧ (saddleRig.core 0).matq.length < 16 ∧ (mextRig (some 5)).ridges.any (fun r => r.world == some 0) = true ∧
    (∃ l : LaneOp, l.lane = 31 ∧ l.attachLane (.storeLocal 16) = true) :=
  ⟨by decide +kernel, by decide +kernel, by decide +kernel, by decide +kernel, { lane := 31, va := 0x64040000 }, rfl, by decide +kernel⟩

/-! ### Values, joins and generations (chapters 10, 15 and 16) -/

/-- A finite non-zero number: the least subnormal, 1, −1/2 and the greatest. -/
theorem witness_special_values : ∀ e ∈ [((1 : Nat), (1 : Nat), (-149 : Int), false), (0x3F800000, 2 ^ 23, -23, false),
    (0xBF000000, 2 ^ 23, -24, true), (0x7F7FFFFF, 2 ^ 24 - 1, 104, false)],
    e.1 < 2 ^ 32 ∧ Fmt.f32.value e.1 = .fin e.2.2.2 e.2.1 e.2.2.1 ∧ e.2.1 ≠ 0 := by decide +kernel

/-- Chapter 10's table of special inputs, with a subnormal under FTZ and a negative number. -/
theorem test_special_inputs :
    sfuResults .rne false 0x7FC00000 = List.replicate 8 (0x7FC00000, 0) ∧ sfuResults .rne false 0x7F800001 = List.replicate 8 (0x7FC00000, fNV) ∧
    sfuResults .rd true 0x80000001 = [(0xFF800000, fDZ), (0xFF800000, fDZ), (0x80000000, 0), (0x3F800000, 0), (0xFF800000, fDZ),
      (0x80000000, 0), (0x3F800000, 0), (0x80000000, 0)] ∧
    sfuResults .rz false 0x7F800000 = [(0, 0), (0, 0), (0x7F800000, 0), (0x7F800000, 0), (0x7F800000, 0), (0x7FC00000, fNV), (0x7FC00000, fNV),
      (0x3F800000, 0)] ∧ sqrtRes .ru false 0xBF800000 = (0x7FC00000, fNV) ∧ log2Res .rne false 0x3F800000 = (0, 0) := by decide +kernel

/-- Paths 0 to 2 of a wave at a join word: 0 the parent of 1 and 2; or with path 1 still running. -/
def joinPaths (there : Bool) : List Path :=
  let at_ (full : Word) (parent : Option Nat) (there : Bool) : Path :=
    { st := if there then .wait else .run, waitOn := if there then .join else .none, full, exm := full, parent, join := 0x10040, pc := 0x10040 }
  [at_ 1 none true, at_ 2 (some 0) there, at_ 4 (some 0) true] ++ List.replicate 5 default

theorem witness_joins : ∀ there, (joinPaths there).length = 8 ∧ (∀ i < 8, ((joinPaths there).getD i default).parent ≠ some i) ∧
    ∀ i, 8 ≤ i → ((joinPaths there).getD i default).parent = none := fun there =>
  ⟨by cases there <;> decide +kernel, by cases there <;> decide +kernel,
    fun i hi => by rw [List.getD_eq_default _ _ (by simpa [joinPaths] using hi)]; rfl⟩

/-- Chapter 15: three paths that meet at a join become their parent's path, with all their lanes. -/
theorem test_join : ((resolveJoins (joinPaths true)).getD 0 default).full = 7 ∧ ((resolveJoins (joinPaths true)).getD 0 default).st = .run ∧
    ((resolveJoins (joinPaths true)).filter Path.live).length = 1 ∧ ((resolveJoins (joinPaths false)).filter Path.live).length = 2 := by decide +kernel

/-- A wave whose path waits at barrier 15, with a path at a join and one held while it waited. -/
def barWave : Wave :=
  let p (i : Nat) (st hst : PathSt) : Path := { st, hst, full := 1 <<< i, exm := 1 <<< i, waitOn := if i = 1 then .join else .bar 15 4, barArr := [(15, 4)] }
  { paths := [p 0 .wait .run, p 1 .wait .run, p 2 .held .wait, p 3 .run .run] ++ List.replicate 4 default }

theorem witness_barrier_end : barWave.paths.length = 8 ∧ (barWave.path 0).st = .wait ∧ (barWave.path 0).waitOn = .bar 15 4 ∧
    (barWave.path 1).atJoin = true ∧ (barWave.path 2).st = .held ∧ (barWave.path 2).hst = .wait ∧ (barWave.path 2).waitOn = .bar 15 4 ∧
    barWave.path 3 ≠ default ∧ (barWave.path 3).st = .run := by decide +kernel

/-- Blocks whose last wave has arrived at barrier 0, with a wave still to come, and with one ended; their barriers. -/
theorem witness_generations :
    0 < 16 ∧ (rig).blocks.length = 1 ∧ ((rig).blk 0).bars.length = 16 ∧ ((rig).blk 0).cluster < (rig).clusters.length ∧
    (∀ e ∈ [(false, false), (true, false), (true, true)],
      let s := rig launchRec [] (fun p => { p with barArr := [(0, 0)], cbarArr := [(7, 0)] }) id
      let s := s.modWv 0 1 fun v => { v with st := if e.2 then .done else .live
                                             paths := v.paths.modify 0 fun p => { p with barArr := if e.1 then [(0, 0)] else [], cbarArr := p.barArr } }
      ((s.checkBars 0).blk 0).bars.length = 16 ∧ (((s.checkBars 0).blk 0).bars.getD 0 {}).gen = if e.1 then 1 else 0) := by
  decide +kernel

/-- The lock of CALL's callee: free, held by the wave, held by its pair. -/
def lockRig (l : List (Nat × Option Nat)) : State := (poke callee 0x100FC 0xED000050).modBlk 0 fun k => { k with xlock := l }

theorem witness_locked_calls :
    (∀ i ∈ [Instr.call false 62 4, .calli false 30 10], ∃ c, At (lockRig []) c ∧ Passes c i ∧
      (fetches (lockRig []) c 0x100FC (fun w => w == 0xED000050) = true ∧ c.B < 80 ∧ 80 ≤ c.B + c.X ∧ c.blk.xwait = [] ∧
        SMap.get none c.blk.xlock (c.w / 2) = none)) ∧
    (∃ c, At (lockRig [(0, some 0)]) c ∧ Passes c (.call false 62 4) ∧ c.holdsLock = true) ∧
    (∀ i ∈ [Instr.call false 62 4, .calli false 30 10], ∃ c, At (lockRig [(0, some 1)]) c ∧ Passes c i ∧
      (SMap.get none c.blk.xlock (c.w / 2) = some 1 ∧ 1 ≠ c.w ∧ c.blk.xwait = [])) ∧
    ∃ c, At (rig (fp := fun p => { p with exm := 0 })) c ∧ Passes c (.calli false 30 10) ∧
      (activeLanes c = [] ∧ c.manyTargets (fun ln => c.opnd64 false 10 ln) = false) :=
  ⟨met_all (by decide +kernel), met_spec (by decide +kernel), met_all (by decide +kernel), met_spec (by decide +kernel)⟩

/-- CALLI of two targets, each with its entry word. -/
theorem witness_call_targets :
    let s := poke (poke twoTargets 0x1003C 0xED000040) 0x1007C 0xED000050
    ∃ c, At s c ∧ Passes c (.calli false 30 10) ∧
      (activeLanes c ≠ [] ∧ c.manyTargets (fun ln => c.opnd64 false 10 ln) = false ∧ c.pa.st = .run ∧ c.wv.paths.length = 8 ∧
        targetsOf (fun ln => c.opnd64 false 10 ln) (activeLanes c) = [0x10040, 0x10080] ∧ freeEntries c.wv.paths ≠ [] ∧
        (fetches s c 0x1003C (fun w => w == 0xED000040) && fetches s c 0x1007C (fun w => w == 0xED000050)) = true) :=
  met_spec (by decide +kernel)

/-- A ring instruction that waits for the wave's earlier scratchpad accesses, and one whose header has a bad word. -/
theorem witness_ring_headers :
    (∀ i ∈ [Instr.rpush false 4 20, .rpop false 20 4, .rpeek false 20 4, .rclose false 4], ∃ c,
      At ((ringRig 0 1 3 0 1).modWv 0 0 fun v => { v with ops := [{ kind := .storeLocal 4, ctr := .sc, lanes := [{ va := 64 }] }] }) c ∧ Passes c i ∧
        ((c.g 4).toNat % 16 = 0 ∧ (c.g 4).toNat + 16 ≤ c.sb ∧ c.wv.localLeft.isSome = true)) ∧
    ∀ i ∈ [Instr.rpush false 4 20, .rpop false 20 4, .rpeek false 20 4, .rclose false 4], ∃ c,
      At ((ringRig 0 1 3 0 1).modBlk 0 fun k => { k with badWords := [19] }) c ∧ Passes c i ∧
        ((c.g 4).toNat = 64 ∧ c.wv.localLeft = none ∧ 64 / 4 + 3 ∈ (((ringRig 0 1 3 0 1).modBlk 0 fun k => { k with badWords := [19] }).blk c.b).badWords ∧
          ∀ j < 3, 64 / 4 + j ∉ (((ringRig 0 1 3 0 1).modBlk 0 fun k => { k with badWords := [19] }).blk c.b).badWords) :=
  ⟨met_all (by decide +kernel), met_all (by decide +kernel)⟩

/-- SAMP and SAMPB of a melded path whose inactive quad lane renames its operands above the budget, and to an extended register. -/
theorem witness_quad_registers :
    (∀ i ∈ [Instr.samp false 20 8 5, .sampb false 20 8 5], ∃ c, At (recRig (imageRec 1) []) c ∧ Passes c i ∧
      (c.quadIll 0 8 = false ∧ c.quadIll 2 8 = false ∧ (∀ x ∈ c.quadRegs 0 8, x + 2 ≤ c.B) ∧ ∀ x ∈ c.quadRegs 2 8, x + 2 ≤ c.B)) := by
  exact met_all (by decide +kernel)

/-- A store of the profiling window: one that breaks a rule of its profile, and one while another of its world's is open. -/
def profRig (ops : List AsyncOp) : State :=
  let s := (rig launchRec [(4, 0x64040030), (5, 0)] (fun p => { p with exm := 1, full := 1 }) fun v => { v with ops }).modBlk 0 fun k =>
    { k with attach := 2 ^ 128, v := SMap.put zeroRow (SMap.put zeroRow k.v 8 (List.replicate 32 (2 ^ 28))) 9 (List.replicate 32 0x64040030) }
  s

theorem witness_profile_writes :
    (∃ c, At (profRig []) c ∧ Passes c (.stl32 false 8 9 0) ∧
      ((∀ ln ∈ activeLanes c, c.la 9 0 4 ln % 4 = 0 ∧ (c.localAt (profRig []) (c.la 9 0 4 ln) 4 false).isSome) ∧ profWriters c 9 0 4 ≠ [] ∧
        (profRig []).windowBusy c.world = false)) ∧
    (let busy : List AsyncOp := [{ ctr := .sc, kind := .storeLocal 4, lanes := [{ va := 0x64040020 }] }]
     ∃ c, At (profRig busy) c ∧ Passes c (.stl32 false 8 9 0) ∧ (profRig busy).windowBusy c.world = true) ∧
    ((rig).launches.getD 0 default).world = 0 ∧ profOk 0 (BitVec.ofNat 256 (2 ^ 255)) = false ∧ profOk 0 0 = true :=
  ⟨met_spec (by decide +kernel), met_spec (by decide +kernel), by decide +kernel⟩

/-! ### What requests, units and words deliver (chapters 03, 06, 07, 12, 13, 16 and 20) -/

/-- The one operation of wave 0: one lane of it, in turn. -/
def unitOp (k : OpKind) (l : LaneOp) : AsyncOp := { id := 3, kind := k, lanes := [l] }
def unitRig (k : OpKind) (l : LaneOp) (f : State → State := id) : State := f (waveRig fun v => { v with ops := [unitOp k l] })

/-- It is the lane that is carried out next. -/
def carriesOut (s : State) (o : AsyncOp) (l : LaneOp) : Bool :=
  (s.wv 0 0).op? o.id == some o && (o.lanes.find? fun x => x.lane == l.lane) == some l && l.st == .pending &&
    (o.lanes.find? fun x => x.st == .pending) == some l

theorem carriesOut_spec {s : State} {o : AsyncOp} {l : LaneOp} (h : carriesOut s o l = true) : CarriedOut s 0 0 o l := by
  simp only [carriesOut, Bool.and_eq_true, beq_iff_eq] at h
  exact ⟨h.1.1.1, h.1.1.2, h.1.2, h.2⟩

theorem witness_carried_out : ∀ k ∈ [OpKind.tlaunch, .tdec 5, .tstat, .tcancel, .migr, .pin 0x00020000, .unpin 0x00020000, .frpop, .scq, .scpub, .scabort,
    .scinv, .scpin, .scunpin, .sctick, .stkPush, .stkPop, .boxt, .trit, .frag, .tex 3 (imageRec 1)],
    let l : LaneOp := { lane := 31, va := 0x14000, ia := ia0 0x14000 }
    CarriedOut (unitRig k l) 0 0 (unitOp k l) l ∧ (unitOp k l).phase = 0 := fun k hk =>
  ⟨carriesOut_spec (by revert k hk; decide +kernel), rfl⟩

/-- Its unit's turn, and its turn among the wave's slot checks, are the lane's. -/
theorem witness_unit_turns : ∀ k ∈ [OpKind.scq, .scpub, .scabort, .scinv, .scpin, .scunpin, .sctick, .stkPush, .stkPop, .boxt, .trit, .frag, .tex 3 (imageRec 1)],
    let l : LaneOp := { lane := 31, va := 0x14000, ia := ia0 0x14000 }
    (((unitRig k l).wv 0 0).unitTurn (unitOp k l) 31 && (unitRig k l).shadeTurn ((unitRig k l).wv 0 0) (unitOp k l) l) = true := by decide +kernel

/-- A lane of every kind of request is served at its turn. -/
def lane31 : LaneOp := { lane := 31, va := 0x14078, ia := ia0 0x14078, aux := [ia0 0x14078, ia0 0x14079, ia0 0x1407A, ia0 0x1407B] }

theorem witness_served : ∀ k ∈ [OpKind.load 8 false 2, .store 16 1, .atomic .cas true 1 true 0, .atomic .fadd false 2 false 0, .loadE (bufRec 7 0 0 1),
    .storeE (bufRec 7 0 0 1), .remStore 8 0, .remLoad 8 0, .remAtomic 0, .evict],
    Served (unitRig k lane31) 0 0 (unitOp k lane31) lane31 (.l2Request 0 0 3 31) := fun k hk =>
  have h : carriesOut (unitRig k lane31) (unitOp k lane31) lane31 = true ∧ turnOf (unitRig k lane31) 0 0 (unitOp k lane31) lane31 = true := by
    revert k hk; decide +kernel
  ⟨(carriesOut_spec h.1).op, by simp [unitOp, lane31], h.2, .inl rfl⟩

/-- How an atomic's place answers: 0 with a value, 1 a fault, 2 a wait, 3 at a port. -/
def placeHow (s : State) (ia : Nat) (op : AtomOp) (scope : Nat) (red : Bool) : Nat :=
  match s.atomicAt who0 ia op false scope 0 5 red with
  | .acc r => accHow r
  | .port _ => 3

/-- A line of HBM, at each scope; an IA that nothing maps; a line that a copy unit owns. -/
theorem witness_atomics_served :
    (∀ scope ∈ [0, 1, 2, 3], ∀ red ∈ [true, false], placeHow (unitRig .evict {}) (ia0 0x1407C) .add scope red = 0) ∧
    placeHow (unitRig .evict {}) (2 ^ 51) .add 2 false = 1 ∧
    placeHow (lineRig .evict (ia0 0x1407C) .pending [ia0 0x1407C / 128]) (ia0 0x1407C) .add 2 false = 2 := by decide +kernel

/-- Atomics of values: a sum that wraps, a signed minimum, INCW at its bound, a CAS that matches and one that does not, FADD, FMIN beside a NaN. -/
theorem test_atomic_values :
    atomNew .add false 0xFFFFFFFF 2 = some 1 ∧ atomNew .minS false 0x80000000 1 = some 0x80000000 ∧ atomNew .minN false 0x80000000 1 = some 1 ∧
    atomNew .incw false 7 7 = some 0 ∧ atomNew .incw false 6 7 = some 7 ∧ atomNew .cas false 5 (5 + 9 * 2 ^ 32) = some 9 ∧
    atomNew .cas false 5 (6 + 9 * 2 ^ 32) = none ∧ atomNew .fadd false 0x3F800000 0x3F800000 = some 0x40000000 ∧
    atomNew .fmin false 0x7FC00000 0x3F800000 = some 0x3F800000 := by decide +kernel

/-- Records of elements: bytes in a row at each MENC and RFMT, at a pitch, and in Morton order; and what the last of these read. -/
def elemRec (menc rfmt ilv : Nat) : BitVec 320 := setFld (setFld (bufRec 7 menc rfmt 1) 291 290 ilv) 223 192 4

theorem witness_elements :
    (∀ e ∈ [(0x02, 0x20, 0, 0), (0x01, 0x20, 1, 0), (0x08, 0x21, 0, 0), (0x10, 0x21, 2, 0), (0x19, 0x21, 3, 0), (0x0B, 0x24, 0, 0)],
      let r := elemRec e.1 e.2.1 e.2.2.1
      ePermitted r = true ∧ (∀ off ∈ [0, 124, 65535], eMortonOk r off = true) ∧ (memEnc (rbMenc r)).isSome = true ∧ (regFmt (rbRfmt r)).isSome = true ∧
        (List.replicate (eTotal r) (0 : Byte)).length = eTotal r) ∧
    memEnc 1 = some (.int true, 8) ∧ memEnc 0x10 = some (.flt .e4m3, 8) ∧ memEnc 0x19 = some (.norm true, 8) := by
  refine ⟨by decide +kernel, by decide +kernel, by decide +kernel, by decide +kernel⟩

/-- How the line of an access answers before it is served. -/
def reached (s : State) (ia : Nat) (store : Bool) : Nat := accHow (s.reach who0 ia store)

theorem witness_reached : (∀ store ∈ [true, false], reached (unitRig .evict {}) (ia0 0x1407C) store = 0 ∧ reached (unitRig .evict {}) (2 ^ 51) store = 1 ∧
      reached (lineRig .evict (ia0 0x1407C) .pending [ia0 0x1407C / 128]) (ia0 0x1407C) store = 2) ∧
    (unitRig .evict {}).readsBad (ia0 0x1407C) 0x1407C = false ∧ paFar 0x14000 = false ∧ paFar (2 ^ 44) = true ∧
    (let s := lineRig .evict (ia0 0x1407C) .ready [] [ia0 0x1407C / 128]
     s.isOwned (ia0 0x1407C / 128) = false ∧ (s.ownWait.find? fun e => e.1 == ia0 0x1407C / 128) = some (ia0 0x1407C / 128, 0, 0, 3, 31)) := by decide +kernel

/-- A local load, store and atomic at the last word of the scratchpad, at a register, and in the block's cluster; one that waits for a bank,
and one at a bad word. -/
def localRig (k : OpKind) (la : Nat) (f : Block → Block := id) : State := unitRig k { lane := 31, va := BitVec.ofNat 64 la } fun s => s.modBlk 0 f

theorem witness_local_served :
    (∀ e ∈ [(OpKind.loadLocal 4 false, 4092), (.storeLocal 4, 4092), (.atomicLocal .add, 4092), (.loadLocal 16 false, 0x10000000), (.storeLocal 8, 0x10000000),
        (.atomicLocal .cas, 0x40000000), (.loadLocal 4 true, 0x40000FFC)],
      let s := localRig e.1 e.2
      let l : LaneOp := { lane := 31, va := BitVec.ofNat 64 e.2 }
      (s.wv 0 0).mayPerform (unitOp e.1 l) l = true ∧ (s.blk 0).waking = [] ∧ s.sealing 0 = false ∧
        (match (s.ctxAt 0 0 0).localAt s e.2 4 (e.1 matches .atomicLocal _) with | some (.debug _) => false | some _ => true | none => false) = true) ∧
    ((localRig (.loadLocal 4 false) 4092 fun k => { k with waking := [3] }).blk 0).waking ≠ [] := by
  exact ⟨by decide +kernel, by decide +kernel⟩

/-- Stores to the attachment record and to the profiling window of an attached block. -/
def windowRig (n la data : Nat) : State :=
  unitRig (.storeLocal n) { lane := 31, va := BitVec.ofNat 64 la, data := BitVec.ofNat 512 data } fun s => s.modBlk 0 fun k => { k with attach := 2 ^ 128 }

theorem witness_window_stores : ∀ e ∈ [(16, 0x64040000), (4, 0x6404003C), (16, 0x64040020)],
    let s := windowRig e.1 e.2 0
    let l : LaneOp := { lane := 31, va := BitVec.ofNat 64 e.2, data := BitVec.ofNat 512 0 }
    (s.wv 0 0).mayPerform (unitOp (.storeLocal e.1) l) l = true ∧ (s.ctxAt 0 0 0).smode = true ∧ (s.blk 0).waking = [] ∧ s.sealing 0 = false ∧ 0 < s.blocks.length ∧
      s.attached 0 = some 0 := by decide +kernel

/-- BOXT's and TRIT's bytes, FRAG's descriptor and a texel can be read; the walks of PIN; MIGR's, TSTAT's and TCANCEL's records; the fault ring. -/
theorem witness_unit_reads :
    let s := unitRig .boxt {}
    let c := s.ctxAt 0 0 0
    accHow (s.coRead who0 c 0x14000 4 192) = 0 ∧ accHow (s.coRead who0 c 0x14000 3 36) = 0 ∧ accHow (s.storeLine who0 (ia0 0x14000) (natBytes 4 7) 0) = 0 ∧
      (∀ fn ∈ [3, 4], accHow (s.texLookup who0 c (imageRec 1) fn [0, 0, 0]) = 0 ∧ accHow (s.texLookup who0 c (imageRec 1) fn [1, 0, 0]) = 0) ∧
      imLod (imageRec 1) = false ∧ imLevels (imageRec 1) = 1 ∧ imW (imageRec 1) 0 = 1 ∧
      (s.pinWalk 0 (ia0 0x10000 / 65536) 0 1).1 = 0 ∧ (s.pinWalk 0 (2 ^ 51 / 65536) 0 1).1 = 0x40000000 ∧
      (match s.engRead 0 (ia0 0x14000) 32 with | (.ok _, _) => true | _ => false) = true ∧
      (match (inSpace s).cpRead 0 [.load] 0x14000 256 with | (.ok _, _) => true | _ => false) = true := by decide +kernel

/-- A job of two pixels on the wave's core, started, and one still to start; a batch whose places are held while stores are pending. -/
def jobRig (started : Bool) (f : List Frag) (sc : Nat) : State :=
  (waveRig fun v => { v with sc, frags := f, ops := [unitOp .frag { lane := 31, va := 0x14000, ia := ia0 0x14000 }] }).modCore 0 fun k =>
    { k with rjobs := [{ asid := 0, va := 0x14000, started, todo := [(1, 0, 15), (2, 0, 1)] }] }

theorem witness_fragments :
    (∀ st ∈ [true, false], let s := jobRig st [] 0
      ((s.core 0).rjobs.find? (isJob 0 0x14000)).isSome = true ∧
      (((s.modWv 0 0 fun v => { v with frags := [] }).closeJobs 0).core 0).rjobs.length = 1 ∧
      ((jobRig false [] 0).startJob who0 ((jobRig false [] 0).ctxAt 0 0 0) { va := 0x14000 } matches .ok _ _) = true) ∧
    (((jobRig true [{ lane := 0, places := 1 }] 1).wv 0 0).frags.any fun f => f.places ≠ 0) = true ∧
    ((jobRig true [{ lane := 0, places := 1 }] 1).wv 0 0).sc ≠ 0 := by decide +kernel

/-- A ray that meets a box of no size at its origin, and a ray without a direction: finite numbers both. -/
theorem witness_rays :
    let ray : List Word := [0, 0, 0, 0x3F800000, 0, 0, 0, 0x3F800000]
    ray.length = 8 ∧ (List.replicate 48 (0 : Word)).length = 48 ∧ (∀ x ∈ ray ++ List.replicate 48 0, finite32 x) ∧ rayOk ray = true ∧
      rayOk (List.replicate 8 0) = false := by
  refine ⟨rfl, rfl, fun x hx => ?_, by decide +kernel, by decide +kernel⟩
  have h : x = 0 ∨ x = 0x3F800000 := by
    simp only [List.cons_append, List.nil_append, List.mem_cons, List.mem_replicate] at hx
    rcases hx with h | h | h | h | h | h | h | h | h
    all_goals first | exact .inl h | exact .inr h | exact .inl h.2
  rcases h with rfl | rfl
  · exact ⟨false, 0, -149, by decide +kernel⟩
  · exact ⟨false, 2 ^ 23, -23, by decide +kernel⟩

/-- Chapter 12: that ray's hits, and a triangle that it meets at distance 1/2. -/
theorem test_traversal :
    (boxTest [0, 0, 0, 0x3F800000, 0, 0, 0, 0x3F800000] (List.replicate 48 0)).take 3 = [0x8FF, 0x76543210, 0] ∧
    (triTest [0, 0, 0, 0x3F800000, 0, 0, 0, 0x3F800000]
      [0x3F000000, 0xBF800000, 0xBF800000, 0x3F000000, 0x40000000, 0xBF800000, 0x3F000000, 0, 0x40000000]).getD 1 0 = 0x3F000000 := by decide +kernel

/-- An object table of one valid object, owned by world 0, with a heap, a stage queue and a VALID, an INFLIGHT and no tile of key 0. -/
def tileRig (tags : List (Nat × Option Tag)) : State :=
  let s := objectRig 1
  { s with shade := { s.shade with tags, hslots := 8 }
           worlds := s.worlds.modify 0 fun x => { x with record := setFld x.record 319 256 0x40000000 } }

theorem witness_tiles :
    (∀ st ∈ [TagSt.valid, .inflight, .aborted],
      let s := tileRig [(0, some { key := 0, st, slot := 3 })]
      ((s.object 0 0).1.map obOwner) = some 0 ∧ (s.object 0 0).2.shade = s.shade ∧ (s.object 0 1).1 = none ∧
      (s.shade.find 0 st).isSome = true) ∧
    (∀ t ∈ [({ key := 0, st := .inflight, slot := 3 } : Tag)], let s := tileRig [(0, some t)]
      s.shade.live 3 = some (0, t) ∧ s.shade.tag 0 = some t ∧ s.shade.live 4 = none ∧ (s.shade.tags.map Prod.fst).Nodup) ∧
    (∀ pin ∈ [0, 3], let s := tileRig [(0, some { key := 0, st := .valid, pin })]
      (s.shade.find 0 .valid).map (fun e => e.2.pin) = some pin) ∧
    (let s := tileRig []
     s.shade.find 0 .valid = none ∧ s.shade.find 0 .inflight = none ∧ s.shade.find 0 .aborted = none ∧ (s.shade.way 0).isSome = true ∧ (s.shade.freeSlot).isSome = true) := by
  refine ⟨by decide +kernel, by decide +kernel, by decide +kernel, by decide +kernel⟩

/-- The fault ring of world 0: empty, with one record, and malformed. -/
def faultRingRig (head tail cap : Nat) : State :=
  let s := unitRig .frpop { lane := 31 }
  { s with worlds := s.worlds.modify 0 fun x => { x with record := setFld x.record 831 768 (ia0 0x16000) }
           mem := memPut s.mem 0x16000 (natBytes 16 (ia0 0x18000 + cap * 2 ^ 64 + tail * 2 ^ 96 + head * 2 ^ 96 * 0)) }

theorem witness_fault_rings :
    ((faultRingRig 0 0 64).popFault 0).1 = none ∧ ((faultRingRig 0 0 64).popFault 0).2.events = [] ∧ ((faultRingRig 0 0 63).popFault 0).2.events ≠ [] := by
  decide +kernel

/-! ### The matrix queue, tasks, debug, shutters, the host and boot (chapters 11 and 16 to 20) -/

/-- An operation of wave 0 at the head of core 0's queue, with its lanes and fragments. -/
def headOp (k : OpKind) (lanes : List LaneOp) (frags : List (List Row)) : MatOp := { block := 0, waves := [(0, 3)], kind := k, lanes, frags }
def queueRig (k : OpKind) (lanes : List LaneOp) (frags : List (List Row) := []) : State :=
  (waveRig fun v => { v with mc := 1, ops := [{ id := 3, ctr := .mc, kind := k, lanes }] }).modCore 0 fun c => { c with matq := [headOp k lanes frags] }

/-- An MMA of each kind, a TST of two lanes, a TCVT and a TLDG and TSTG of two rows, at the head of the queue and accepted. -/
theorem witness_matrix_queue :
    (∀ k ∈ ((List.range 8).map fun fn => OpKind.mma fn 0x10000 0 0 0x80000421) ++ [.tst 0x10000 2, .tcvt 0x10000 0x20 2 2 1 true], ∀ lanes ∈ [[{ lane := 0 }, { lane := 31 }]],
      ((queueRig k lanes).core 0).matq = [headOp k lanes []] ∧ (queueRig k lanes).matAccept 0 = queueRig k lanes ∧ ((queueRig k lanes).wv 0 0).ra = none ∧
        ((queueRig k lanes).wv 0 0).op? 3 = some { id := 3, ctr := .mc, kind := k, lanes } ∧ (lanes.map LaneOp.lane).Nodup) ∧
    tdCol 0x10000 + 64 * 1 ≤ 256 ∧ tdCol 0x10000 + (if tdT 0x10000 then 31 + 1 else 2) ≤ 256 ∧
    (∀ store ∈ [true, false], ∀ va ∈ [0x1407C, 0x2000000],
      let lanes : List LaneOp := [{ addr := BitVec.ofNat 64 va, aux := [1, ia0 0x10000 / 65536] }]
      let k := if store then OpKind.tstg 0x10000 2 2 256 else .tldg 0x10000 2 2 256
      let s := queueRig k lanes
      let m := s.tileMove { b := 0, w := 0, op := 3, lane := 0, core := 0, world := 0 } store (tileSpans 0x10000 2 2 256 va [(1, ia0 0x10000 / 65536)]) []
      (s.wv 0 0).mayPerform { id := 3, ctr := .mc, kind := k, lanes } (lanes.headD {}) = true ∧
        s.shadeTurn (s.wv 0 0) { id := 3, ctr := .mc, kind := k, lanes } (lanes.headD {}) = true ∧ m.2.2 = 0 ∧ (m.2.1 = [] ↔ va = 0x1407C)) := by
  refine ⟨by decide +kernel, by decide +kernel, by decide +kernel, by decide +kernel⟩

/-- Chapter 11: a row that crosses a line is cut there. -/
theorem test_tile_spans : (tileSpans 0x10000 1 2 256 0x1407C [(1, 7)]).map (fun e => (e.2.2.1, e.2.2.2.2)) = [(0x1407C, 4), (0x14080, 4)] := by
  decide +kernel

/-- Tasks that wait for a counter at 0x14000, whose record is read as the valid one of the rig's launch and as a malformed one. -/
def pendingRig (good : Bool) : State :=
  let s := inSpace rig
  { s with launches := s.launches ++ [{ record := launchRec, va := 0x14000, st := .pending }]
           mem := memPut s.mem 0x14000 (natBytes 256 (if good then (gridRec : BitVec 2048).toNat else 2 ^ 2047)) }

theorem witness_task_ready : ∀ good, let s := pendingRig good
    (s.launches.getD 1 default).st = .pending ∧ (s.launches.getD 1 default).cancelled = false ∧ recAsid (s.launches.getD 1 default).record = 0 ∧
      (s.launches.getD 0 default).st ≠ .pending ∧
      (match s.cpRead 0 [.load] 0x14000 256 with | (.ok _, s1) => s1.launches == s.launches | _ => false) = true := by
  intro good; cases good <;> decide +kernel

/-- TCANCEL of a counter with arrivals to come, of a complete one and of a malformed one, with a task that counts on it. -/
def cancelRig (count kind : Nat) : State :=
  let o : Counter := { parent := 0, pgen := 0, target := 0, count, kind, status := 0, gen := 3, reserved := false }
  let s := unitRig .tcancel { lane := 31, va := 0x14000, ia := ia0 0x14000 }
  { s with launches := s.launches.map fun (l : Launch) => { l with chain := [0x14000] }, mem := memPut s.mem 0x14000 o.bytes }

def cancelled (s : State) (p : Counter → Bool) : Bool :=
  match s.engRead 0 (ia0 0x14000) 32 with
  | (.ok bs, s1) => p (counterOf (BitVec.ofNat 256 (leNat bs))) && (s1.launches.getD 0 default).chain == [0x14000]
  | _ => false

theorem witness_cancel : cancelled (cancelRig 2 0) (fun o => !o.malformed 0x14000 && o.count == 2) = true ∧
    cancelled (cancelRig 0 0) (fun o => !o.malformed 0x14000 && o.count == 0) = true ∧ cancelled (cancelRig 1 3) (fun o => o.malformed 0x14000) = true ∧
    recAsid ((cancelRig 2 0).launches.getD 0 default).record = 0 ∧ ((cancelRig 2 0).launches.getD 0 default).st = .ready := by decide +kernel

/-- Halts and resumes of a running path, of one side of a melded path, and of a block that a shutter closes. -/
theorem witness_halts :
    (∀ k ∈ [OpKind.dbghalt 0, .dbgres 0], let s := debugRig (2 ^ 128) k .run
      ((s.wv 0 0).path 0).live = true ∧ (s.closing (s.blk 0).core) = false ∧ (s.wv 0 0).st ≠ .saved ∧ ((s.wv 0 0).path 0).st ≠ .held) ∧
    (let s := (debugRig (2 ^ 128) (.dbghalt 0x100) .run).modPath 0 0 0 fun p => { p with mode := .melded, side := 0xFFFF0000 }
     let p := (s.wv 0 0).path 0
     fld (0x100 : Word) 9 8 = 1 ∧ p.mode = .melded ∧ p.full &&& ~~~p.side ≠ 0 ∧ p.full &&& p.side ≠ 0 ∧ p.st = .run ∧ p.retrying = false ∧
       freeEntries (s.wv 0 0).paths ≠ [] ∧ (s.wv 0 0).paths.length = 8 ∧ ∀ i < 8, i ≠ 0 → ((s.wv 0 0).path i).live = false) ∧
    (let s := debugRig (2 ^ 128) (.dbghalt 0) .run
     let s : State := { s with ridges := s.ridges.modify 0 fun r => { r with phase := .drain } }
     (s.blk 0).st = .resident ∧ s.closing (s.blk 0).core = true) := by decide +kernel

/-- MIGR commands: malformed, of another world, outside the tiers, and one that goes on. -/
def migrCmd (op count src dst ia : Nat) : BitVec 256 := BitVec.ofNat 256 (op + count * 2 ^ 32 + src * 2 ^ 64 + dst * 2 ^ 128 + ia * 8 * 2 ^ 192)
theorem witness_migration_checks :
    fld (migrCmd 6 1 0 0 0) 7 0 = 6 ∧ fld (migrCmd 4 1 0 0 (2 ^ 48)) 246 192 / 8 / 2 ^ 48 ≠ 0 ∧ (rig).inTier 0 (2 ^ 40) 65536 false = false ∧
    (rig).inTier 0 0x10000 65536 false = true ∧
    (match (unitRig .migr { lane := 31, va := 0x14000, ia := ia0 0x14000 }).engRead 0 (ia0 0x14000) 32 with | (.ok _, _) => true | _ => false) = true := by
  decide +kernel

/-- Operations of each kind of an overrun record, with lanes at every stage; and a world whose overrun ring takes a record. -/
theorem witness_overruns :
    (∀ k ∈ [OpKind.store 4 0, .storeE 0, .storeLocal 4, .atomic .add false 0 true 0, .atomicLocal .add, .remStore 4 0, .remLoad 4 0, .remAtomic 0,
        .tstg 0 1 1 4, .load 4 false 0],
      let o : AsyncOp := { id := 3, kind := k, lanes := [{ lane := 0, st := .ready }, { lane := 1, st := .returned }, { lane := 31 }] }
      (waveOf [o]).wv 0 0 |>.deferred.isEmpty) ∧
    (let o := overOf 0 0 ((waveOf []).wv 0 0) storeOp
     o.kind ≤ 6 ∧ o.va < 2 ^ 64 ∧ o.segdone < 2 ^ 32 ∧ o.batch < 2 ^ 32 ∧ o.written = 0x80000001 ∧ o.cancelled = 0) := by
  decide +kernel

/-- A ridge at the end of its drain budget, with one block that has operations in flight. -/
theorem witness_budget : ∀ ph ∈ [RPhase.stop, .drain],
    let s : State := { edgeRig ph 15 with blocks := (waveOf [storeOp]).blocks }
    (s.ridge 0).phase = ph ∧ s.ridges.length = 32 ∧ s.drainEnd 0 ≤ s.clk ∧ s.onRidge 0 = [0] ∧ s.mates 0 = [0] ∧ s.copiesOf 0 = [] ∧
      (∀ w < 12, (s.world w).mextq = []) ∧ (s.blk 0).launch < s.launches.length ∧
      ((s.blk 0).waves.any fun v => (v.ops.filter fun o => !v.isRa o.id) ≠ []) = true := by decide +kernel

/-- Doorbells that clear a queue in error, ask for too much, and are taken in each state of the VF; slots to read, with bad memory and good. -/
theorem witness_doorbells :
    (∀ err ∈ [1, 4], let h : HostQ := { cap := 4, head := 7, tail := 9, err }
      (hostRig .run h).queue 0 3 = h ∧ h.err ≠ 0 ∧ h.err ≠ 2 ∧ (7#32).toNat = h.head) ∧
    (∀ err ∈ [0, 2], ∀ t ∈ [Tdi.run, .configLocked], let h : HostQ := { cap := 4, head := 0xFFFFFFFF, tail := 1, err }
      (hostRig t h).queue 0 3 = h ∧ (hostRig t h).tdiOf 0 = t ∧ h.cap < ((4#32).toNat + 2 ^ 32 - h.head) % 2 ^ 32 ∧ ((3#32).toNat + 2 ^ 32 - h.head) % 2 ^ 32 ≤ h.cap) := by
  decide +kernel

theorem witness_slots : ∀ t ∈ [Tdi.run, .configLocked], let h : HostQ := { base := 0x10000, cap := 4, head := 1, next := 2, tail := 3, held := [1] }
    let s := hostRig t h
    s.queue 0 3 = h ∧ h.err = 0 ∧ h.next ≠ h.tail ∧ h.cap ≠ 0 ∧ s.tdiOf 0 = t ∧ s.vfWorld 0 = some 0 ∧ s.frozen = false ∧
      2 ^ 44 + (h.base.toNat / 256 * 256 + 256 * (h.next % h.cap)) + 256 ≤ 2 ^ 45 ∧ s.bad 0 (2 ^ 44 + 0x10200) = false ∧
      ({ s with keys := [] } : State).bad 0 (2 ^ 44 + 0x10200) = false := by decide +kernel

/-- Evidence of world 0 and of its VF: while it runs, and sealed. -/
theorem witness_evidence :
    (∀ e ∈ [(16, RPhase.open_), (32, .open_), (16, .drain), (16, .seal), (32, .overrun)],
      let s := hostRig .run {}
      let s : State := { s with ridges := s.ridges.modify 0 fun r => { r with phase := e.2 } }
      s.powered = true ∧ s.bootStep = 0 ∧ s.measWorld e.1 = some 0 ∧ s.ridges.any (fun r => r.world == some 0 && r.phase == e.2) = true) ∧
    (wrVfs ((hostRig .run {}).world 0).record).testBit 0 = true ∧
    (let s := hostRig .run {}
     let s : State := { s with ridges := s.ridges.map fun r => { r with world := none }
                               worlds := s.worlds.modify 0 fun x => { x with isSealed := true, sealedSet := [(16, 5)] } }
     s.measWorld 16 = some 0 ∧ s.ridges.all (fun r => r.world ≠ some 0) = true ∧ (s.world 0).isSealed = true ∧
       ((s.world 0).sealedSet.find? fun e => e.1 == 16) = some (16, 5)) := by decide +kernel

/-- A device with power that boots again, and one that has not booted. -/
theorem witness_boots : bootRig.powered = true ∧ ({ bootRig with bootStep := 4 } : State).bootStep ≠ 0 := by decide +kernel

/-- A memory word that leaves a wave with an armed release and an open atomic; a word of no memory class. -/
theorem witness_leave : (∃ c, At (rig launchRec [] id fun v => { v with armed := some 2, lastAtom := some (3, 1) }) c ∧ c.wv.armed = some 2 ∧ c.wv.lastAtom = some (3, 1)) ∧
    (info (.st32 false false 9 2 3)).cls = 2 ∧ (info (.add false false 5 8 9)).cls ≠ 2 :=
  ⟨here_spec (by decide +kernel), by decide +kernel, by decide +kernel⟩

/-- Words that are ILL for what the rules of the word itself say. -/
theorem witness_own_ill :
    (∃ c, At (rig launchRec [] (fun p => { p with exm := 3 }) fun v => { v with tinfo := 0x80000000 }) c ∧ c.inHandler = true) ∧
    (∃ c, At (rig) c ∧ (c.inHandler = false ∧ c.pa.cpos ≠ fld c.pa.hdr 26 23)) ∧ (∃ c, At (rig) c ∧ (c.B + c.X ≤ (100#7).toNat)) ∧
    ∃ c, At (rig launchRec [] fun p => { p with mode := .melded }) c ∧ c.pa.mode ≠ .plain :=
  ⟨here_spec (by decide +kernel), here_spec (by decide +kernel), here_spec (by decide +kernel), here_spec (by decide +kernel)⟩

/-- Words to round: an inexact one, one that overflows, one exactly between two numbers. -/
theorem witness_rounding : ∀ e ∈ [((2 ^ 24 + 1 : Nat), (0 : Int)), (1, 128), (3, -1)], e.1 ≠ 0 ∧
    (Fmt.f32.round .rne false e.1 e.2).ovf = decide (e.2 = 128) := by decide +kernel

/-- A prefetch that is served at once, and the 32 lanes of a prefetch of a record. -/
theorem witness_prefetch : ∃ c, At (bufRig (bufRec 7 0 0 1) 252) c ∧
    ((c.prefetch true false (bufRig (bufRec 7 0 0 1) 252) (ia0 0x14000)).1 = true ∧ (c.cacheLanes (bufRig (bufRec 7 0 0 1) 252) 10 5 (bufRec 7 0 0 1)).length = 32) :=
  here_spec (by decide +kernel)
end Sys2Proof.Tests
end

section
/-! PROOFS. Integer words (chapter 09): O1, O3 and O5. -/

namespace Sys2Proof.Machine

open Sys2Proof

/-! ### Values: masks and searches -/

/-- Bit `i` of the sum of `2 ^ k` over the numbers below `n` that pass `f`. -/
theorem testBit_foldl_two_pow (f : Nat → Bool) (n i : Nat) :
    (((List.range n).filter f).foldl (fun x k => x + 2 ^ k) 0).testBit i = (decide (i < n) && f i) ∧
      ((List.range n).filter f).foldl (fun x k => x + 2 ^ k) 0 < 2 ^ n := by
  induction n generalizing i with
  | zero => simp
  | succ n ih =>
    rw [List.range_succ, List.filter_append, List.foldl_append]
    have hlt := (ih i).2
    by_cases hf : f n = true
    · simp only [List.filter_cons, hf, if_true, List.filter_nil, List.foldl_cons, List.foldl_nil]
      refine ⟨?_, by rw [Nat.pow_succ]; omega⟩
      rw [Nat.add_comm]
      rcases Nat.lt_trichotomy i n with h | rfl | h
      · rw [Nat.testBit_two_pow_add_gt h, (ih i).1]; simp [h, Nat.lt_succ_of_lt h]
      · rw [Nat.testBit_two_pow_add_eq, (ih i).1]; simp [hf]
      · have hle : 2 ^ (n + 1) ≤ 2 ^ i := Nat.pow_le_pow_right (by omega) h
        rw [Nat.testBit_lt_two_pow (by rw [Nat.pow_succ] at hle; omega)]
        simp [show ¬ i < n + 1 by omega]
    · simp only [List.filter_cons, hf, List.filter_nil]
      refine ⟨?_, hlt.trans (Nat.pow_lt_pow_right (by omega) (by omega))⟩
      simp only [Bool.false_eq_true, if_false, List.foldl_nil, (ih i).1]
      rcases Nat.lt_trichotomy i n with h | rfl | h
      · simp [h, Nat.lt_succ_of_lt h]
      · simp [hf]
      · simp [show ¬ i < n by omega, show ¬ i < n + 1 by omega]

@[simp] theorem getLsbD_maskOf (f : Nat → Bool) (i : Nat) : (maskOf f).getLsbD i = (decide (i < 32) && f i) := by
  rw [maskOf, BitVec.getLsbD_ofNat, (testBit_foldl_two_pow f 32 i).1]
  cases decide (i < 32) <;> rfl

/-- A word is the mask of its bits. -/
theorem eq_maskOf {w : Word} {f : Nat → Bool} (h : ∀ i < 32, w.getLsbD i = f i) : w = maskOf f :=
  BitVec.eq_of_getLsbD_eq fun i hi => by rw [h i hi, getLsbD_maskOf, decide_eq_true hi, Bool.true_and]

/-- A bit of a sign-extended number: its own, or its sign. -/
theorem getLsbD_signExtend_min {w v i : Nat} (x : BitVec w) (hw : 0 < w) (hi : i < v) :
    (x.signExtend v).getLsbD i = x.getLsbD (min i (w - 1)) := by
  rw [BitVec.getLsbD_signExtend, BitVec.msb_eq_getLsbD_last, decide_eq_true hi, Bool.true_and]
  split
  · rw [Nat.min_eq_left (by omega)]
  · rw [Nat.min_eq_right (by omega)]

/-- The first number below `n` that passes `p` is how many come before it. -/
theorem find?_range_getD (p : Nat → Bool) (n : Nat) :
    ((List.range n).find? p).getD n = ((List.range n).takeWhile fun k => !p k).length := by
  induction n with
  | zero => rfl
  | succ n ih =>
    rw [List.range_succ, List.find?_append, List.takeWhile_append, ← ih]
    cases hf : (List.range n).find? p with
    | none => by_cases hp : p n = true <;> simp [hp]
    | some i =>
      have : i ≠ n := by
        have := List.mem_range.1 (List.mem_of_find?_eq_some hf); omega
      simp [this, ← ih, hf]

/-! ### R209: IARI and LOGIC -/

theorem add_eq_ofNat {w : Nat} (a b : BitVec w) : a + b = BitVec.ofNat w (a.toNat + b.toNat) := by
  simp [BitVec.ofNat_add]

theorem sub_eq_ofInt {w : Nat} (a b : BitVec w) : a - b = BitVec.ofInt w (a.toNat - b.toNat) := by
  rw [Int.sub_eq_add_neg, BitVec.ofInt_add, BitVec.ofInt_neg, BitVec.ofInt_natCast, BitVec.ofInt_natCast, BitVec.ofNat_toNat,
    BitVec.ofNat_toNat, BitVec.setWidth_eq, BitVec.setWidth_eq, BitVec.sub_eq_add_neg]

theorem neg_eq_ofInt {w : Nat} (a : BitVec w) : -a = BitVec.ofInt w (0 - a.toNat) := by
  simpa using sub_eq_ofInt 0#w a

theorem ite_le_eq_min_toInt (a b : Word) : (if a.toInt ≤ b.toInt then a else b) = BitVec.ofInt 32 (min a.toInt b.toInt) := by
  rw [min_def]; split <;> rw [BitVec.ofInt_toInt]

theorem ite_le_eq_max_toInt (a b : Word) : (if a.toInt ≤ b.toInt then b else a) = BitVec.ofInt 32 (max a.toInt b.toInt) := by
  rw [max_def]; split <;> rw [BitVec.ofInt_toInt]

theorem ite_le_eq_min_toNat (a b : Word) : (if a.toNat ≤ b.toNat then a else b) = BitVec.ofNat 32 (min a.toNat b.toNat) := by
  rw [min_def]; split <;> simp

theorem ite_le_eq_max_toNat (a b : Word) : (if a.toNat ≤ b.toNat then b else a) = BitVec.ofNat 32 (max a.toNat b.toNat) := by
  rw [max_def]; split <;> simp

theorem absdV_eq (a b : Word) : absdV a b = BitVec.ofInt 32 |a.toInt - b.toInt| := by
  rw [absdV, Int.abs_eq_natAbs, BitVec.ofInt_natCast]

theorem and_eq_maskOf (a b : Word) : a &&& b = maskOf fun k => bitAt a k && bitAt b k :=
  eq_maskOf fun i hi => by simp [bitAt]

theorem or_eq_maskOf (a b : Word) : a ||| b = maskOf fun k => bitAt a k || bitAt b k :=
  eq_maskOf fun i hi => by simp [bitAt]

theorem xor_eq_maskOf (a b : Word) : a ^^^ b = maskOf fun k => bitAt a k != bitAt b k :=
  eq_maskOf fun i hi => by simp [bitAt]

theorem andn_eq_maskOf (a b : Word) : a &&& ~~~b = maskOf fun k => bitAt a k && !bitAt b k :=
  eq_maskOf fun i hi => by simp [bitAt, hi]

theorem orn_eq_maskOf (a b : Word) : a ||| ~~~b = maskOf fun k => bitAt a k || !bitAt b k :=
  eq_maskOf fun i hi => by simp [bitAt, hi]

theorem xnor_eq_maskOf (a b : Word) : ~~~(a ^^^ b) = maskOf fun k => bitAt a k == bitAt b k := by
  refine eq_maskOf fun i hi => ?_
  rw [BitVec.getLsbD_not, BitVec.getLsbD_xor, decide_eq_true hi, Bool.true_and, bitAt, bitAt]
  cases a.getLsbD i <;> cases b.getLsbD i <;> rfl

theorem not_eq_maskOf (a : Word) : ~~~a = maskOf fun k => !bitAt a k :=
  eq_maskOf fun i hi => by simp [bitAt, hi]

/-! ### R210: SHIFT -/

theorem shlV_eq {w : Nat} (a : BitVec w) (n : Nat) : shlV a n = BitVec.ofNat w (a.toNat * 2 ^ n) := by
  apply BitVec.eq_of_toNat_eq; simp [shlV, Nat.shiftLeft_eq]

theorem shrV_eq {w : Nat} (a : BitVec w) (n : Nat) : shrV a n = BitVec.ofNat w (a.toNat / 2 ^ n) := by
  rw [← Nat.shiftRight_eq_div_pow, ← BitVec.toNat_ushiftRight, BitVec.ofNat_toNat, BitVec.setWidth_eq]; rfl

theorem sarV_eq {w : Nat} (a : BitVec w) (n : Nat) : sarV a n = BitVec.ofInt w (a.toInt / 2 ^ n) := by
  rw [show (2 : Int) ^ n = ((2 ^ n : Nat) : Int) by simp, ← Int.shiftRight_eq_div_pow, ← BitVec.toInt_sshiftRight,
    BitVec.ofInt_toInt]; rfl

theorem rolV_eq (a : Word) {n : Nat} (h : n < 64) : rolV a n = maskOf fun k => bitAt a ((k + 64 - n) % 32) := by
  refine eq_maskOf fun i hi => ?_
  rw [rolV, BitVec.getLsbD_rotateLeft, Nat.mod_mod, bitAt]
  by_cases hlt : i < n % 32
  · simp only [hlt, decide_true, cond_true]; congr 1; omega
  · simp only [hlt, decide_false, cond_false, hi, decide_true, Bool.true_and]; congr 1; omega

theorem rorV_eq (a : Word) (n : Nat) : rorV a n = maskOf fun k => bitAt a ((k + n) % 32) := by
  refine eq_maskOf fun i hi => ?_
  rw [rorV, BitVec.getLsbD_rotateRight, Nat.mod_mod, bitAt]
  by_cases hlt : i < 32 - n % 32
  · simp only [hlt, decide_true, cond_true]; congr 1; omega
  · simp only [hlt, decide_false, cond_false, hi, decide_true, Bool.true_and]; congr 1; omega

/-! ### R211: IMUL -/

theorem mul_eq_ofNat (a b : Word) : a * b = BitVec.ofNat 32 (a.toNat * b.toNat) := by
  simp [BitVec.ofNat_mul]

theorem mad_eq_ofNat (a b d : Word) : a * b + d = BitVec.ofNat 32 (a.toNat * b.toNat + d.toNat) := by
  simp [BitVec.ofNat_mul, BitVec.ofNat_add]

theorem mulwS_add (a b : Word) (d : DWord) : mulwS a b + d = BitVec.ofInt 64 (a.toInt * b.toInt + d.toInt) := by
  rw [BitVec.ofInt_add, BitVec.ofInt_toInt, mulwS]

theorem mulwN_add (a b : Word) (d : DWord) : mulwN a b + d = BitVec.ofNat 64 (a.toNat * b.toNat + d.toNat) := by
  rw [BitVec.ofNat_add, BitVec.ofNat_toNat, BitVec.setWidth_eq, mulwN]

/-! ### R212 to R214: BITS -/

theorem popcV_eq (a : Word) : popcV a = BitVec.ofNat 32 ((List.range 32).filter (bitAt a)).length := by
  rw [popcV, List.countP_eq_length_filter]

theorem ctzV_eq (a : Word) : ctzV a = BitVec.ofNat 32 (((List.range 32).takeWhile fun k => !bitAt a k).length) := by
  rw [ctzV, find?_range_getD]

/-- The bits at and above `n` of a word are 0 just where it lies below `2 ^ n`. -/
theorem toNat_lt_two_pow {a : Word} {n : Nat} (h : ∀ i, n ≤ i → i < 32 → bitAt a i = false) : a.toNat < 2 ^ n := by
  refine Nat.lt_pow_two_of_testBit _ fun i hi => ?_
  rw [BitVec.testBit_toNat]
  by_cases h32 : i < 32
  · exact h i hi h32
  · exact BitVec.getLsbD_of_ge _ _ (by omega)

theorem clzV_eq (a : Word) : clzV a = BitVec.ofNat 32 (32 - Nat.size a.toNat) := by
  rw [clzV]
  congr 1
  cases hf : (List.range 32).find? fun i => bitAt a (31 - i) with
  | none =>
    have hz := List.find?_range_eq_none.1 hf
    have : a.toNat < 2 ^ 0 := toNat_lt_two_pow fun i _ hi => by
      have := hz (31 - i) (by omega)
      rw [show 31 - (31 - i) = i by omega] at this
      simpa using this
    simp [show a.toNat = 0 by omega]
  | some i =>
    obtain ⟨hi, hm, hz⟩ := List.find?_range_eq_some.1 hf
    have hi32 := List.mem_range.1 hm
    have hle : a.toNat < 2 ^ (32 - i) := toNat_lt_two_pow fun j hj hj32 => by
      have := hz (31 - j) (by omega)
      rw [show 31 - (31 - j) = j by omega] at this
      simpa using this
    have hge : 2 ^ (31 - i) ≤ a.toNat := Nat.ge_two_pow_of_testBit (by rw [BitVec.testBit_toNat]; exact hi)
    have h1 := Nat.size_le.2 hle
    have h2 := Nat.lt_size.2 hge
    simp only [Option.getD_some]; omega

theorem bfeZV_eq (a c : Word) : bfeZV a c = BitVec.ofNat 32 (a.toNat / 2 ^ fieldPos c % 2 ^ fieldLen c) := rfl

/-- BFE.S takes the field's bits as a signed number (R213). -/
theorem bfeSV_eq_signExtend (a c : Word) :
    bfeSV a c = (BitVec.ofNat (bfLen c) (a.toNat / 2 ^ bfPos c)).signExtend 32 := by
  have hx : (a.toNat : Int) / 2 ^ bfPos c % 2 ^ bfLen c = ((a.toNat / 2 ^ bfPos c % 2 ^ bfLen c : Nat) : Int) := by push_cast; rfl
  show BitVec.ofInt 32 _ = BitVec.ofInt 32 _
  congr 1
  rw [hx, BitVec.toInt_eq_toNat_cond, BitVec.toNat_ofNat]
  have hlt : a.toNat / 2 ^ bfPos c % 2 ^ bfLen c < 2 ^ bfLen c := Nat.mod_lt _ (Nat.two_pow_pos _)
  generalize a.toNat / 2 ^ bfPos c % 2 ^ bfLen c = u at hlt
  cases hl : bfLen c with
  | zero =>
    rw [hl] at hlt
    simp [show u = 0 by omega]
  | succ l =>
    rw [hl] at hlt
    have hc : (2 : Int) ^ l = ((2 ^ l : Nat) : Int) := by push_cast; rfl
    simp only [pow_succ, Nat.add_sub_cancel, hc]
    generalize 2 ^ l = p
    split <;> split <;> push_cast <;> omega

theorem bfeSV_eq (a c : Word) : bfeSV a c = maskOf fun k =>
    fieldLen c != 0 && bitAt a (fieldPos c + min k (fieldLen c - 1)) := by
  refine eq_maskOf fun i hi => ?_
  show _ = (bfLen c != 0 && bitAt a (bfPos c + min i (bfLen c - 1)))
  rw [bfeSV_eq_signExtend]
  rcases Nat.eq_zero_or_pos (bfLen c) with h0 | hpos
  · rw [BitVec.getLsbD_signExtend, BitVec.msb_eq_getLsbD_last, BitVec.getLsbD_ofNat]
    simp [h0]
  · have hmin : min i (bfLen c - 1) < bfLen c := by omega
    rw [getLsbD_signExtend_min _ hpos hi, BitVec.getLsbD_ofNat, Nat.testBit_div_two_pow, BitVec.testBit_toNat, Nat.add_comm,
      decide_eq_true hmin, bne_iff_ne.2 (by omega), bitAt]

theorem bfiV_eq (a c d : Word) : bfiV a c d = maskOf fun k =>
    if fieldPos c ≤ k ∧ k < fieldTop c then bitAt a (k - fieldPos c) else bitAt d k := by
  refine eq_maskOf fun i hi => ?_
  have hpos : bfPos c ≤ fieldTop c := by unfold bfPos fieldTop fieldPos; omega
  have hlen : bfPos c + bfLen c = fieldTop c := by
    show bfPos c + (fieldTop c - bfPos c) = fieldTop c
    omega
  have hm : (BitVec.ofNat 32 ((2 ^ bfLen c - 1) * 2 ^ bfPos c)).getLsbD i = decide (bfPos c ≤ i ∧ i < fieldTop c) := by
    rw [BitVec.getLsbD_ofNat, Nat.testBit_mul_two_pow, Nat.testBit_two_pow_sub_one, ← hlen]
    simp only [hi, decide_true, Bool.true_and]
    by_cases h : bfPos c ≤ i
    · simp only [h, decide_true, Bool.true_and, true_and]; congr 1; apply propext; omega
    · simp [h]
  show (d &&& ~~~_ ||| a <<< bfPos c &&& _).getLsbD i = if bfPos c ≤ i ∧ i < fieldTop c then bitAt a (i - bfPos c) else bitAt d i
  rw [BitVec.getLsbD_or, BitVec.getLsbD_and, BitVec.getLsbD_and, BitVec.getLsbD_not, hm, BitVec.getLsbD_shiftLeft]
  by_cases h : bfPos c ≤ i ∧ i < fieldTop c
  · simp [h, hi, bitAt, show ¬ i < bfPos c by omega]
  · simp only [h, decide_false, hi, decide_true, Bool.not_false, Bool.and_true, Bool.and_false, Bool.or_false, if_false, bitAt]

theorem byteOf_toNat (w : Word) (i : Nat) : (byteOf w i).toNat = w.toNat / 256 ^ i % 256 := by
  rw [byteOf, BitVec.extractLsb'_toNat, Nat.shiftRight_eq_div_pow, Nat.pow_mul]

theorem prmtByte_toNat (a b : Word) {t : Nat} (h : t < 16) : (prmtByte a b t).toNat = permute a b t := by
  have hx : ∀ k < 8, (if k < 4 then byteOf a k else byteOf b (k - 4)).toNat = permByte a b k := fun k _ => by
    unfold permByte; split <;> exact byteOf_toNat _ _
  unfold prmtByte permute
  by_cases h8 : t < 8
  · rw [Nat.mod_eq_of_lt h8]; simpa [h8] using hx t h8
  · rw [show t % 8 = t - 8 by omega, ← hx (t - 8) (by omega)]
    simp only [h8, if_false]
    generalize (if t - 8 < 4 then byteOf a (t - 8) else byteOf b (t - 8 - 4)) = x
    have hmsb : x.getLsbD 7 = decide (128 ≤ x.toNat) := BitVec.msb_eq_decide x
    simp only [hmsb, decide_eq_true_eq]
    split <;> rfl

/-- Four bytes in a row, the first one highest. -/
theorem append_bytes_toNat (w x y z : Byte) : (w ++ (x ++ (y ++ z)) : Word).toNat =
    z.toNat + 256 * y.toNat + 256 ^ 2 * x.toNat + 256 ^ 3 * w.toNat := by
  simp only [BitVec.toNat_append]
  have hz := z.isLt
  have hy := y.isLt
  have hx := x.isLt
  rw [← Nat.shiftLeft_add_eq_or_of_lt hz, ← Nat.shiftLeft_add_eq_or_of_lt (i := 8 + 8),
    ← Nat.shiftLeft_add_eq_or_of_lt (i := 8 + (8 + 8))]
  all_goals simp only [Nat.shiftLeft_eq]; omega

theorem prmtV_eq (a b d : Word) : prmtV a b d = BitVec.ofNat 32
    (permute a b (d.toNat % 16) + 256 * permute a b (d.toNat / 16 % 16) + 256 ^ 2 * permute a b (d.toNat / 256 % 16) +
      256 ^ 3 * permute a b (d.toNat / 4096 % 16)) := by
  rw [← prmtByte_toNat _ _ (Nat.mod_lt _ (by omega)), ← prmtByte_toNat _ _ (Nat.mod_lt _ (by omega)),
    ← prmtByte_toNat _ _ (Nat.mod_lt _ (by omega)), ← prmtByte_toNat _ _ (Nat.mod_lt _ (by omega)),
    ← append_bytes_toNat, BitVec.ofNat_toNat, BitVec.setWidth_eq]
  rfl

/-! ### R216 to R218: ADDR, ICVT, immediates -/

theorem leaV_eq (n : Nat) (a : DWord) (b : Word) : leaV n a b = BitVec.ofNat 64 (a.toNat + n * b.toNat) := by
  rw [leaV, BitVec.ofNat_add, BitVec.ofNat_toNat, BitVec.setWidth_eq]

/-- The low `n + 1` bits of a word, its sign extended (R217). -/
theorem signExtend_setWidth_eq (a : Word) (n : Nat) :
    (a.setWidth (n + 1)).signExtend 32 = maskOf fun k => bitAt a (min k n) := by
  refine eq_maskOf fun i hi => ?_
  rw [getLsbD_signExtend_min _ (Nat.succ_pos n) hi, BitVec.getLsbD_setWidth, decide_eq_true (by omega), Bool.true_and]
  rfl

theorem setWidth_setWidth_eq (a : Word) (n : Nat) : (a.setWidth n).setWidth 32 = BitVec.ofNat 32 (a.toNat % 2 ^ n) := by
  rw [← BitVec.toNat_setWidth, BitVec.ofNat_toNat]

theorem opnd_zero_eq (c : Ctx) (g : Bool) (f : Field) (ln : Nat) : c.opnd g f ln 0 = BitVec.ofNat 32 (c.opnd64 g f ln).toNat := by
  rw [BitVec.ofNat_toNat, Ctx.opnd64, BitVec.setWidth_append]; simp

theorem add_sext10 (a : Word) (i : BitVec 10) : a + sext10 i = BitVec.ofInt 32 (a.toInt + i.toInt) := by
  rw [BitVec.ofInt_add, BitVec.ofInt_toInt]; rfl

theorem and_sext10 (a : Word) (i : BitVec 10) : a &&& sext10 i = maskOf fun k => bitAt a k && i.getLsbD (min k 9) := by
  refine eq_maskOf fun k hk => ?_
  rw [BitVec.getLsbD_and, sext10, getLsbD_signExtend_min _ (by decide) hk, bitAt]

theorem or_zext10 (a : Word) (i : BitVec 10) : a ||| zext10 i = maskOf fun k => bitAt a k || i.getLsbD k := by
  refine eq_maskOf fun k hk => ?_
  simp [zext10, bitAt, hk]

/-! ### What a fetch leaves unchanged

The reads of a fetch go through translation and L2: they may count, move, fill and write back lines, but no wave changes. -/

/-- The part of a state that tells which path issues and what it sees. -/
def State.issueView (s : State) : Option (Nat × Nat × Nat) × List Block × List Launch := (s.cur, s.blocks, s.launches)

theorem ctx_eq_of_issueView {s t : State} (h : t.issueView = s.issueView) : t.ctx = s.ctx := by
  simp only [State.issueView, Prod.mk.injEq] at h
  obtain ⟨hcur, hblocks, hlaunches⟩ := h
  simp [State.ctx, State.ctxAt, State.wv, State.blk, State.launchOf, hcur, hblocks, hlaunches]

/-! ### Single updates -/

@[simp] theorem issueView_ite (p : Prop) [Decidable p] (s t : State) :
    (if p then s else t).issueView = if p then s.issueView else t.issueView := apply_ite ..

@[simp] theorem issueView_log (s : State) (cls : Nat) (code unit : Option Nat) (world data : Nat) :
    (s.log cls code unit world data).issueView = s.issueView := by
  unfold State.log; split <;> rfl

@[simp] theorem issueView_logFault (s : State) (f : Nat × Nat) (unit : Option Nat) (world data : Nat) :
    (s.logFault f unit world data).issueView = s.issueView := issueView_log ..

@[simp] theorem issueView_setL2 (s : State) (ln : Nat) (l : Option L2Line) : (s.setL2 ln l).issueView = s.issueView := rfl

@[simp] theorem issueView_l2count (s : State) (world ia slice n : Nat) :
    (s.l2count world ia slice n).issueView = s.issueView := rfl

@[simp] theorem issueView_modCore (s : State) (k : Nat) (f : Core → Core) : (s.modCore k f).issueView = s.issueView := rfl

@[simp] theorem issueView_freeBit (s : State) : s.freeBit.2.issueView = s.issueView := rfl

@[simp] theorem issueView_freeNat (s : State) (n : Nat) : (s.freeNat n).2.issueView = s.issueView := rfl

@[simp] theorem issueView_tlbDrop (s : State) (t : TlbEntry) : (s.tlbDrop t).issueView = s.issueView := rfl

@[simp] theorem issueView_ctrlWrite (s : State) (region world pa : Nat) (data : Line) (m : LineMask) :
    (s.ctrlWrite region world pa data m).issueView = s.issueView := by
  unfold State.ctrlWrite
  split
  · rfl
  · split
    · exact issueView_log ..
    · rfl

/-! ### Lines that move in L2 -/

@[simp] theorem issueView_orInPlace (s : State) (world ent : Nat) (bits : Byte) :
    (s.orInPlace world ent bits).issueView = s.issueView := by
  unfold State.orInPlace
  split
  · dsimp only; split <;> simp
  · simp

@[simp] theorem issueView_markDirty (s : State) (world ln : Nat) (l : L2Line) :
    (s.markDirty world ln l).issueView = s.issueView := by
  unfold State.markDirty
  dsimp only
  split
  · rfl
  · exact issueView_orInPlace ..

@[simp] theorem issueView_writeBack (s : State) (world ln : Nat) : (s.writeBack world ln).issueView = s.issueView := by
  unfold State.writeBack
  split
  · rfl
  · dsimp only
    split
    · rfl
    · split
      · simp
      · simp only [issueView_setL2, issueView_l2count]
        split <;> simp

@[simp] theorem issueView_l2Evict (s : State) (world ln : Nat) : (s.l2Evict world ln).issueView = s.issueView := by
  simp [State.l2Evict]

@[simp] theorem issueView_l2Place (s : State) (world ln slice : Nat) (l : L2Line) :
    (s.l2Place world ln slice l).issueView = s.issueView := by
  unfold State.l2Place
  split
  · simp
  · dsimp only
    simp only [issueView_setL2]
    split <;> simp

@[simp] theorem issueView_l2Alloc (s : State) (r : L2Req) (l : L2Line) : (s.l2Alloc r l).issueView = s.issueView :=
  issueView_l2Place ..

@[simp] theorem issueView_recall (s : State) (world ln : Nat) : (s.recall world ln).issueView = s.issueView := by
  unfold State.recall
  split
  · rfl
  · dsimp only
    split
    · simp
    · split <;> simp

@[simp] theorem issueView_l2Move (s : State) (world ln slice : Nat) : (s.l2Move world ln slice).issueView = s.issueView := by
  unfold State.l2Move
  split
  · rfl
  · dsimp only
    split
    · rfl
    · simp only [issueView_l2Place, issueView_l2count]
      split <;> simp

@[simp] theorem issueView_l2Settle (s : State) (world ln : Nat) : (s.l2Settle world ln).issueView = s.issueView := by
  unfold State.l2Settle
  split
  · split <;> simp
  · rfl

@[simp] theorem issueView_l2Lookup (s : State) (r : L2Req) : (s.l2Lookup r).issueView = s.issueView := by
  unfold State.l2Lookup
  dsimp only
  generalize (r.core.bind _ : Option Nat) = near
  cases near <;> cases (s.l2line (r.ia / 128)).map L2Line.slice <;>
    simp only [issueView_ite, issueView_l2count, ite_self]

@[simp] theorem issueView_l2Touch (s : State) (r : L2Req) : (s.l2Touch r).issueView = s.issueView := by
  unfold State.l2Touch
  split
  · simp only [issueView_ite, issueView_setL2, issueView_l2Move, ite_self]
  · rfl

@[simp] theorem issueView_l2Reach (s : State) (r : L2Req) : (s.l2Reach r).issueView = s.issueView := by
  simp [State.l2Reach]

/-! ### Reads through L2 -/

/-- The state that an operation ends in, whether it answers or stops. -/
def endState {ε α : Type} (f : α → State) : Except (ε × State) α → State
  | .ok a => f a
  | .error e => e.2

theorem endState_map {ε α β : Type} (f : β → State) (g : α → β) (x : Except (ε × State) α) :
    endState f (x.map g) = endState (fun a => f (g a)) x := by cases x <;> rfl

@[simp] theorem issueView_l2Complete (s : State) (ln : Nat) : (endState id (s.l2Complete ln)).issueView = s.issueView := by
  unfold State.l2Complete
  dsimp only
  repeat' split
  all_goals rfl

theorem issueView_from (e : L2Stop) (s t : State) (h : t.issueView = s.issueView) :
    (e.from s t).2.issueView = s.issueView := by
  cases e with
  | park | train => rfl
  | bad | noPort => exact h

@[simp] theorem issueView_l2Load (s : State) (r : L2Req) : (endState Prod.snd (s.l2Load r)).issueView = s.issueView := by
  unfold State.l2Load
  dsimp only
  split
  · rw [endState_map]; exact (issueView_l2Complete ..).trans (issueView_l2Reach ..)
  · split
    · exact issueView_from _ _ _ (issueView_l2Reach ..)
    · exact issueView_from _ _ _ (issueView_l2Reach ..)
    · split
      · exact issueView_l2Reach ..
      · dsimp only [endState]
        split <;> simp

@[simp] theorem issueView_l2Read (s : State) (r : L2Req) (n : Nat) :
    (endState Prod.snd (s.l2Read r n)).issueView = s.issueView := by
  have h := issueView_l2Load s r
  unfold State.l2Read
  split <;> rename_i hl <;> rw [hl] at h
  · exact h
  · split <;> exact h
  · exact h

@[simp] theorem issueView_l2Atomic (s : State) (r : L2Req) (n : Nat) (red : Bool) (f : List Byte → Option (List Byte)) :
    (endState Prod.snd (s.l2Atomic r n red f)).issueView = s.issueView := by
  unfold State.l2Atomic
  dsimp only
  split
  · rw [endState_map]
    dsimp only
    split
    · dsimp only [endState]; split <;> simp
    · have h := issueView_l2Complete s (r.ia / 128)
      cases hc : s.l2Complete (r.ia / 128) <;> rw [hc] at h
      · exact h
      · dsimp only [endState] at h ⊢; split <;> simpa using h
  · split
    · rfl
    · rfl
    · split
      · rfl
      · dsimp only [endState]
        repeat' split
        all_goals simp

/-! ### Translation -/

@[simp] theorem issueView_readEntry (s : State) (world home region pa : Nat) :
    (endState Prod.snd (s.readEntry world home region pa)).issueView = s.issueView := by
  unfold State.readEntry
  dsimp only
  split
  · split
    · rw [endState_map]; exact issueView_l2Read ..
    · rfl
  · rw [endState_map]; exact issueView_l2Read ..

@[simp] theorem issueView_orEntry (s : State) (world region ent : Nat) (bits : Byte) :
    (endState id (s.orEntry world region ent bits)).issueView = s.issueView := by
  unfold State.orEntry
  rw [endState_map]
  exact (issueView_l2Atomic ..).trans (by simp)

@[simp] theorem issueView_walkFrom (world home region ia : Nat) (store : Bool) (left : Nat) (s : State) (table : Nat) :
    (s.walkFrom world home region ia store table left).1.issueView = s.issueView := by
  induction left generalizing s table with
  | zero => rfl
  | succ left ih =>
    unfold State.walkFrom
    dsimp only
    split
    · rfl
    · have h := issueView_readEntry s world home region (table + 8 * walkIndex (3 - left) ia)
      split <;> rename_i hr <;> rw [hr] at h
      · exact h
      · rename_i e t
        have h : t.issueView = s.issueView := h
        have ho := fun bits => issueView_orEntry t world region (directIA region (table + 8 * walkIndex (3 - left) ia)) bits
        split
        · exact h
        · split
          · exact h
          · split
            · split
              · exact h
              · split
                · exact h
                · have ho := ho (if store then 0x0C else 0x04)
                  split <;> rename_i hoe <;> rw [hoe] at ho <;> exact ho.trans h
            · split
              · exact h
              · rw [ih]; exact h

@[simp] theorem issueView_translate (s : State) (world ia : Nat) (store : Bool) :
    (s.translate world ia store).1.issueView = s.issueView := by
  unfold State.translate
  dsimp only
  split
  · rfl
  · split
    · split <;> rfl
    · split
      · rename_i entry _
        have hu : (if s.pinCount (ia / 65536) ≠ 0 then (false, s) else s.freeBit).2.issueView = s.issueView := by split <;> rfl
        generalize (if s.pinCount (ia / 65536) ≠ 0 then (false, s) else s.freeBit) = found at hu ⊢
        obtain ⟨gone, u⟩ := found
        have ho := issueView_orEntry u world (iaRegion ia) entry.ent 0x08
        split
        · split
          · exact hu
          · rw [issueView_walkFrom, issueView_tlbDrop]; exact hu
        · split
          · exact hu
          · split
            · split <;> rename_i hoe <;> rw [hoe] at ho <;> exact ho.trans hu
            · exact hu
      · split
        · rfl
        · exact issueView_walkFrom ..

@[simp] theorem issueView_paFor (s : State) (world ia : Nat) (store : Bool) :
    (s.paFor world ia store).1.issueView = s.issueView := by
  unfold State.paFor
  split
  · rfl
  · exact issueView_translate ..

theorem issueView_readIA (who : Option Who) (world fuel : Nat) (s : State) (ia n : Nat) {bs : List Byte} {t : State}
    (h : s.readIA who world ia fuel n = .ok (bs, t)) : t.issueView = s.issueView := by
  induction fuel generalizing s ia n bs with
  | zero => cases h; rfl
  | succ fuel ih =>
    by_cases hn : n = 0
    · subst hn; cases h; rfl
    · simp only [State.readIA] at h
      have hp := issueView_paFor s world ia false
      split at h <;> rename_i hpa <;> rw [hpa] at hp
      · cases h
      · rename_i u pa
        have hl := issueView_l2Read u (syncReq who world ia pa) (min n (128 - ia % 128))
        split at h <;> rename_i hr <;> rw [hr] at hl
        · cases h
        · split at h <;> rename_i hrest
          · cases h
          · cases h
            exact (ih _ _ _ hrest).trans (hl.trans hp)

/-! ### Fetch -/

theorem issueView_fetchMiss (s : State) (a : Who) (ia : Nat) {w : Word} {t : State} (h : s.fetchMiss a ia = .ok w t) :
    t.issueView = s.issueView := by
  unfold State.fetchMiss at h
  split at h <;> cases h
  rename_i hr
  exact (issueView_modCore ..).trans (issueView_readIA _ _ _ _ _ _ hr)

theorem issueView_fetchWord (s : State) (a : Who) (asid : Nat) (smode : Bool) (va : DWord) {w : Word} {t : State}
    (h : s.fetchWord a asid smode va = .ok w t) : t.issueView = s.issueView := by
  unfold State.fetchWord at h
  split at h
  · cases h
  · split at h
    · exact issueView_fetchMiss _ _ _ h
    · dsimp only at h
      split at h
      · exact (issueView_fetchMiss _ _ _ h).trans (issueView_freeBit s)
      · cases h; rfl

theorem issueView_clauseWord (c : Ctx) (s : State) (k : Nat) {w : Word} {t : State} (h : c.clauseWord s k = .ok w t) :
    t.issueView = s.issueView := by
  unfold Ctx.clauseWord at h
  split at h
  · cases h; rfl
  · exact issueView_fetchWord _ _ _ _ _ h

/-- A word that a clause supplies leaves the path at issue. -/
theorem at_clauseWord {s t : State} {c : Ctx} {k : Nat} {w : Word} (hat : At s c) (h : c.clauseWord s k = .ok w t) : At t c :=
  ⟨(ctx_eq_of_issueView (issueView_clauseWord c s k h)).trans hat.1, hat.2⟩

/-! ### Words that write a register run -/

/-- The word `i` writes `val` to the `n` registers at `d` (from an even one where `e`), as a vector word or, with G = 1, a
uniform one, and takes no literals (R204, R205). -/
structure Writes (i : Instr) (y g : Bool) (d : Field) (n : Nat) (e : Bool) (val : Ctx → Nat → Nat → Word) : Prop where
  exec : ∀ s, exec i s = issue (info i) y s fun c s => .done (c.writeD g d n (val c) s)
  cls : (info i).cls = if g then 1 else 0
  lits : (info i).lits = 0
  dst : ∃ sources, (info i).uses = useD g d n e :: sources

theorem Writes.result {i : Instr} {y g : Bool} {d : Field} {n : Nat} {e : Bool} {val : Ctx → Nat → Nat → Word}
    (h : Writes i y g d n e val) (hn : n ≠ 0) : Result i y g d n val := by
  refine result_of e (fun s => ?_) (by rw [h.cls]; cases g <;> decide) h.lits hn fun hg => ?_
  · simp only [h.exec, raise_zero]
  · obtain ⟨sources, hu⟩ := h.dst
    simp [hu, hg, useD]

/-- A 32-bit result, by the value `f` that the model computes. The default proof of `h`, here and below, is the word's own
entries in `exec` and `info`. -/
theorem result32_of {i : Instr} {y g : Bool} {d : Field} {f val : Ctx → Nat → Word} (hf : ∀ c ln, f c ln = val c ln)
    (h : Writes i y g d 1 false fun c ln _ => f c ln := by
      exact ⟨fun _ => rfl, rfl, rfl, _, rfl⟩) :
    Result i y g d 1 fun c ln _ => val c ln := by
  simpa only [hf] using h.result (by decide)

theorem result1_of {k : Bool → Bool → Field → Field → Instr} {f val : Word → Word} (hf : ∀ a, f a = val a)
    (h : ∀ y g d a, Writes (k y g d a) y g d 1 false fun c ln _ => f (c.opnd g a ln 0) := by
      exact fun _ _ _ _ => ⟨fun _ => rfl, rfl, rfl, _, rfl⟩) : Result1 k val :=
  fun y g d a => result32_of (fun _ _ => hf _) (h y g d a)

theorem result2_of {k : Bool → Bool → Field → Field → Field → Instr} {f val : Word → Word → Word}
    (hf : ∀ a b, f a b = val a b)
    (h : ∀ y g d a b, Writes (k y g d a b) y g d 1 false fun c ln _ => f (c.opnd g a ln 0) (c.opnd g b ln 0) := by
      exact fun _ _ _ _ _ => ⟨fun _ => rfl, rfl, rfl, _, rfl⟩) :
    Result2 k val :=
  fun y g d a b => result32_of (fun _ _ => hf _ _) (h y g d a b)

theorem result3_of {k : Bool → Bool → Field → Field → Field → Instr} {f val : Word → Word → Word → Word}
    (hf : ∀ a b d, f a b d = val a b d)
    (h : ∀ y g d a b, Writes (k y g d a b) y g d 1 false fun c ln _ =>
      f (c.opnd g a ln 0) (c.opnd g b ln 0) (c.opnd g d ln 0) := by
      exact fun _ _ _ _ _ => ⟨fun _ => rfl, rfl, rfl, _, rfl⟩) : Result3 k val :=
  fun y g d a b => result32_of (fun _ _ => hf _ _ _) (h y g d a b)

/-- A 64-bit result, by the value that the model computes. -/
theorem resultD_of {i : Instr} {y g : Bool} {d : Field} {f val : Ctx → Nat → DWord} (hf : ∀ c ln, f c ln = val c ln)
    (h : Writes i y g d 2 true fun c ln j => word64 (f c ln) j := by
      exact ⟨fun _ => rfl, rfl, rfl, _, rfl⟩) :
    ResultD i y g d val := by
  unfold ResultD
  simpa only [hf] using h.result (by decide)

/-- A shift word and its immediate twin (R210). -/
theorem shift_of {k : Bool → Bool → Field → Field → Field → Instr}
    {ki : Bool → Bool → Field → Field → BitVec 6 → Instr}
    {f val : Word → Nat → Word} (hf : ∀ a n, n < 64 → f a n = val a n)
    (h : ∀ y g d a b, Writes (k y g d a b) y g d 1 false fun c ln _ => f (c.opnd g a ln 0) (amount (c.opnd g b ln 0)) := by
      exact fun _ _ _ _ _ => ⟨fun _ => rfl, rfl, rfl, _, rfl⟩)
    (hi : ∀ y g d a (n : BitVec 6), Writes (ki y g d a n) y g d 1 false fun c ln _ => f (c.opnd g a ln 0) n.toNat := by
      exact fun _ _ _ _ _ => ⟨fun _ => rfl, rfl, rfl, _, rfl⟩) :
    Shift k ki val :=
  ⟨result2_of (fun _ _ => hf _ _ (Nat.mod_lt _ (by decide))) h, fun n =>
    result1_of (fun _ => hf _ _ n.isLt) fun y g d a => hi y g d a n⟩

theorem shiftW_of {k : Bool → Bool → Field → Field → Field → Instr}
    {ki : Bool → Bool → Field → Field → BitVec 6 → Instr}
    {f val : DWord → Nat → DWord} (hf : ∀ a n, f a n = val a n)
    (h : ∀ y g d a b, Writes (k y g d a b) y g d 2 true fun c ln j =>
      word64 (f (c.opnd64 g a ln) (amount (c.opnd g b ln 0))) j := by
      exact fun _ _ _ _ _ => ⟨fun _ => rfl, rfl, rfl, _, rfl⟩)
    (hi : ∀ y g d a (n : BitVec 6), Writes (ki y g d a n) y g d 2 true fun c ln j =>
      word64 (f (c.opnd64 g a ln) n.toNat) j := by
      exact fun _ _ _ _ _ => ⟨fun _ => rfl, rfl, rfl, _, rfl⟩) :
    ShiftW k ki val :=
  fun y g d a => ⟨fun b => resultD_of (fun _ _ => hf _ _) (h y g d a b), fun n =>
    resultD_of (fun _ _ => hf _ _) (hi y g d a n)⟩

/-! ### R209 to R211 -/

theorem arithmeticAndLogicResults : ArithmeticAndLogicResults :=
  ⟨result2_of add_eq_ofNat,
   result2_of sub_eq_ofInt,
   result2_of ite_le_eq_min_toInt,
   result2_of ite_le_eq_min_toNat,
   result2_of ite_le_eq_max_toInt,
   result2_of ite_le_eq_max_toNat,
   result2_of absdV_eq,
   result1_of neg_eq_ofInt,
   result2_of and_eq_maskOf,
   result2_of or_eq_maskOf,
   result2_of xor_eq_maskOf,
   result2_of andn_eq_maskOf,
   result2_of orn_eq_maskOf,
   result2_of xnor_eq_maskOf,
   result1_of not_eq_maskOf⟩

theorem shiftResults : ShiftResults :=
  ⟨shift_of (fun a n _ => shlV_eq a n),
   shift_of (fun a n _ => shrV_eq a n),
   shift_of (fun a n _ => sarV_eq a n),
   shift_of (fun a _ h => rolV_eq a h),
   shift_of (fun a n _ => rorV_eq a n),
   shiftW_of shlV_eq,
   shiftW_of shrV_eq,
   shiftW_of sarV_eq⟩

theorem multiplyResults : MultiplyResults :=
  ⟨result2_of mul_eq_ofNat,
   result2_of (f := mulhS) (fun _ _ => rfl),
   result2_of (f := mulhN) (fun _ _ => rfl),
   result3_of mad_eq_ofNat,
   fun _ _ _ _ _ =>
    ⟨resultD_of (f := fun c ln => mulwS (c.opnd _ _ ln 0) (c.opnd _ _ ln 0)) (fun _ _ => rfl),
     resultD_of (f := fun c ln => mulwN (c.opnd _ _ ln 0) (c.opnd _ _ ln 0)) (fun _ _ => rfl),
     resultD_of (fun _ _ => mulwS_add _ _ _),
     resultD_of (fun _ _ => mulwN_add _ _ _)⟩⟩

/-! ### R212 to R214 -/

theorem bitResults : BitResults :=
  ⟨result1_of popcV_eq,
   result1_of clzV_eq,
   result1_of ctzV_eq,
   result1_of (f := brevV) (fun _ => rfl),
   result2_of bfeZV_eq,
   result2_of bfeSV_eq,
   result3_of bfiV_eq,
   result3_of prmtV_eq⟩

/-! ### R216 to R218 -/

theorem addressWidthImmediateResults : AddressWidthImmediateResults :=
  ⟨fun _ _ _ _ _ =>
    ⟨resultD_of (fun _ _ => add_eq_ofNat _ _),
     resultD_of (fun _ _ => sub_eq_ofInt _ _),
     resultD_of (fun _ _ => leaV_eq 2 _ _),
     resultD_of (fun _ _ => leaV_eq 4 _ _),
     resultD_of (fun _ _ => leaV_eq 8 _ _),
     resultD_of (fun _ _ => leaV_eq 16 _ _)⟩,
   result1_of (signExtend_setWidth_eq · 7),
   result1_of (signExtend_setWidth_eq · 15),
   result1_of (setWidth_setWidth_eq · 8),
   result1_of (setWidth_setWidth_eq · 16),
   fun _ _ _ _ => resultD_of (fun _ _ => rfl),
   fun _ _ _ _ => resultD_of (fun _ _ => (BitVec.ofNat_toNat _ _).symm),
   fun _ _ _ _ => result32_of (fun _ _ => opnd_zero_eq _ _ _ _),
   fun i =>
    ⟨result1_of (add_sext10 · i),
     result1_of (and_sext10 · i),
     result1_of (or_zext10 · i)⟩,
   fun _ _ _ i => result32_of (f := fun _ _ => sext17 i) (fun _ _ => rfl)⟩

/-! ### R219: LIT -/

/-- Only the `n` words of a result are written. -/
theorem writeD_congr (c : Ctx) (g : Bool) (d : Field) (n : Nat) {val val' : Nat → Nat → Word} (s : State)
    (h : ∀ ln j, j < n → val ln j = val' ln j) : c.writeD g d n val s = c.writeD g d n val' s := by
  cases g with
  | true => exact List.foldl_ext _ _ _ fun s j hj => by rw [h 0 j (List.mem_range.1 hj)]
  | false =>
    show State.modBlk _ _ _ = State.modBlk _ _ _
    congr 1
    funext k
    congr 1
    exact List.foldl_ext _ _ _ fun v j hj => by simp only [h _ j (List.mem_range.1 hj)]

theorem literal_one {c : Ctx} {s s1 : State} {w : Word} (f : List Word → State → Act) (h : c.clauseWord s 1 = .ok w s1) :
    c.literal s 1 f = f [w] s1 := by
  simp [Ctx.literal, Ctx.literal.go, h]

theorem literal_two {c : Ctx} {s s1 s2 : State} {w x : Word} (f : List Word → State → Act)
    (h1 : c.clauseWord s 1 = .ok w s1) (h2 : c.clauseWord s1 2 = .ok x s2) : c.literal s 2 f = f [w, x] s2 := by
  simp [Ctx.literal, Ctx.literal.go, h1, h2]

/-- A literal word, once its literal words are read, has written them and stands past them. -/
theorem literal_done {s t : State} {c : Ctx} {i : Instr} {y g : Bool} {d : Field} {n lits : Nat} {e : Bool}
    {val : Nat → Nat → Word} {body : Ctx → State → Act} (hat : At s c) (hat' : At t c) (hp : Passes c i)
    (hx : exec i s = issue (info i) y s body) (hb : body c s = .done (c.writeD g d n val t)) (hn : n ≠ 0)
    (hcls : (info i).cls = if g then 1 else 0) (hl : (info i).lits = lits) (hu : (info i).uses = [useD g d n e]) :
    ∃ u, exec i s = .next u ∧ Done t u c y g d n lits 0 val := by
  have hnext := hx.trans (issueWith_passes hat false (info i) y (fun _ => false) hp body)
  rw [hb] at hnext
  refine ⟨_, hnext, ?_⟩
  have h := done_of t c hat' (info i) y g d n val 0 (by rw [hcls]; cases g <;> decide) fun hg ln ha =>
    passes_run hp d n e hn (by simp [hu, hg, useD]) ln ha
  rw [raise_zero, hl] at h
  rwa [if_neg Bool.false_ne_true, hl]

/-- A pair that starts at an odd register is no well-formed destination (R43). -/
theorem useD_odd_not_ok (g : Bool) {d : Field} (n : Nat) (h : d.toNat % 2 = 1) : (useD g d n true).ok = false := by
  cases g <;> simp [useD, Use.ok, h]

/-- A word that names an odd pair as its destination raises ILL (R43, R50). -/
theorem check_odd_pair (c : Ctx) {i : Instr} {g : Bool} {d : Field} {n : Nat} (hu : (info i).uses = [useD g d n true])
    (h : d.toNat % 2 = 1) : c.check (info i) false = some (c.trap 0x01) := by
  have hwf : (info i).wf = false := by
    show (i.uses.all Use.ok && i.limits) = false
    rw [show i.uses = [useD g d n true] from hu]
    simp [useD_odd_not_ok g n h]
  simp [Ctx.check, Ctx.ill, hwf]

theorem literalResults : LiteralResults := by
  intro y g d s c hat
  refine ⟨fun w s1 hp h1 => ?_, fun w x s1 s2 hp h1 h2 => ?_, fun hodd => ?_⟩
  · exact literal_done hat (at_clauseWord hat h1) hp rfl (literal_one _ h1) (by decide) rfl rfl rfl
  · refine literal_done hat (at_clauseWord (at_clauseWord hat h1) h2) hp rfl ((literal_two _ h1 h2).trans ?_) (by decide)
      rfl rfl rfl
    refine congrArg Act.done (writeD_congr c g d 2 s2 fun _ j hj => ?_)
    match j, hj with
    | 0, _ => rfl
    | 1, _ => rfl
  · exact issueWith_traps hat false _ y (fun _ => false) _ (check_odd_pair c rfl hodd) _

/-! ### The obligations -/

/-- Settles O1: every word is a write of its destination (`Writes`), and its value is the one of the spec's table. -/
theorem integerArithmeticResults : Obligations.IntegerArithmeticResults := ⟨arithmeticAndLogicResults, multiplyResults⟩

/-- Settles O3, bit by bit for rotations and bit fields and byte by byte for PRMT. -/
theorem shiftAndBitResults : Obligations.ShiftAndBitResults := ⟨shiftResults, bitResults⟩

/-- Settles O5: LIT's reading of its literal words leaves the issuing path as it was (`at_clauseWord`). -/
theorem immediateAndLiteralResults : Obligations.ImmediateAndLiteralResults := ⟨addressWidthImmediateResults, literalResults⟩

end Sys2Proof.Machine
end

section
/-! PROOFS. SYS (chapter 17): O14. -/

namespace Sys2Proof.Machine

open Sys2Proof

/-! ### What a word's body answers, and what it leaves -/

/-- A word that goes on to the next one, where its body is done. -/
theorem exec_done {i : Instr} {y : Bool} {s t : State} {c : Ctx} {body : Ctx → State → Act} (hat : At s c) (hp : Passes c i)
    (hx : exec i s = issue (info i) y s body) (hb : body c s = .done t) : exec i s = .next (c.leave i y t) := by
  rw [hx, issue, issueWith_passes hat false (info i) y (fun _ => false) hp, hb]
  rfl

/-- A control transfer, where its body is done; `ill` is its own ILL condition (R28, R49). -/
theorem exec_moved {i : Instr} {y : Bool} {s t : State} {c : Ctx} {ill : Ctx → Bool} {body : Ctx → State → Act} (hat : At s c)
    (hp : Passes c i (ill c)) (hx : exec i s = issueWith true (info i) y ill s body) (hb : body c s = .done t) :
    exec i s = .next (c.leaveAt i y t) := by
  rw [hx, issueWith_passes hat true (info i) y ill hp, hb]
  rfl

/-- A wave that has written FFLAGS and issued. -/
def flaggedWave (c : Ctx) (y : Bool) (lits clk : Nat) (F : Wave → Word) (v : Wave) : Wave :=
  issuedWave c y lits clk { v with fflags := F v }

theorem leave_fflags_eq (s : State) (c : Ctx) (i : Instr) (y : Bool) (F : Wave → Word) (hcls : (info i).cls ≠ 2) :
    c.leave i y (s.modWv c.b c.w fun v => { v with fflags := F v }) =
      s.modWv c.b c.w (flaggedWave c y (info i).lits s.clk F) := by
  rw [Ctx.leave, finish_eq _ _ _ _ hcls, modWv_modWv]
  rfl

/-- A word whose body changes FFLAGS alone leaves all else as a word that only moves its path on. -/
theorem leave_fflags {s : State} {c : Ctx} (hat : At s c) (i : Instr) (y : Bool) (F : Wave → Word) (hcls : (info i).cls ≠ 2) :
    let t := c.leave i y (s.modWv c.b c.w fun v => { v with fflags := F v })
    Frame s t c y (c.nextPos (info i).lits) ∧ SameV t c ∧ SameG t c ∧ SameQ t c ∧ (t.wv c.b c.w).fflags = F c.wv := by
  obtain ⟨-, -, hpa, -, -, -, hpl⟩ := at_facts hat
  have hpath := issuedWave_path c y (info i).lits s.clk { c.wv with fflags := F c.wv } hpl
  obtain ⟨hframe, hv, hwv⟩ := frame_of s c hat y (c.nextPos (info i).lits) id (flaggedWave c y (info i).lits s.clk F) rfl
    (issuedWave_path_ne c y (info i).lits s.clk { c.wv with fflags := F c.wv }) (by rw [flaggedWave, hpath, hpa]; rfl)
  rw [modBlk_id, ← leave_fflags_eq s c i y F hcls] at hframe hv hwv
  refine ⟨hframe, hv, fun k => ?_, by rw [SameQ, hwv]; rfl, by rw [hwv]; rfl⟩
  simp only [Ctx.after, Ctx.g, State.ctxAt, hwv, flaggedWave, hpath, hpa]
  rfl

/-- A word whose body changes nothing only moves its path on. -/
theorem leave_moved {s : State} {c : Ctx} (hat : At s c) (i : Instr) (y : Bool) (hcls : (info i).cls ≠ 2) :
    Moved s (c.leave i y s) c y (c.nextPos (info i).lits) := by
  obtain ⟨hframe, hv, hg, hq, hf⟩ := leave_fflags hat i y Wave.fflags hcls
  have hid : (s.modWv c.b c.w fun v => { v with fflags := v.fflags }) = s := modWv_id s c.b c.w
  rw [hid] at hframe hv hg hq hf
  exact ⟨hframe, hv, hg, hq, hf⟩

/-! ### FFLAGS (R198, R398) -/

/-- No bit of FFLAGS[12:8] is set just where the field is 0. -/
theorem and_pending_eq_zero (w : Word) : w &&& 0x1F00#32 = 0 ↔ w.toNat / 2 ^ 8 % 2 ^ 5 = 0 := by
  have hmask : ∀ i < 32, (0x1F00#32).getLsbD i = decide (8 ≤ i ∧ i < 13) := by decide
  have hfield : w.toNat / 2 ^ 8 % 2 ^ 5 = (w.extractLsb' 8 5).toNat := by
    rw [BitVec.extractLsb'_toNat, Nat.shiftRight_eq_div_pow]
  rw [hfield, show (w.extractLsb' 8 5).toNat = 0 ↔ w.extractLsb' 8 5 = 0#5 from BitVec.toNat_inj (y := 0#5)]
  constructor <;> intro h <;> refine BitVec.eq_of_getLsbD_eq fun i hi => ?_
  · have := congrArg (·.getLsbD (8 + i)) h
    simpa [hmask (8 + i) (by omega), hi, show 8 + i < 13 by omega] using this
  · have := congrArg (·.getLsbD (i - 8)) h
    rw [BitVec.getLsbD_and, hmask i hi]
    by_cases hk : 8 ≤ i ∧ i < 13
    · simpa [hk, show 8 + (i - 8) = i by omega, show i - 8 < 5 by omega] using this
    · simp [hk]

/-- What TCLR leaves of a bit of FFLAGS: its mask names the flags in `m2` and the pending bits in `m`. -/
theorem bitAt_tclr (w : Word) (m m2 : BitVec 5) {k : Nat} (hk : k < 32) :
    bitAt (w &&& ~~~(m2.setWidth 32 ||| (m.setWidth 32 <<< 8))) k =
      (bitAt w k && !(if k < 5 then m2.getLsbD k else 8 ≤ k && k < 13 && m.getLsbD (k - 8))) := by
  simp only [bitAt, BitVec.getLsbD_and, BitVec.getLsbD_not, BitVec.getLsbD_or, BitVec.getLsbD_setWidth,
    BitVec.getLsbD_shiftLeft, hk, decide_true, Bool.true_and]
  congr 2
  by_cases h5 : k < 5
  · simp [h5, show k < 8 by omega]
  · rw [if_neg h5, BitVec.getLsbD_of_ge m2 k (by omega)]
    by_cases h13 : k < 13
    · simp [h13, show k - 8 < 32 by omega, show decide (8 ≤ k) = !decide (k < 8) by simp [← decide_not]]
    · simp [h13, BitVec.getLsbD_of_ge m (k - 8) (by omega)]

/-! ### The return from a handler (R400) -/

/-- The state that TRET returns to: TPATH stands at the saved position, with the saved mask and mode, and H is 0. -/
def Ctx.returned (c : Ctx) (s : State) : State :=
  s.modWv c.b c.w fun v =>
    { v with
      tinfo := v.tinfo &&& ~~~0x80000000#32
      paths := v.paths.modify (v.tinfo.toNat % 8) fun x =>
        { x with
          exm := v.texm &&& x.full, pc := v.tpc, cpos := c.wv.tinfo.toNat / 2 ^ 16 % 16, hdr := c.wv.thdr, words := []
          phase := 0, blocked := none
          mode := ([.plain, .melded, .sideA, .sideB].getD (v.tinfo.toNat / 2 ^ 20 % 4) .plain) } }

/-- TRET in handler mode, where the saved position is one that a path may have. -/
theorem tret_eq_returned {c : Ctx} (s : State) (hh : c.inHandler = true)
    (hpos : c.wv.tinfo.toNat / 2 ^ 16 % 16 = 0 ∨
      (fld c.wv.thdr 31 27 = 0b11110 ∧ c.wv.tinfo.toNat / 2 ^ 16 % 16 ≤ fld c.wv.thdr 26 23)) :
    c.tret s = .inr (c.returned s) := by
  have hmode : ∀ n, n < 4 → (match n with | 0 => MeldMode.plain | 1 => .melded | 2 => .sideA | _ => .sideB) =
      [MeldMode.plain, .melded, .sideA, .sideB].getD n .plain := by decide
  have hgood : ¬(c.wv.tinfo.toNat / 2 ^ 16 % 16 ≠ 0 ∧
      (fld c.wv.thdr 31 27 ≠ 0b11110 ∨ fld c.wv.thdr 26 23 < c.wv.tinfo.toNat / 2 ^ 16 % 16)) := by omega
  simp only [Ctx.tret, hh, Bool.not_true, Bool.false_eq_true, if_false, if_neg hgood, Ctx.returned,
    ← hmode _ (Nat.mod_lt _ (by decide : 0 < 4))]
  rfl

/-! ### The extended lock (R150) -/

/-- An update of a block is what it makes of the block as it stands. -/
theorem modBlk_congr {s : State} {b : Nat} {f g : Block → Block} (h : f (s.blk b) = g (s.blk b)) : s.modBlk b f = s.modBlk b g := by
  unfold State.modBlk
  congr 1
  refine List.ext_getElem? fun i => ?_
  rw [List.getElem?_modify, List.getElem?_modify]
  by_cases hi : b = i
  · subst hi
    cases hk : s.blocks[b]? with
    | none => rfl
    | some k =>
      have hblk : s.blk b = k := by simp [State.blk, List.getD_eq_getElem?_getD, hk]
      simp [← hblk, h]
  · simp [hi]

/-- A wave that has the lock has it. -/
theorem lock_of_holds {s : State} {c : Ctx} (hat : At s c) (h : c.holdsLock = true) : c.lock s = (true, s) := by
  obtain ⟨hblk, -⟩ := at_facts hat
  rw [Ctx.holdsLock, hblk, beq_iff_eq] at h
  simp only [Ctx.lock, if_pos h]

/-- A free lock that no wave waits for is granted. -/
theorem lock_of_free {s : State} {c : Ctx} (hat : At s c) (hfree : SMap.get none c.blk.xlock (c.w / 2) = none)
    (hwait : c.blk.xwait = []) :
    c.lock s = (true, s.modBlk c.b fun k => { k with xlock := SMap.put none k.xlock (c.w / 2) (some c.w) }) := by
  obtain ⟨hblk, -⟩ := at_facts hat
  rw [hblk] at hfree hwait
  simp only [Ctx.lock, hfree, hwait, reduceCtorEq, if_false, List.filter_nil, List.head?_nil, Option.isNone_none, Bool.and_self,
    if_true, Prod.mk.injEq, true_and]
  exact modBlk_congr (by simp only [hwait])

/-! ### The words of SYS -/

theorem exec_tfence_moves {y : Bool} {s : State} {c : Ctx} (hat : At s c) (hp : Passes c (.tfence y))
    (h : c.wv.fflags.toNat / 2 ^ 8 % 2 ^ 5 = 0) :
    ∃ t, exec (.tfence y) s = .next t ∧ Moved s t c y (c.nextPos 0) :=
  ⟨_, exec_done hat hp rfl (if_neg (not_not.2 ((and_pending_eq_zero _).2 h))), leave_moved hat (.tfence y) y (show 5 ≠ 2 by decide)⟩

theorem exec_tfence_traps {y : Bool} {s : State} {c : Ctx} (hat : At s c) (hp : Passes c (.tfence y))
    (h : c.wv.fflags.toNat / 2 ^ 8 % 2 ^ 5 ≠ 0) :
    exec (.tfence y) s = .next (s.takeTrap c.b c.w c.p (c.trap 0x20 (some c.pa.exm) (c.wv.fflags.setWidth 64))) := by
  have hpend : c.wv.fflags &&& 0x1F00#32 ≠ 0 := fun h0 => h ((and_pending_eq_zero _).1 h0)
  refine (issueWith_passes hat false (info (.tfence y)) y (fun _ => false) hp _).trans ?_
  rw [if_pos hpend]

theorem exec_tclr_clears {y : Bool} {m m2 : BitVec 5} {s : State} {c : Ctx} (hat : At s c) (hp : Passes c (.tclr y m m2)) :
    ∃ t, exec (.tclr y m m2) s = .next t ∧ Frame s t c y (c.nextPos 0) ∧ SameV t c ∧ SameG t c ∧ SameQ t c ∧
      ∀ k, k < 32 → bitAt (t.wv c.b c.w).fflags k =
        (bitAt c.wv.fflags k && !(if k < 5 then m2.getLsbD k else 8 ≤ k && k < 13 && m.getLsbD (k - 8))) := by
  obtain ⟨hframe, hv, hg, hq, hf⟩ := leave_fflags hat (.tclr y m m2) y
    (fun v => v.fflags &&& ~~~(m2.setWidth 32 ||| (m.setWidth 32 <<< 8))) (show 5 ≠ 2 by decide)
  exact ⟨_, exec_done hat hp rfl rfl, hframe, hv, hg, hq, fun k hk => by rw [hf, bitAt_tclr _ _ _ hk]⟩

theorem exec_exit_ends_wave {y : Bool} {s : State} {c : Ctx} (hat : At s c) (hp : Passes c (.exit y)) (hh : c.inHandler = true) :
    exec (.exit y) s = .next (c.leaveAt (.exit y) y (s.endWave c.b c.w (c.wv.tinfo.toNat % 8)
      { code := c.wv.tcode.toNat % 256, sub := c.wv.tcode.toNat / 256 % 256, pc := c.wv.tpc, va := c.wv.tva })) := by
  have hcode : fld c.wv.tcode 7 0 = c.wv.tcode.toNat % 256 := by simp [fld]
  have hsub : fld c.wv.tcode 15 8 = c.wv.tcode.toNat / 256 % 256 := rfl
  rw [← hcode, ← hsub]
  exact exec_moved hat hp rfl (if_pos hh)

theorem exec_tret_returns {y : Bool} {s : State} {c : Ctx} (hat : At s c) (hp : Passes c (.tret y)) (hh : c.inHandler = true)
    (hpos : c.wv.tinfo.toNat / 2 ^ 16 % 16 = 0 ∨
      (fld c.wv.thdr 31 27 = 0b11110 ∧ c.wv.tinfo.toNat / 2 ^ 16 % 16 ≤ fld c.wv.thdr 26 23)) :
    exec (.tret y) s = .next (c.leaveAt (.tret y) y ((c.returned s).takePending c.b c.w)) := by
  refine exec_moved (ill := fun c => !c.inHandler) hat (by simpa [hh] using hp) rfl ?_
  simp only [tret_eq_returned s hh hpos]

/-- XREG.ACQ of a wave to which the lock is granted. -/
theorem exec_xregAcq_granted {y : Bool} {s t : State} {c : Ctx} (hat : At s c) (hp : Passes c (.xregAcq y)) (hX : c.X ≠ 0)
    (hl : c.lock s = (true, t)) : exec (.xregAcq y) s = .next (c.leave (.xregAcq y) y t) :=
  exec_done hat hp rfl (by simp only [if_neg hX, hl])

theorem exec_xregRel_releases {y : Bool} {s : State} {c : Ctx} (hat : At s c) (hp : Passes c (.xregRel y))
    (hl : c.holdsLock = true) (hlc : c.wv.lc = 0) (hcc : c.wv.cc = 0) (hmc : c.wv.mc = 0) :
    exec (.xregRel y) s = .next (c.leave (.xregRel y) y (s.unlock c.b (c.w / 2))) := by
  have hctr : [Ctr.lc, .cc, .mc].find? (fun k => c.wv.ctr k ≠ 0) = none := by simp [Wave.ctr, hlc, hcc, hmc]
  exact exec_done hat hp rfl (by simp only [hl, hctr, Bool.not_true, Bool.false_eq_true, if_false])

/-! ### The obligation -/

/-- Settles O14: each word runs its body once it passes its checks (`exec_done`, `exec_moved`). -/
theorem systemWordResults : Obligations.SystemWordResults := by
  intro y n m m2 s c hat soft
  refine ⟨?trap, ?brk, exec_tfence_moves hat, exec_tfence_traps hat, ?exitPath, exec_exit_ends_wave hat,
    exec_tclr_clears hat, exec_tret_returns hat, ?held, ?granted, exec_xregRel_releases hat⟩
  case trap => exact fun hp => exec_moved hat hp rfl rfl
  case brk => exact fun hp hd => exec_moved hat hp rfl (if_pos hd)
  case exitPath => exact fun hp hh => exec_moved hat hp rfl (if_neg (by simp [hh]))
  case held =>
    exact fun hp hX hl =>
      ⟨_, exec_xregAcq_granted hat hp hX (lock_of_holds hat hl), leave_moved hat (.xregAcq y) y (show 5 ≠ 2 by decide)⟩
  case granted => exact fun hp hX hf hw => exec_xregAcq_granted hat hp hX (lock_of_free hat hf hw)

end Sys2Proof.Machine
end
